-- ==== Sys2Proof/Word.lean ====
section
/-! DEFINITION. The words of the module and the keyed tables of its plain data. -/

namespace Sys2Proof

/-- A byte. -/
abbrev Byte := BitVec 8

/-- A 32-bit register word. -/
abbrev W32 := BitVec 32

/-- A 64-bit register word. -/
abbrev W64 := BitVec 64

/-- A descriptor of R244: 64 bytes, byte `k` in bits `8k+7 .. 8k` (multi-byte fields are little-endian). -/
abbrev Desc := BitVec 512

/-- A table of numbered units, sorted by number; an unlisted unit holds its reset value. -/
abbrev Tab (α : Type) := List (Nat × α)

end Sys2Proof
end

