-- ==== Sys2Proof/Syntax.lean ====
section
/-! DEFINITION. The commands the block takes: one constructor of `Instr` per row of spec/opcode_table.json, with
the operands that the row's step takes from outside the module (what a party sends, what a sensor or a peer shows,
and what undocumented code or an unspecified algorithm answers: notes/assumptions/4.md). -/

namespace Sys2Proof

/-- How a host read completes with an error (R251, Table 8). -/
inductive HostErr where
  | ur | ca | ep | cto
  deriving DecidableEq, Repr

/-- What a read of host memory returns. -/
inductive HostRd where
  | data (bytes : List Byte)
  | error (e : HostErr)
  deriving DecidableEq, Repr

/-- A register access of a function: a read, or a write of a value (R6, R28, R29). -/
inductive RegAccess where
  | read
  | write (v : W64)
  deriving DecidableEq, Repr

/-- A switched power domain (R22, Table 6). -/
inductive Domain where
  | tile (t : Nat) | hub (c : Nat) | mem (m : Nat) | codec (v : Nat) | port (p : Nat) | hcx
  deriving DecidableEq, Repr

/-- The wrapper of a Svetmen object (R271). -/
inductive Wrapper where
  | openCode
  | owner (keyId : W32)
  deriving DecidableEq, Repr

/-- What a kernel entry declares of one argument slot (R57 checks 9 and 10). -/
structure SlotDecl where
  space : Nat
  dir : Nat
  formats : List Nat
  deriving DecidableEq, Repr

/-- What a KVPAGE stream names (R176): heads and positions from lo to hi, the part (0 keys, 1 values, 2 scales) and the
direction. -/
structure KvDecl where
  seqId : Nat
  layer : Nat
  headLo : Nat := 0
  headHi : Nat
  posLo : Nat := 0
  posHi : Nat
  part : Nat
  write : Bool := false
  deriving DecidableEq, Repr

/-- A barrier mark in an access stream (R67): the entries from `entry` on follow the `uses`-th release of barrier `bar`. -/
structure BarMark where
  entry : Nat
  bar : Nat
  uses : Nat
  deriving DecidableEq, Repr

/-- What a kernel step declares of one access queue (R96, R97, R101, R102, R132). `users` is the consumer set of a read
queue and the producer set of a write queue: bit 0 the Tile Sequencer, bit 1 the Vector Unit, bit 2 + e MEe. The stream's
map or feature table starts at DRAM address `base`; granules in it are counted before compression. -/
structure QueueDecl where
  q : Nat
  kind : Nat
  depthLog2 : Nat
  users : BitVec 6
  stageBank : Nat
  stageAt : Nat
  relief : Nat := 0
  fmt : Nat := 1
  base : Nat := 0
  /-- LINEAR and SPILL: first granule and granules; STRIDED: first granule, granules per row, granules from row to row, rows -/
  baseGranule : Nat := 0
  len : Nat := 0
  rowGranules : Nat := 1
  stride : Nat := 0
  /-- STRIDED: rows of the stream; indexed types: rows of the feature table -/
  rows : Nat := 0
  /-- addresses of the index list (col_idx for CSR) and of row_ptr or the COO row list; index elements; CSR: first and last
  row; BELL: W and b -/
  index : Nat := 0
  pointers : Nat := 0
  indexLen : Nat := 0
  firstRow : Nat := 0
  lastRow : Nat := 0
  width : Nat := 0
  block : Nat := 8
  kv : Option KvDecl := none
  marks : List BarMark := []
  deriving DecidableEq, Repr

/-- The scope of a barrier (R67). -/
inductive Scope where
  | cluster | kernel | cascade
  deriving DecidableEq, Repr

/-- A kernel entry of a Svetmen object. -/
structure EntryDecl where
  slots : List SlotDecl
  engines : BitVec 4
  banks : BitVec 8
  hub : Bool
  conv : Bool
  /-- the access queues of each kernel step, in order (R96) -/
  steps : List (List QueueDecl)
  barriers : List Scope
  /-- logical bank address of the weights that a convolution entry packs, and of their stamp behind them (R125) -/
  pack : Nat := 0
  deriving DecidableEq, Repr

/-- A Sentinel entry of a Svetmen object (R193, R197). -/
structure ModelDecl where
  signalsLo : Nat
  signalsHi : Nat
  samplesLo : Nat
  samplesHi : Nat
  stateLo : Nat
  stateHi : Nat
  /-- the declared clock bounds: a bound stands beside the most values that it serves (R193) -/
  clocks : List (Nat × Nat)
  weightsKib : Nat
  codeKib : Nat
  deriving DecidableEq, Repr

/-- What reading, hashing and checking a stored Svetmen object shows (its contents are not documented). -/
structure ObjFacts where
  signed : Bool
  wrapper : Wrapper
  version : Nat
  digest : BitVec 512
  /-- the kernel entries, by index -/
  entries : List EntryDecl
  model : Option ModelDecl
  deriving DecidableEq, Repr

/-- What the resident loader finds of the firmware image in flash (R354, R355). SVNs and digests are those of components 1
to 5 of the Provenance report, in that order: components 2, 3 and 4 are the image's. -/
structure ImageFacts where
  magicOk : Bool
  rootOk : Bool
  componentsOk : Bool
  signaturesOk : Bool
  svns : List Nat
  imageId : W32
  settingsVersion : Nat
  digests : List (BitVec 512)
  deriving DecidableEq, Repr

/-- What the AON start finds outside the module's own state (R343, R390). -/
structure AonFacts where
  slotPins : BitVec 6
  loaderOk : Bool
  holdupOk : Bool
  image : ImageFacts
  deriving DecidableEq, Repr

/-- What steps 2 to 4 of the start sequence find (R274, R281, R346). -/
structure StartFacts where
  katOk : Bool
  rngOk : Bool
  certOk : Bool
  microcodeOk : Bool
  deriving DecidableEq, Repr

/-- What a Pointing Engine does next for a queue (R98 to R104): the next step of its stream, or one granule of a KV page at
an offset in the frame (R172), where `leafBad` and `listBad` say whether reading the page entry from its leaf and from the
fall-back list is uncorrectable. -/
inductive PeReq where
  | next
  | kv (page offset : Nat) (leafBad listBad : Bool)
  deriving DecidableEq, Repr

/-- What a memory read finds in its error code (R80, R259). -/
inductive Ecc where
  | clean | corrected | uncorrectable
  deriving DecidableEq, Repr

/-- Who presents a request to a bank (R81, R82), in the order that breaks ties. -/
inductive Requester where
  | sequencer | vector | me (e : Fin 4) | setEngine | peFill | peSpill | dma | sentinel | eccWriteBack
  deriving DecidableEq, Repr

/-- One request presented to a bank for the first time (R78, R82). -/
structure BankReq where
  who : Requester
  ctx : Nat
  addr : Nat
  len : Nat
  write : Option (List Byte)
  deriving DecidableEq, Repr

/-- A command to a Set Engine (R111). Addresses are bank-space addresses. -/
structure SetCmd where
  op : Nat
  keyType : Nat
  flags : BitVec 8
  redOp : Nat
  nA : Nat
  nB : Nat
  k : Nat
  thresh : W32
  srcA : Nat
  srcB : Nat
  dst : Nat
  deriving DecidableEq, Repr

/-- What a kernel's tiles show when its last engine finishes (R64, R65): per placed tile the clocks and stalls. -/
structure KernelFin where
  flags : BitVec 8
  cycles : Nat
  tiles : List (Nat × Nat × Nat × Nat)
  deriving DecidableEq, Repr

/-- How a Sentinel model faults (R198). -/
inductive FaultKind where
  | trap | overrun | stateUncorr | modelUncorr
  deriving DecidableEq, Repr

/-- How a decoded picture's slices divide it (R218). -/
structure PicShape where
  tiles : Nat
  wavefront : Bool
  ctbRows : Nat
  slices : Nat
  deriving DecidableEq, Repr

/-- What the parameter sets that a picture activates name (R212, R224); `ctb` is the side of its CTBs or macroblocks. -/
structure PicParams where
  profile : Nat
  level : Nat
  highTier : Bool
  depth : Nat
  width : Nat
  height : Nat
  ctb : Nat
  /-- they name a tool that Table 2 lists as absent -/
  absentTool : Bool
  deriving DecidableEq, Repr

/-- What the codec cores find in an access unit, or leave of an input picture (the coding choices are Norurn's, R222, and the
standards'). Samples stand in rows. -/
structure PicResult where
  params : PicParams
  paramDiscarded : Bool
  /-- an IRAP or IDR picture; one at a recovery point -/
  irap : Bool
  recovery : Bool
  /-- a RASL picture that the standard does not output -/
  noOutput : Bool
  /-- no slice could be decoded; the CTBs or macroblocks that were not, in raster numbers -/
  noSlice : Bool
  undecoded : List Nat
  /-- the slots that it predicts from, and those that the standard keeps for reference after it -/
  usedRefs : BitVec 16
  stillRefs : BitVec 16
  shown : Bool
  outMask : BitVec 16
  poc : W32
  crop : BitVec 64
  luma : List (List Nat)
  chroma : List (List Nat)
  /-- encode: coded bits of the first and the second attempt, the bitstream and the mean of the QPs chosen -/
  bits1 : Nat
  bits2 : Nat
  stream : List Byte
  qpAvg : BitVec 8
  cycles : Nat
  /-- a read at this byte of the access unit or input picture was uncorrectable -/
  uncorrectable : Option Nat
  deriving DecidableEq, Repr

/-- One microsecond of the power measurement (R283, R298): the readings, and what the limiter computes from the demand: each
reason's own action rung (0 none) and the reasons active against the unthrottled demand. -/
structure PowerMeas where
  voltage10mV : Nat
  currentMA : Nat
  rungs : List Nat
  active : List Nat
  tj : List Nat
  tInlet : Int
  tOutlet : Int
  tFin : Int
  tjMax : Int
  deriving DecidableEq, Repr

/-- The sensors that the airflow estimate reads (R303), in units of 0.001 °C; `none` for a sensor excluded. -/
structure AirFacts where
  inlet : List Int
  outlet : List Int
  fin : List Int
  finBefore : List Int
  power1s : Int
  deriving DecidableEq, Repr

/-- A HELLO frame's payload (R312, R313, R315). -/
structure Hello where
  versions : BitVec 8
  serial : W64
  keyClass : BitVec 16
  nonce : BitVec 256
  deriving DecidableEq, Repr

/-- The header of an Olper frame after the HELLO and PROOF exchange, with the receiver's checks of it (R316, R317). -/
structure OlpHdr where
  ctr : Nat
  ack : Nat
  cred0 : Nat
  cred1 : Nat
  crcOk : Bool
  tagOk : Bool
  deriving DecidableEq, Repr

/-- A HEARTBEAT payload (R339, Table 9). -/
structure Heart where
  claim : W32
  role : Nat
  flags : BitVec 8
  number : BitVec 16
  config : W64
  windows : W32
  /-- DEVICE code of the partner, which no field of the frame carries (R325) -/
  device : BitVec 16
  deriving DecidableEq, Repr

/-- A Relay STATUS payload (R352, Table 9). -/
structure RelayStatus where
  serial : W64
  phase : Nat
  update : Nat
  arm : Nat
  changeId : W32
  role : Nat
  partner : W64
  deriving DecidableEq, Repr

/-- The header of a Relay frame, with the receiver's checks of it (R352, Table 8). -/
structure RelayHdr where
  down : Bool
  src : Nat
  dst : Nat
  hops : Nat
  crcOk : Bool
  tagOk : Bool
  deriving DecidableEq, Repr

/-- An armed value of R363: MODE, SETTINGS records or an image. -/
structure ArmReq where
  kind : Nat
  changeId : W32
  mode : Nat
  imageId : W32
  records : List Byte
  deriving DecidableEq, Repr

/-- An image written by a chain or injected (R354): its header fields as the offer carries them. -/
structure ImageHead where
  imageId : W32
  length : Nat
  digest : BitVec 512
  deriving DecidableEq, Repr

/-- The events of the trace port (R378, Table 7). -/
structure TraceEv where
  kind : Nat
  ctx : Nat
  ring : Nat
  seq : W32
  tag : W32
  arg : W32
  deriving DecidableEq, Repr

/-- The commands, one per row of spec/opcode_table.json. `ring` is a module-wide submission ring number 128c + r,
4096 for the management ring; `seq` is a descriptor's sequence number in its ring (R239). -/
inductive Instr where
  -- registers and start
  | registerWrite (fn off bits : Nat) (acc : RegAccess)
  | glbSetupLockSet (fn : Nat) (v : W32)
  | aonStart (a : AonFacts) (f : StartFacts)
  | holdupCharged (f : StartFacts)
  | inputBelowReset
  | inputOverVoltage
  | inputRestored (a : AonFacts) (f : StartFacts)
  | startPermit (f : StartFacts)
  | startPermitWithdrawn
  | ddrTraining (ok : BitVec 12) (temp : Int) (ms : BitVec 16)
  | startReady (selfTestOk : Bool)
  | domainOff (d : Domain)
  | domainOn (d : Domain)
  -- kernels
  | kernel (ring : Nat) (obj : ObjFacts)
  | claimGrant (part : Nat)
  | staggerWave (cluster : Nat)
  | barrierArrive (ring seq tile bar : Nat) (queued : BitVec 4)
  | kernelFinish (ring seq : Nat) (fin : KernelFin)
  | kernelTimeout (ring seq : Nat)
  | sequencerTrap (ring seq tile : Nat) (cause : BitVec 8)
  | icacheFill (tile line : Nat)
  | peRequest (tile step q : Nat) (req : PeReq)
  | fallbackHoldExpiry (cluster : Nat)
  | peFillReturn (tile q : Nat) (ecc : Ecc)
  -- banks
  | bankAccessRequest (bank clock : Nat) (reqs : List BankReq) (ecc : Ecc) (group : Nat)
  | bankOwnerWrite (bank : Nat) (owner : Option Nat)
  | handoverDrain (bank : Nat)
  | bankWake (bank : Nat)
  | bankClear (bank : Nat)
  | bankIdleRet (bank : Nat)
  | freeOffSet (tile : Nat)
  | freeOffClear (tile : Nat)
  -- set engines
  | setEngineCommand (tile : Nat) (cmd : SetCmd)
  | setOperationDone (cluster : Nat)
  | sort (ring : Nat)
  | topk (ring : Nat)
  | merge (ring : Nat)
  | intersect (ring : Nat)
  | segreduce (ring : Nat)
  -- attention
  | attend (ring : Nat)
  | verify (ring : Nat)
  | accept (ring : Nat)
  | attnCommit (ring seq cycles : Nat)
  | attnTimeout (ring seq : Nat)
  -- paging
  | pftW0Write (fn frame : Nat) (v : W64)
  | pftCheckDone
  | seqRegister (ring : Nat)
  | seqExtend (ring : Nat)
  | seqFork (ring : Nat)
  | seqRelease (ring : Nat)
  | seqPreempt (ring : Nat)
  | seqSwapOut (ring : Nat)
  | seqSwapIn (ring : Nat) (image : HostRd)
  | seqRemap (ring : Nat)
  | seqStart (ring seq : Nat) (image : HostRd)
  | holdEnd (seqId : Nat) (image : HostRd)
  | seqFrameTimeout (ring seq : Nat)
  | swapImageFlushed (ring seq : Nat) (image : HostRd)
  -- Sentinel
  | stnCtrlEnable (v : W32)
  | stnCtrlDisable (v : W32)
  | sentinelRunning
  | sentinelDoorbell (fn off bits : Nat) (v : W64)
  | windowFetchDone (chan : Nat) (rd : HostRd)
  | modelDone (chan latency : Nat)
  | modelFault (chan : Nat) (kind : FaultKind) (offset : Nat)
  | staleTimeout (chan : Nat)
  | sentConfigure (ring : Nat)
  | sentEnable (ring : Nat)
  | sentDisable (ring : Nat)
  | sentReset (ring : Nat)
  | sentAck (ring : Nat)
  | sentLoadModel (ring : Nat) (obj : ObjFacts)
  | sentUnloadModel (ring : Nat)
  | sentReadState (ring : Nat)
  -- codec
  | codecRegister (ring : Nat)
  | codecDecode (ring : Nat)
  | codecEncode (ring : Nat)
  | codecFlush (ring : Nat)
  | codecUnregister (ring : Nat)
  | pictureStart (shape : PicShape)
  | pictureDone (res : PicResult)
  | pictureTimeout
  -- host interface
  | pcieLinkUp (width speed : Nat)
  | pcieLinkDown
  | perstN (low : Bool)
  | vfFlr (v : Nat)
  | pfFlr
  | servingFunctionChange (numVfs : Nat) (enable : Bool)
  | submissionTailDoorbell (fn off bits : Nat) (v : W64)
  | completionHeadDoorbell (fn off bits : Nat) (v : W64)
  | descriptorFetch (ring count : Nat) (rd : HostRd)
  | holdoffExpiry (ring : Nat)
  | dmaCopy (ring : Nat)
  | dmaFill (ring : Nat)
  | dmaDone (ring seq : Nat) (rd : HostRd) (ecc : Ecc) (byte : Nat)
  | fence (ring : Nat)
  | abort (ring : Nat) (rd : HostRd)
  | ringCreate (ring : Nat)
  | ringDelete (ring : Nat)
  | mgmtRingEnable (v : W64)
  | ctxRingEnable (fn ctx : Nat) (v : W64)
  | versionSelectWrite (fn ctx : Nat) (v : W32)
  | patrolRead (chan : Nat) (ecc : Ecc)
  -- contexts
  | partDefine (ring : Nat)
  | partSchedule (ring : Nat)
  | ctxGrant (ring : Nat)
  | ctxScrub (ring : Nat)
  | provReport (ring : Nat)
  | provCert (ring : Nat)
  | keyInstall (ring : Nat)
  | keyRemove (ring : Nat)
  | weightImport (ring : Nat)
  | ctxDebug (ring : Nat)
  | sliceExpiry (part : Nat)
  | tenantSwitch (part time : Nat)
  | contextBecomesCurrent (part : Nat)
  | rngFail
  -- power
  | powerSample (m : PowerMeas)
  | peakProjection (worstUJ : Nat)
  | supplyWarn (voltage10mV : Nat)
  | holdRelease (voltage10mV micros : Nat)
  | tjHighStep (cluster temp : Nat)
  | tjTrip (sensor : Nat)
  | inletShutdown
  | airflowEstimate (a : AirFacts)
  | airStopCountdown
  | voltageLoopUpdate (cluster marginMV slackMHz : Nat)
  | droopDetect (cluster marginMV clocks : Nat)
  | modeChangeCluster (cluster : Nat)
  | hint (ring : Nat)
  | hintExpiry (ring seq : Nat)
  | energyAccumulate (parts ctxs : List Nat)
  | powerMode (ring : Nat)
  | energySnapshot (ring : Nat)
  -- Olper
  | portTraining (port : Nat) (lanes : BitVec 8) (ringsLocked : Bool)
  | trainingRetry (port : Nat) (lanes : BitVec 8)
  | hello (port : Nat) (h : Hello)
  | proof (port : Nat) (p : BitVec 256)
  | lightRegained (port : Nat) (lanes : BitVec 8)
  | idle (port : Nat) (h : OlpHdr)
  | replayTimeout (port : Nat)
  | laneDrop (port lane : Nat)
  | data (port : Nat) (h : OlpHdr) (win offset : Nat) (bytes : List Byte)
  | barrier (port : Nat) (h : OlpHdr) (ring bar origin : Nat) (gen : W32)
  | digest (port : Nat) (h : OlpHdr) (chan block : Nat) (skip : Bool) (d : W64)
  | heartbeatSend
  | heartbeat (h : OlpHdr) (b : Heart)
  | partnerLost
  | standbyWaitTimeout
  | swapTimeout
  | revertTimer
  | leavingTimeout
  | swapDue
  | swapDeferred
  | pairConfig (ring : Nat)
  | roleSwap (ring : Nat)
  | isolate (ring : Nat)
  | rejoin (ring : Nat)
  | cascadeConfig (ring : Nat)
  | cascadeDegraded (port : Nat)
  | windowOpen (ring : Nat)
  | windowClose (ring : Nat)
  | linkRetrain (ring : Nat)
  | verdictFrameSend
  | claimFrameIdle
  | mergeFrame (input : Nat) (bytes : List Byte)
  | mergeAgeOut
  | mergeEpochReset
  -- management
  | trayLatchN
  | entdaa (addr : Nat)
  | pldmSensorRead (sensor : Nat)
  | platformEventMessage
  | getState
  | setCap (watts : Nat) (malformed : Bool)
  | mctpArm (r : ArmReq) (malformed : Bool)
  | mctpDisarm (changeId : W32) (malformed : Bool)
  | setLock (lock : Nat)
  | getEvents (first count : Nat)
  | link (h : RelayHdr) (slot : Nat) (serial : W64)
  | linkSend
  | managerTimeout
  | status (h : RelayHdr) (st : RelayStatus)
  | statusBroadcast
  | command (h : RelayHdr) (code : Nat) (passed : Bool)
  | response (h : RelayHdr) (result : Nat) (ports : List W32) (peers : List W64)
  | imgOffer (h : RelayHdr) (imageId : W32) (offset : Nat) (bytes : List Byte)
  | imgData (h : RelayHdr) (imageId : W32) (offset : Nat) (bytes : List Byte) (a : AonFacts) (f : StartFacts)
  | imgAck (h : RelayHdr) (imageId : W32) (index : Nat)
  | imgEnd (h : RelayHdr) (imageId : W32) (abandoned : Bool)
  | chunkResend (index : Nat)
  | offerPartialDiscard
  | recoveryImageSend (slot : Nat)
  | imageInject (ring : Nat) (rd : HostRd)
  | arm (ring : Nat) (rd : HostRd)
  | disarm (ring : Nat)
  | ownerLock (ring : Nat)
  | svnCommit (ring : Nat)
  | eventRead (ring : Nat)
  | armExpiry
  | actStrobe (a : AonFacts) (f : StartFacts)
  | reserveOk (high : Bool)
  | accelerometerShock (milliG : Nat) (roll pitch : Int)
  | movingExpiry
  -- Cast and monitors
  | castN (lowNanos : Nat)
  | castFreeze
  | castRelease
  | castAddr (v : BitVec 48)
  | castData
  | extest (cells : BitVec 32)
  | idcode
  | samplePreload (cells : BitVec 32)
  | bypass (code : BitVec 8)
  | tapReset
  | monCntSelWrite (i : Nat) (v : W32)
  | clearAll
  | countEn (on : Bool)
  | histFreeze (on : Bool)
  | compat (v : BitVec 16)
  | monBwWindowWrite (v : W32)
  | bwWindowEnd
  | monHistCfgWrite (h : Nat) (v : W64)
  | traceRecord
  -- later rows of the table
  | latchClosed (f : StartFacts)
  | mergeLinePin (input line : Nat) (high : Bool)
  | cascadeTakeoverFlag (port : Nat) (h : OlpHdr)
  | dmaTimeout (ring seq written : Nat)
  | aonPowerLoss
  | freshDraw
  | digestBlockTimeout (chan block : Nat)
  | restartCondition (f : StartFacts)
  | msixUnmask (fn vector : Nat)
  deriving DecidableEq, Repr

end Sys2Proof
end

