-- ==== Sys2Proof/Decode.lean ====
section
/-! DEFINITION. The command that a word spells. spec/opcode_table.json gives no row of this hardware a bit: its commands
come from outside on many interfaces, and none is a word of one encoding. So no word spells a command. -/

namespace Sys2Proof

/-- The command that the table's bits spell: none, since the table gives no row a bit. -/
def decodeTableWord (_nbits _w : Nat) : Option Instr := none

end Sys2Proof
end

