-- ==== Sys2Proof/Config.lean ====
section
/-! DEFINITION. What one module fixes and no rule states: its fuses, the results of the published cryptographic
standards, the draws of its random source, and the values that the manual leaves open. Every constant is opaque:
nothing can prove a value of one (notes/assumptions/5.md, 6.md, 7.md and 12.md). -/

namespace Sys2Proof.Config

/-! ## Fuses (R2, R30, R282, R343) -/

/-- GLB_SERIAL. -/
opaque serial : W64
/-- KEY_CLASS, the customer link key class. -/
opaque keyClass : BitVec 16
/-- Bits [5:1] of SEC_FUSE_STATE that the fuse block shows. -/
opaque fuseValid : BitVec 5
/-- DEBUG_CLOSED: the production debug fuse (R278). -/
opaque debugClosed : Bool
/-- The fused rollback floor (R282, SEC_FW_MIN_SVN). -/
opaque fuseMinSvn : W32
/-- The fused device secret from which memory keys derive (R273). -/
opaque deviceSecret : BitVec 256
/-- The fused link key of the key class (R313). -/
opaque linkKey : BitVec 256
/-- The fused firmware root digest (R355). -/
opaque fwRoot : BitVec 512
/-- The key that authenticates Relay frames (R352). -/
opaque relayKey : BitVec 256

/-- LENGTH and bytes of the image written at manufacture (R354). -/
opaque factoryLength : Nat
opaque factoryByte : Nat → Byte

/-- Norurn's manufacturer identity in the TAP's IDCODE (R380). -/
opaque jedecId : BitVec 11

/-- R_REF of the calibration region, in units of 0.0001 K/W (R303). -/
opaque rRef : Nat
/-- C_HS of the calibration region, in mW·s/K (R303). -/
opaque cHs : Int

/-! ## Published cryptography (R5 of the standards table: FIPS 197, 202, 203, 205, SP 800-38D) -/

/-- SHAKE256 with a 64-byte output (FIPS 202); bits [7:0] are the first byte. -/
opaque shake256 : List Byte → BitVec 512
/-- AES-256-GCM encryption without its tag: key, IV, plaintext. -/
opaque gcmEncrypt : BitVec 256 → List Byte → List Byte → List Byte
/-- AES-256-GCM decryption without the tag's check: key, IV, ciphertext. -/
opaque gcmDecrypt : BitVec 256 → List Byte → List Byte → List Byte
/-- The AES-256-GCM tag: key, IV, associated data, ciphertext. -/
opaque gcmTag : BitVec 256 → List Byte → List Byte → List Byte → BitVec 128
/-- ML-KEM-1024 decapsulation under the module's fused KEM seed (FIPS 203). -/
opaque kemDecaps : List Byte → BitVec 256
/-- HKDF or another key derivation that the manual names: a key and a context string. -/
opaque kdf : BitVec 256 → List Byte → BitVec 256
/-- HashSLH-DSA signature (SLH-DSA-SHAKE-256f, SHAKE256 pre-hash) under the module's fused attestation seeds, of a message
with the hedging randomness (FIPS 205); bits [7:0] are the first byte. -/
opaque slhSign : List Byte → BitVec 256 → BitVec 398848
/-- The attestation public key PK. -/
opaque attestPk : BitVec 512
/-- The ML-KEM-1024 encapsulation key ek. -/
opaque kemEk : BitVec 12544
/-- Norurn's signature in the device certificate (R281). -/
opaque certSig : BitVec 238336
/-- The fused die identity. -/
opaque dieId : BitVec 128
/-- SLH-DSA-SHAKE-256s verification: the public key, the message and the signature (R355). -/
opaque slhVerify : List Byte → List Byte → List Byte → Bool
/-- HMAC or MAC of R313's PROOF: key class secret, both nonces and serials. -/
opaque linkProof : BitVec 256 → List Byte → BitVec 256

/-! ## The random source (R274) -/

/-- The n-th draw of the random source since manufacture. -/
opaque draw : Nat → BitVec 256

/-! ## Free values: what the manual leaves open -/

/-- The n-th byte whose value the manual leaves open. -/
opaque freeByte : Nat → Byte
/-- The n-th word whose value the manual leaves open. -/
opaque freeWord : Nat → W64
/-- The n-th choice the manual leaves open. -/
opaque freeBool : Nat → Bool
/-- The noise that a DRAM byte decrypts to under a key other than the one it was written under: address, key in force,
key it was written under, stored byte. -/
opaque dramNoise : Nat → Nat → Nat → Byte → Byte

/-! ## Sentinel models (R197) -/

/-- The score of a model: the object's digest, the channel's SIGNALS, the converted values as the staging slot holds them and
the state block. -/
opaque modelScore : BitVec 512 → Nat → List Byte → List Byte → W32
/-- The bytes of the state block that it leaves, of the same. -/
opaque modelState : BitVec 512 → Nat → List Byte → List Byte → Nat → Byte

/-! ## Vector Unit approximations (R47, Table 5) -/

/-- exp at an input that Table 6 does not list. -/
opaque vuExp : W32 → W32
/-- recip at an input that Table 6 does not list. -/
opaque vuRecip : W32 → W32
/-- rsqrt at an input that Table 6 does not list. -/
opaque vuRsqrt : W32 → W32

end Sys2Proof.Config
end

