-- ==== Sys2Proof/Machine/Flags.lean ====
section
/-! DEFINITION. Number formats, rounding, saturation, accumulation and the arithmetic flags
(Number Formats and Arithmetic Behaviour, R31 to R49). Values are exact until a rule rounds them. -/

namespace Sys2Proof.Machine

/-- The arithmetic flags byte of R49. -/
abbrev AFlags := BitVec 8

/-- INVALID: a NaN was produced from operands that are none, or met an integer or MX conversion. -/
def flInvalid : AFlags := 0x01
/-- NAN_INPUT: a NaN was read as an operand from memory. -/
def flNanInput : AFlags := 0x02
/-- FP_OVERFLOW. -/
def flFpOverflow : AFlags := 0x04
/-- INT_SAT. -/
def flIntSat : AFlags := 0x08
/-- UNDERFLOW_FLUSH. -/
def flUnderflow : AFlags := 0x10
/-- SCALE_NAN. -/
def flScaleNan : AFlags := 0x20
/-- DIV_ZERO. -/
def flDivZero : AFlags := 0x40

/-- An exact value: `fin neg mag exp` is `± mag · 2 ^ exp`; `mag = 0` is a signed zero. -/
inductive Num where
  | nan
  | inf (neg : Bool)
  | fin (neg : Bool) (mag : Nat) (exp : Int)
  deriving DecidableEq, Repr

/-- A value and the flags its computation raised. -/
abbrev Flagged := Num × AFlags

/-- Positive zero. -/
def Num.zero : Num := .fin false 0 0

/-- The exact value of an integer. -/
def Num.ofInt (i : Int) : Num := .fin (decide (i < 0)) i.natAbs 0

/-- `mag · 2 ^ exp` as an integer multiple of `2 ^ e`, where `e ≤ exp`. -/
def scaleTo (mag : Nat) (exp e : Int) : Nat := mag * 2 ^ (exp - e).toNat

/-- The signed integer that counts multiples of `2 ^ e`. -/
def signedAt (neg : Bool) (mag : Nat) (exp e : Int) : Int :=
  if neg then - (scaleTo mag exp e : Int) else (scaleTo mag exp e : Int)

/-- The exponent of the leading bit of a nonzero magnitude. -/
def topExp (mag : Nat) (exp : Int) : Int := (Nat.log2 mag : Int) + exp

/-- Is `m1 · 2 ^ e1 < m2 · 2 ^ e2`? -/
def magLt (m1 : Nat) (e1 : Int) (m2 : Nat) (e2 : Int) : Bool :=
  decide (scaleTo m1 e1 (min e1 e2) < scaleTo m2 e2 (min e1 e2))

/-- Order of two values, −0 below +0 (R47); NaN is not ordered here. -/
def numLt : Num → Num → Bool
  | .nan, _ => false
  | _, .nan => false
  | .inf a, .inf b => a && !b
  | .inf a, .fin _ _ _ => a
  | .fin _ _ _, .inf b => !b
  | .fin n1 m1 e1, .fin n2 m2 e2 =>
    match n1, n2 with
    | true, false => true
    | false, true => false
    | false, false => magLt m1 e1 m2 e2
    | true, true => magLt m2 e2 m1 e1

/-- Exact product (R43): 0 × ∞ is a NaN and sets INVALID. -/
def mulExact : Num → Num → Flagged
  | .nan, _ => (.nan, 0)
  | _, .nan => (.nan, 0)
  | .inf a, .inf b => (.inf (a != b), 0)
  | .inf a, .fin b m _ => if m = 0 then (.nan, flInvalid) else (.inf (a != b), 0)
  | .fin a m _, .inf b => if m = 0 then (.nan, flInvalid) else (.inf (a != b), 0)
  | .fin a m e, .fin b n f => (.fin (a != b) (m * n) (e + f), 0)

/-- Exact sum (R43): ∞ + (−∞) is a NaN and sets INVALID; an exact zero sum is +0 unless both addends are −0. -/
def addExact : Num → Num → Flagged
  | .nan, _ => (.nan, 0)
  | _, .nan => (.nan, 0)
  | .inf a, .inf b => if a = b then (.inf a, 0) else (.nan, flInvalid)
  | .inf a, .fin _ _ _ => (.inf a, 0)
  | .fin _ _ _, .inf b => (.inf b, 0)
  | .fin a m e, .fin b n f =>
    let lo := min e f
    let t := signedAt a m e lo + signedAt b n f lo
    if t = 0 then (.fin (a && b) 0 0, 0) else (.fin (decide (t < 0)) t.natAbs lo, 0)

/-- Change of sign. -/
def Num.neg : Num → Num
  | .nan => .nan
  | .inf a => .inf (!a)
  | .fin a m e => .fin (!a) m e

/-- A flagged value passed through a further flagged step. -/
def andThen (x : Flagged) (f : Num → Flagged) : Flagged :=
  let y := f x.1
  (y.1, x.2 ||| y.2)

/-! ## Rounding (R40, R41) -/

/-- `mag / 2 ^ k` rounded to nearest, ties to even. -/
def rneShift (mag k : Nat) : Nat :=
  let q := mag / 2 ^ k
  let r := mag % 2 ^ k
  if k = 0 then mag
  else if 2 * r > 2 ^ k || (2 * r == 2 ^ k && q % 2 == 1) then q + 1 else q

/-- A magnitude rounded to `p` significant bits, the exponent unbounded. -/
def roundSig (p mag : Nat) (exp : Int) : Nat × Int :=
  let bits := Nat.log2 mag + 1
  if mag = 0 then (0, 0)
  else if bits ≤ p then (mag, exp)
  else (rneShift mag (bits - p), exp + ((bits - p : Nat) : Int))

/-- Rounding of R41 to a format of `p` significant bits with FP32's exponent range: ties to even, then a magnitude
below 2^−126 is written as a signed zero with UNDERFLOW_FLUSH, and one of 2^128 or more becomes infinite. -/
def roundFtz (p : Nat) : Num → Flagged
  | .nan => (.nan, 0)
  | .inf a => (.inf a, 0)
  | .fin a m e =>
    if m = 0 then (.fin a 0 0, 0)
    else
      let r := roundSig p m e
      if topExp r.1 r.2 < -126 then (.fin a 0 0, flUnderflow)
      else if topExp r.1 r.2 > 127 then (.inf a, flFpOverflow)
      else (.fin a r.1 r.2, 0)

/-- FP32 rounding (R41). -/
def roundF32 (x : Num) : Flagged := roundFtz 24 x

/-- BF16 rounding (R40, R41). -/
def roundBf16 (x : Num) : Flagged := roundFtz 8 x

/-- The significand of `mag · 2 ^ exp` with exactly `p` bits, for a value that fits `p` bits. -/
def normSig (p mag : Nat) (exp : Int) : Nat × Int :=
  let bits := Nat.log2 mag + 1
  if bits ≤ p then (mag * 2 ^ (p - bits), exp - ((p - bits : Nat) : Int))
  else (mag / 2 ^ (bits - p), exp + ((bits - p : Nat) : Int))

/-- The FP32 encoding of a value that R41 has rounded; a NaN is canonical (R35). -/
def encodeF32 : Num → W32
  | .nan => 0x7FC00000
  | .inf a => if a then 0xFF800000 else 0x7F800000
  | .fin a m e =>
    if m = 0 then (if a then 0x80000000 else 0)
    else
      let n := normSig 24 m e
      BitVec.ofNat 32 ((if a then 2 ^ 31 else 0) + (n.2 + 150).toNat * 2 ^ 23 + (n.1 - 2 ^ 23))

/-- The value of an FP32 word, subnormals read as zero with their sign (R41). -/
def decodeF32 (w : W32) : Num :=
  let neg := w.msb
  let ex : Nat := w.toNat / 2 ^ 23 % 256
  let fr : Nat := w.toNat % 2 ^ 23
  if ex = 255 then (if fr = 0 then .inf neg else .nan)
  else if ex = 0 then .fin neg 0 0
  else .fin neg (2 ^ 23 + fr) ((ex : Int) - 150)

/-- Is the FP32 word a NaN? -/
def isNanF32 (w : W32) : Bool := decide (w.toNat % 2 ^ 31 > 0x7F800000)

/-- The value of a BF16 word: the upper half of a binary32 (R40). -/
def decodeBf16 (w : BitVec 16) : Num := decodeF32 (w ++ (0 : BitVec 16))

/-- The BF16 encoding of a value that R40 has rounded. -/
def encodeBf16 (x : Num) : BitVec 16 := (encodeF32 x).extractLsb' 16 16

/-! ## Narrow floating formats (R34, R36, R37, R39) -/

/-- Parameters of a narrow format of Table 2: exponent bits, fraction bits, bias, largest finite magnitude as
`mag · 2 ^ exp`, and the exponent of the largest finite value. -/
structure Mini where
  ebits : Nat
  fbits : Nat
  bias : Int
  maxMag : Nat
  maxExp : Int
  emax : Int
  deriving DecidableEq, Repr

/-- E4M3: largest finite 448. -/
def e4m3 : Mini := ⟨4, 3, 7, 7, 6, 8⟩
/-- E5M2: largest finite 57,344. -/
def e5m2 : Mini := ⟨5, 2, 15, 7, 13, 15⟩
/-- E3M2: largest finite 28. -/
def e3m2 : Mini := ⟨3, 2, 3, 7, 2, 4⟩
/-- E2M3: largest finite 7.5. -/
def e2m3 : Mini := ⟨2, 3, 1, 15, -1, 2⟩
/-- E2M1: largest finite 6. -/
def e2m1 : Mini := ⟨2, 1, 1, 3, 1, 2⟩

/-- Value of a code of a narrow format with neither infinity nor NaN; subnormals are honoured (R34). -/
def Mini.value (f : Mini) (code : Nat) : Num :=
  let neg := decide (code / 2 ^ (f.ebits + f.fbits) % 2 = 1)
  let ex : Nat := code / 2 ^ f.fbits % 2 ^ f.ebits
  let fr : Nat := code % 2 ^ f.fbits
  if ex = 0 then .fin neg fr (1 - f.bias - (f.fbits : Int))
  else .fin neg (2 ^ f.fbits + fr) ((ex : Int) - f.bias - (f.fbits : Int))

/-- Value of an E4M3 byte: S.1111.111 is NaN (R34). -/
def decodeE4m3 (b : Byte) : Num := if b.toNat % 128 = 127 then .nan else e4m3.value b.toNat

/-- Value of an E5M2 byte: S.11111.00 is infinite, the rest of that exponent NaN (R34). -/
def decodeE5m2 (b : Byte) : Num :=
  if b.toNat % 128 / 4 = 31 then (if b.toNat % 4 = 0 then .inf b.msb else .nan) else e5m2.value b.toNat

/-- The code of a magnitude not above the format's largest finite value, rounded to nearest with ties to even. -/
def Mini.encodeMag (f : Mini) (mag : Nat) (exp : Int) : Nat :=
  if mag = 0 then 0
  else
    let top := max (topExp mag exp) (1 - f.bias)
    let q := top - (f.fbits : Int)
    let sig := if q ≤ exp then scaleTo mag exp q else rneShift mag (q - exp).toNat
    (top + f.bias - 1).toNat * 2 ^ f.fbits + sig

/-- The sign bit of a narrow code. -/
def Mini.signBit (f : Mini) (neg : Bool) : Nat := if neg then 2 ^ (f.ebits + f.fbits) else 0

/-- The code of the largest finite value. -/
def Mini.maxCode (f : Mini) : Nat := f.encodeMag f.maxMag f.maxExp

/-- Conversion to E4M3 or E5M2 (R36): overflow is decided on the exact value, before rounding. -/
def toFp8 (f : Mini) (isE4 sat : Bool) : Num → Byte × AFlags
  | .nan => (if isE4 then 0x7F else 0x7E, 0)
  | .inf a =>
    if sat then (BitVec.ofNat 8 (f.signBit a + f.maxCode), flFpOverflow)
    else if isE4 then (0x7F, flFpOverflow)
    else (if a then 0xFC else 0x7C, flFpOverflow)
  | .fin a m e =>
    if magLt f.maxMag f.maxExp m e then
      if sat then (BitVec.ofNat 8 (f.signBit a + f.maxCode), flFpOverflow)
      else if isE4 then (0x7F, flFpOverflow)
      else (if a then 0xFC else 0x7C, flFpOverflow)
    else
      let c := f.encodeMag m e
      (BitVec.ofNat 8 (f.signBit a + c), if c = 0 && m != 0 then flUnderflow else 0)

/-- Conversion to BF16 (R40, R41): the SAT bit has no effect. -/
def toBf16 (x : Num) : BitVec 16 × AFlags :=
  let r := roundBf16 x
  (encodeBf16 r.1, r.2)

/-- Conversion to FP32 (R41). -/
def toF32 (x : Num) : W32 × AFlags :=
  let r := roundF32 x
  (encodeF32 r.1, r.2)

/-- `mag · 2 ^ exp` rounded to an integer magnitude, ties to even (R33). -/
def roundInt (mag : Nat) (exp : Int) : Nat :=
  if 0 ≤ exp then scaleTo mag exp 0 else rneShift mag (-exp).toNat

/-- Conversion to an integer format with the range `lo .. hi` (R33). An infinity sets FP_OVERFLOW (R33) and INVALID (Table 7:
an infinity that met an integer conversion). -/
def toIntSat (lo hi : Int) : Num → Int × AFlags
  | .nan => (0, flInvalid)
  | .inf a => (if a then lo else hi, flFpOverflow ||| flInvalid)
  | .fin a m e =>
    let v : Int := if a then - (roundInt m e : Int) else roundInt m e
    if v < lo then (lo, flFpOverflow) else if v > hi then (hi, flFpOverflow) else (v, 0)

/-! ## Format codes and elements (R31, R32, R37, R38) -/

/-- The format codes of Table 1. -/
inductive Fmt where
  | int8 | uint8 | int4 | uint4 | e4m3 | e5m2 | mx8e4 | mx8e5 | mx6e3 | mx6e2 | mx4 | mxint8 | bf16 | fp32 | int32
  deriving DecidableEq, Repr

/-- The format that a code names; none for a code not listed in Table 1. -/
def fmtOf (code : Nat) : Option Fmt :=
  match code with
  | 0x01 => some .int8
  | 0x02 => some .uint8
  | 0x03 => some .int4
  | 0x04 => some .uint4
  | 0x08 => some .e4m3
  | 0x09 => some .e5m2
  | 0x10 => some .mx8e4
  | 0x11 => some .mx8e5
  | 0x12 => some .mx6e3
  | 0x13 => some .mx6e2
  | 0x14 => some .mx4
  | 0x15 => some .mxint8
  | 0x18 => some .bf16
  | 0x19 => some .fp32
  | 0x1A => some .int32
  | _ => none

/-- Is a format code admitted by a descriptor's format version (R31)? Codes 0x10 to 0x15 need version 2. -/
def fmtAdmitted (version code : Nat) : Bool :=
  (fmtOf code).isSome && (decide (version ≥ 2) || !(decide (0x10 ≤ code) && decide (code ≤ 0x15)))

/-- Element bits of Table 1. -/
def Fmt.bits : Fmt → Nat
  | .int8 => 8
  | .uint8 => 8
  | .int4 => 4
  | .uint4 => 4
  | .e4m3 => 8
  | .e5m2 => 8
  | .mx8e4 => 8
  | .mx8e5 => 8
  | .mx6e3 => 6
  | .mx6e2 => 6
  | .mx4 => 4
  | .mxint8 => 8
  | .bf16 => 16
  | .fp32 => 32
  | .int32 => 32

/-- Does the format carry an E8M0 scale per 32 elements? -/
def Fmt.isMx : Fmt → Bool
  | .mx8e4 | .mx8e5 | .mx6e3 | .mx6e2 | .mx4 | .mxint8 => true
  | _ => false

/-- Is the format an integer format? -/
def Fmt.isInt : Fmt → Bool
  | .int8 | .uint8 | .int4 | .uint4 | .int32 => true
  | _ => false

/-- Two's complement value of the low `n` bits. -/
def signedOf (n code : Nat) : Int :=
  let v := code % 2 ^ n
  if v ≥ 2 ^ (n - 1) then (v : Int) - (2 ^ n : Nat) else v

/-- The value of an element code, block scale not applied (R32, R34, R37, R40). -/
def Fmt.value (f : Fmt) (code : Nat) : Num :=
  match f with
  | .int8 => .ofInt (signedOf 8 code)
  | .uint8 => .ofInt (code % 256)
  | .int4 => .ofInt (signedOf 4 code)
  | .uint4 => .ofInt (code % 16)
  | .e4m3 => decodeE4m3 (BitVec.ofNat 8 code)
  | .e5m2 => decodeE5m2 (BitVec.ofNat 8 code)
  | .mx8e4 => decodeE4m3 (BitVec.ofNat 8 code)
  | .mx8e5 => decodeE5m2 (BitVec.ofNat 8 code)
  | .mx6e3 => Sys2Proof.Machine.e3m2.value (code % 64)
  | .mx6e2 => Sys2Proof.Machine.e2m3.value (code % 64)
  | .mx4 => Sys2Proof.Machine.e2m1.value (code % 16)
  | .mxint8 =>
    let i := signedOf 8 code
    .fin (decide (i < 0)) i.natAbs (-6)
  | .bf16 => decodeBf16 (BitVec.ofNat 16 code)
  | .fp32 => decodeF32 (BitVec.ofNat 32 code)
  | .int32 => .ofInt (signedOf 32 code)

/-- A little-endian number in a list of bytes (R31). -/
def leNat : List Byte → Nat
  | [] => 0
  | b :: bs => b.toNat + 256 * leNat bs

/-- The `n` low bytes of a number, little-endian. -/
def leBytes : Nat → Nat → List Byte
  | 0, _ => []
  | n + 1, v => BitVec.ofNat 8 v :: leBytes n (v / 256)

/-- Element `i`'s code in a packed array: element `i` occupies bits `[bits·i + bits − 1 : bits·i]` of the
little-endian array (R32, R38, Table 3). -/
def elemCode (f : Fmt) (bytes : List Byte) (i : Nat) : Nat :=
  leNat ((bytes.drop (f.bits * i / 8)).take 5) / 2 ^ (f.bits * i % 8) % 2 ^ f.bits

/-- Element `i` of a packed array, as a flagged operand: a NaN read from memory sets NAN_INPUT (R35, R49). -/
def readElem (f : Fmt) (bytes : List Byte) (i : Nat) : Flagged :=
  let v := f.value (elemCode f bytes i)
  (v, if v = .nan then flNanInput else 0)

/-- An E8M0 block scale: 2^(e − 127); 0xFF marks the block NaN and sets SCALE_NAN (R37, R49). -/
def e8m0 (b : Byte) : Flagged :=
  if b = 0xFF then (.nan, flScaleNan) else (.fin false 1 ((b.toNat : Int) - 127), 0)

/-! ## Conversion to MX blocks (R39) -/

/-- The element parameters of an MX format; MXINT8 apart. -/
def Fmt.mini : Fmt → Mini
  | .mx8e4 => Sys2Proof.Machine.e4m3
  | .mx8e5 => Sys2Proof.Machine.e5m2
  | .mx6e3 => Sys2Proof.Machine.e3m2
  | .mx6e2 => Sys2Proof.Machine.e2m3
  | .mx4 => Sys2Proof.Machine.e2m1
  | .e4m3 => Sys2Proof.Machine.e4m3
  | .e5m2 => Sys2Proof.Machine.e5m2
  | _ => ⟨8, 0, 0, 0, 0, 0⟩

/-- The leading exponent of the largest magnitude among finite values; none when all are zero. -/
def amaxExp : List Num → Option Int
  | [] => none
  | .fin _ m e :: xs =>
    if m = 0 then amaxExp xs
    else match amaxExp xs with
      | none => some (topExp m e)
      | some t => some (max t (topExp m e))
  | _ :: xs => amaxExp xs

/-- Is the value a NaN or an infinity? -/
def Num.special : Num → Bool
  | .nan => true
  | .inf _ => true
  | .fin _ _ _ => false

/-- One element of step 4 of R39: divided by the scale `2 ^ s`, rounded, saturated without a flag. -/
def mxElem (f : Fmt) (s : Int) : Num → Nat
  | .fin a m e =>
    if f = .mxint8 then
      let q := min (roundInt m (e - s + 6)) 127
      if a then (256 - q) % 256 else q
    else
      let p := f.mini
      let mag := if magLt p.maxMag p.maxExp m (e - s) then p.maxCode else min (p.encodeMag m (e - s)) p.maxCode
      p.signBit a + mag
  | _ => 0

/-- Conversion of 32 FP32 values to an MX block (R39): scale byte, element codes and flags. -/
def toMxBlock (f : Fmt) (xs : List Num) : Byte × List Nat × AFlags :=
  if xs.any Num.special then (0xFF, xs.map fun _ => 0, flInvalid)
  else
    match amaxExp xs with
    | none => (0x7F, xs.map fun _ => 0, 0)
    | some t =>
      let emax : Int := if f = .mxint8 then 0 else f.mini.emax
      let s := max (-127) (min 127 (t - emax))
      (BitVec.ofNat 8 (s + 127).toNat, xs.map (mxElem f s), 0)

/-! ## Operand pairs (R42) -/

/-- The accumulator class of a pair of operand formats (R42, Table 4). -/
inductive PairClass where
  | integer | grouped | single
  deriving DecidableEq, Repr

/-- The class of the pair, none when the pair is not built (R42). -/
def pairClass (a b : Fmt) : Option PairClass :=
  let narrowInt := fun f : Fmt => f = .int8 || f = .uint8 || f = .int4 || f = .uint4
  let fp8 := fun f : Fmt => f = .e4m3 || f = .e5m2
  if narrowInt a && narrowInt b then some .integer
  else if fp8 a && fp8 b then some .grouped
  else if a.isMx && b.isMx then some .grouped
  else if (a = .bf16 && (b = .bf16 || fp8 b)) || (b = .bf16 && fp8 a) then some .single
  else none

/-- The products' group size of R43. -/
def PairClass.group : PairClass → Nat
  | .integer => 32
  | .grouped => 32
  | .single => 1

/-- The rate class of R50 in MACs per engine per clock. -/
def pairRate (a b : Fmt) : Nat :=
  if a = .bf16 || b = .bf16 then 2304
  else if a.bits = 4 && b.bits = 4 then 18432
  else 9216

/-! ## Accumulation (R43 to R46) -/

/-- The exact sum of the products of a group. DESIGN CHOICE (notes/assumptions/23.md): the sum starts from +0, so an exactly
zero sum is +0 also where every product is −0; R43 gives it no sign. -/
def exactDot : List (Num × Num) → Flagged
  | [] => (Num.zero, 0)
  | (a, b) :: ps =>
    let p := mulExact a b
    let r := exactDot ps
    let t := addExact p.1 r.1
    (t.1, p.2 ||| r.2 ||| t.2)

/-- One group of a floating pair: `acc = ftz(rne_fp32(acc + f · s))`, one rounding (R43). -/
def accFloat (acc f : Num) (ps : List (Num × Num)) : Flagged :=
  let s := exactDot ps
  let fs := mulExact f s.1
  let t := addExact acc fs.1
  let r := roundF32 t.1
  (r.1, s.2 ||| fs.2 ||| t.2 ||| r.2)

/-- Saturation to INT32 (R45). -/
def clampInt32 (i : Int) : Int × AFlags :=
  if i > 2147483647 then (2147483647, flIntSat)
  else if i < -2147483648 then (-2147483648, flIntSat)
  else (i, 0)

/-- One group of an integer pair: `acc = clamp_int32(acc + s)` (R43, R45). -/
def accInt (acc : Int) (ps : List (Int × Int)) : Int × AFlags :=
  clampInt32 (acc + (ps.map fun p => p.1 * p.2).sum)

/-- All groups of a floating reduction in ascending order: per group its factor and its products (R43). -/
def accGroups (acc : Flagged) : List (Num × List (Num × Num)) → Flagged
  | [] => acc
  | (f, ps) :: gs => accGroups (andThen acc fun a => accFloat a f ps) gs

/-- All groups of an integer reduction (R43). -/
def accIntGroups (acc : Int × AFlags) : List (List (Int × Int)) → Int × AFlags
  | [] => acc
  | ps :: gs =>
    let r := accInt acc.1 ps
    accIntGroups (r.1, acc.2 ||| r.2) gs

/-- Combination of partial accumulators of a split kernel (R44): one FP32 addition. -/
def combineF32 (a b : Num) : Flagged := andThen (addExact a b) roundF32

/-- Combination of partial accumulators of a split kernel (R44): one saturating INT32 addition. -/
def combineInt (a b : Int) : Int × AFlags := clampInt32 (a + b)

/-- A per-page scale of an integer part (R46): zero, negative, subnormal, infinite or NaN makes what uses it NaN and
sets SCALE_NAN. -/
def pageScale (w : W32) : Flagged :=
  match decodeF32 w with
  | .fin false m e => if m = 0 then (.nan, flScaleNan) else (.fin false m e, 0)
  | _ => (.nan, flScaleNan)

/-! ## The Vector Unit (R47, R48) -/

/-- The zero or the value that the Vector Unit reads from an FP32 word. -/
def vAdd (a b : Num) : Flagged := andThen (addExact a b) roundF32

/-- Subtraction: one rounding. -/
def vSub (a b : Num) : Flagged := vAdd a b.neg

/-- Multiplication: one rounding. -/
def vMul (a b : Num) : Flagged := andThen (mulExact a b) roundF32

/-- Fused multiply-add: one rounding after the exact a × b + c. -/
def vFma (a b c : Num) : Flagged := andThen (andThen (mulExact a b) fun p => addExact p c) roundF32

/-- Maximum: NaN when either operand is NaN, −0 below +0. -/
def vMax (a b : Num) : Num := if a = .nan || b = .nan then .nan else if numLt a b then b else a

/-- Minimum: NaN when either operand is NaN, −0 below +0. -/
def vMin (a b : Num) : Num := if a = .nan || b = .nan then .nan else if numLt b a then b else a

/-- The word in the module's own fixed mapping where it is a finite value within `n` units of the 24th bit of the exact
result, and the nearest FP32 value otherwise (R47, R48, Table 5). The exact result is `± mag · 2 ^ exp` up to one part in
2 ^ 40, which is allowed beside the bound; `mag` has more than 40 bits. -/
def nearExact (neg : Bool) (mag : Nat) (exp : Int) (n : Nat) (w : W32) : Num :=
  let tol := n * 2 ^ (Nat.log2 mag - 23) + mag / 2 ^ 40
  let best := roundSig 24 mag exp
  match decodeF32 w with
  | .fin a m e =>
    if a = neg && !magLt m e (mag - tol) exp && !magLt (mag + tol) exp m e then .fin a m e else .fin neg best.1 best.2
  | _ => .fin neg best.1 best.2

/-- The integer square root of `y < 4 ^ k`, bit by bit from the top. -/
def isqrt (y : Nat) : Nat → Nat → Nat
  | 0, r => r
  | k + 1, r => isqrt y k (if (r + 2 ^ k) * (r + 2 ^ k) ≤ y then r + 2 ^ k else r)

/-- `t` terms of the exponential series from the `k`-th on: `x` and the last term are multiples of 2^−160. -/
def expSeries (x : Nat) : Nat → Nat → Nat → Nat
  | 0, _, _ => 0
  | t + 1, k, last => last + expSeries x t (k + 1) (last * x / 2 ^ 160 / k)

/-- Squared `n` times, in multiples of 2^−160. -/
def squared : Nat → Nat → Nat
  | 0, y => y
  | n + 1, y => squared n (y * y / 2 ^ 160)

/-- e ^ (m · 2 ^ e) for an FP32 magnitude below 89, in multiples of 2^−160, up to one part in 2 ^ 100. -/
def expFixed (m : Nat) (e : Int) : Nat := squared 8 (expSeries (scaleTo m e (-168) / 2 ^ 16) 48 1 (2 ^ 160))

/-- A finite word as it is, and the given value otherwise. -/
def finiteOr (w : W32) (d : Num) : Num :=
  match decodeF32 w with
  | .fin a m e => .fin a m e
  | _ => d

/-- exp (R47, R48, Table 6). Beyond 88.72 and below −87.33 Table 5 gives no bound, and the result is finite. −87.33654…, the logarithm of 2^−126, lies between −11,447,375 and −11,447,376
steps of 2^−17, the spacing of FP32 there. -/
def vExp : Num → Flagged
  | .nan => (.nan, 0)
  | .inf true => (Num.zero, 0)
  | .inf false => (.inf false, 0)
  | .fin a m e =>
    if m = 0 then (.fin false 1 0, 0)
    else if !a && !magLt (m * 10000) e 887229 0 then (.inf false, flFpOverflow)
    else if a && !magLt m e 11447376 (-17) then (Num.zero, flUnderflow)
    else
      let w := Config.vuExp (encodeF32 (.fin a m e))
      if magLt (if a then 8733 else 8872) 0 (m * 100) e then (finiteOr w (.fin false 1 (if a then -126 else 127)), 0)
      else if a then (nearExact false (2 ^ 400 / expFixed m e) (-240) 2 w, 0)
      else (nearExact false (expFixed m e) (-160) 2 w, 0)

/-- recip (R47, R48, Table 6). -/
def vRecip : Num → Flagged
  | .nan => (.nan, 0)
  | .inf a => (.fin a 0 0, 0)
  | .fin a m e =>
    if m = 0 then (.inf a, flDivZero)
    else if magLt 1 126 m e then (.fin a 0 0, flUnderflow)
    else (nearExact a (2 ^ 96 / m) (-96 - e) 1 (Config.vuRecip (encodeF32 (.fin a m e))), 0)

/-- rsqrt (R47, R48, Table 6); the exponent is made even first, so that its half is exact. -/
def vRsqrt : Num → Flagged
  | .nan => (.nan, 0)
  | .inf true => (.nan, flInvalid)
  | .inf false => (Num.zero, 0)
  | .fin a m e =>
    if m = 0 then (.inf a, flDivZero)
    else if a then (.nan, flInvalid)
    else
      let odd := decide (e % 2 = 1)
      let m2 := if odd then 2 * m else m
      let e2 := if odd then e - 1 else e
      (nearExact false (isqrt (2 ^ 192 / m2) 97 0) (-96 - e2 / 2) 1 (Config.vuRsqrt (encodeF32 (.fin a m e))), 0)

/-- Conversion of an FP32 value to one output element code of a format without block scale (R33, R36, R40, R41). -/
def toElem (f : Fmt) (sat : Bool) (x : Num) : Nat × AFlags :=
  match f with
  | .int8 => let r := toIntSat (-128) 127 x; ((r.1 % 256).toNat, r.2)
  | .uint8 => let r := toIntSat 0 255 x; (r.1.toNat, r.2)
  | .int4 => let r := toIntSat (-8) 7 x; ((r.1 % 16).toNat, r.2)
  | .uint4 => let r := toIntSat 0 15 x; (r.1.toNat, r.2)
  | .int32 => let r := toIntSat (-2147483648) 2147483647 x; ((r.1 % 4294967296).toNat, r.2)
  | .e4m3 => let r := toFp8 Sys2Proof.Machine.e4m3 true sat x; (r.1.toNat, r.2)
  | .e5m2 => let r := toFp8 Sys2Proof.Machine.e5m2 false sat x; (r.1.toNat, r.2)
  | .bf16 => let r := toBf16 x; (r.1.toNat, r.2)
  | .fp32 => let r := toF32 x; (r.1.toNat, r.2)
  | _ => (0, 0)

end Sys2Proof.Machine
end

