-- ==== Sys2Proof/Machine/RegMap.lean ====
section
/-! DEFINITION. The BAR0 register map (R28, R30 and the register tables of every chapter): the offset of each
register, the bit range of each field, and the table of access codes and reset values that R6 and R10 explain.
A field whose Reset column is a dash is entered with 0 (notes/assumptions/2.md). -/

namespace Sys2Proof.Machine

/-- The access codes of R6. -/
inductive Acc where
  | ro | rw | w1c | wo | rwl
  deriving DecidableEq, Repr

/-- A bit range `[hi:lo]` of a register. -/
structure Bits where
  hi : Nat
  lo : Nat
  deriving DecidableEq, Repr

/-- One field of a register: its bits, its access code and its reset value (R10). -/
structure Fld where
  bits : Bits
  acc : Acc
  reset : Nat
  deriving DecidableEq, Repr

/-- One row of a register table: the registers at `base + s1 * i + s2 * j`, `i < n1`, `j < n2`, of one width. -/
structure RegRow where
  base : Nat
  s1 : Nat
  n1 : Nat
  s2 : Nat
  n2 : Nat
  wide : Bool
  flds : List Fld
  deriving DecidableEq, Repr

/-! ## Offsets of the registers in BAR0 -/

def GLB_ID : Nat := 0x0
def GLB_KEY_CLASS : Nat := 0x4
def GLB_SERIAL : Nat := 0x8
def GLB_SETUP_LOCK : Nat := 0x10
def GLB_ERR_STATUS : Nat := 0x14
def GLB_ERR_ADDR : Nat := 0x18
def GLB_PWR_DOMAIN_STATUS0 : Nat := 0x20
def GLB_PWR_DOMAIN_STATUS1 : Nat := 0x24
def GLB_PWR_DOMAIN_STATUS2 : Nat := 0x28
def GLB_CLK_DOMAIN_STATUS0 : Nat := 0x30
def GLB_CLK_DOMAIN_STATUS1 : Nat := 0x34
def GLB_CLU_FREQ (c : Nat) : Nat := 0x40 + c * 0x4
def TILE_STATUS (t : Nat) : Nat := 0x1000000 + t * 0x40000
def TILE_KERNEL_TAG (t : Nat) : Nat := 0x1000008 + t * 0x40000
def TILE_CYCLES (t : Nat) : Nat := 0x1000010 + t * 0x40000
def TILE_STALL_QUEUE (t : Nat) : Nat := 0x1000018 + t * 0x40000
def TILE_STALL_BANK (t : Nat) : Nat := 0x1000020 + t * 0x40000
def TILE_ERR_STATUS (t : Nat) : Nat := 0x1000028 + t * 0x40000
def TILE_ERR_INFO (t : Nat) : Nat := 0x100002C + t * 0x40000
def TILE_TRAP_CAUSE (t : Nat) : Nat := 0x1000030 + t * 0x40000
def TILE_ICACHE_MISS (t : Nat) : Nat := 0x1000034 + t * 0x40000
def PE_STATUS (t : Nat) : Nat := 0x1010000 + t * 0x40000
def PE_REQ_COUNT (t : Nat) : Nat := 0x1010008 + t * 0x40000
def PE_RUNAHEAD_STALL (t : Nat) : Nat := 0x1010010 + t * 0x40000
def PE_OUTSTANDING_STALL (t : Nat) : Nat := 0x1010018 + t * 0x40000
def PE_PAD_COUNT (t : Nat) : Nat := 0x1010020 + t * 0x40000
def PE_ERR_STATUS (t : Nat) : Nat := 0x1010030 + t * 0x40000
def PE_ERR_INFO (t : Nat) : Nat := 0x1010038 + t * 0x40000
def PE_QUEUE (t q : Nat) : Nat := 0x1010040 + t * 0x40000 + q * 0x8
def PE_RELIEF_DEC (t : Nat) : Nat := 0x1010100 + t * 0x40000
def PE_RELIEF_ENC (t : Nat) : Nat := 0x1010108 + t * 0x40000
def PE_RELIEF_GROUPS (t : Nat) : Nat := 0x1010110 + t * 0x40000
def BANK_OWNER (t b : Nat) : Nat := 0x1020000 + t * 0x40000 + b * 0x40
def BANK_STATE (t b : Nat) : Nat := 0x1020004 + t * 0x40000 + b * 0x40
def BANK_CONFLICT (t b : Nat) : Nat := 0x1020008 + t * 0x40000 + b * 0x40
def BANK_DMA_WAIT (t b : Nat) : Nat := 0x1020010 + t * 0x40000 + b * 0x40
def BANK_ECC (t b : Nat) : Nat := 0x1020018 + t * 0x40000 + b * 0x40
def BANK_ECC_ADDR (t b : Nat) : Nat := 0x102001C + t * 0x40000 + b * 0x40
def BANK_PWR_POLICY (t : Nat) : Nat := 0x1020400 + t * 0x40000
def ATTN_STATUS (t : Nat) : Nat := 0x1030000 + t * 0x40000
def ATTN_ITEM (t : Nat) : Nat := 0x1030008 + t * 0x40000
def ATTN_PAGES (t : Nat) : Nat := 0x1030010 + t * 0x40000
def ATTN_FALLBACK_PAGES (t : Nat) : Nat := 0x1030018 + t * 0x40000
def ATTN_SKIPPED (t : Nat) : Nat := 0x1030020 + t * 0x40000
def ATTN_MASKED_ROWS (t : Nat) : Nat := 0x1030028 + t * 0x40000
def ATTN_ERR_STATUS (t : Nat) : Nat := 0x103002C + t * 0x40000
def ATTN_ERR_INFO (t : Nat) : Nat := 0x1030030 + t * 0x40000
def HUB_STATUS (c : Nat) : Nat := 0x2000000 + c * 0x100000
def HUB_BARRIER_ARMED (c : Nat) : Nat := 0x2000008 + c * 0x100000
def HUB_STAGGER_LAST (c : Nat) : Nat := 0x2000010 + c * 0x100000
def SET_STATUS (c : Nat) : Nat := 0x2010000 + c * 0x100000
def SET_OPS (c : Nat) : Nat := 0x2010008 + c * 0x100000
def SET_ELEMENTS (c : Nat) : Nat := 0x2010010 + c * 0x100000
def SET_LAST (c : Nat) : Nat := 0x2010018 + c * 0x100000
def SET_FLAGS (c : Nat) : Nat := 0x2010020 + c * 0x100000
def WALK_STATUS (c : Nat) : Nat := 0x2020000 + c * 0x100000
def WALK_HITS (c : Nat) : Nat := 0x2020008 + c * 0x100000
def WALK_MISSES (c : Nat) : Nat := 0x2020010 + c * 0x100000
def WALK_FAULTS (c : Nat) : Nat := 0x2020018 + c * 0x100000
def WALK_FALLBACK_PAGES (c : Nat) : Nat := 0x2020020 + c * 0x100000
def WALK_STORMS (c : Nat) : Nat := 0x2020028 + c * 0x100000
def WALK_SHOOTDOWNS (c : Nat) : Nat := 0x202002C + c * 0x100000
def PFT_W0 (f : Nat) : Nat := 0x3000000 + f * 0x20
def PFT_W1 (f : Nat) : Nat := 0x3000008 + f * 0x20
def PFT_W2 (f : Nat) : Nat := 0x3000010 + f * 0x20
def PFT_W3 (f : Nat) : Nat := 0x3000018 + f * 0x20
def KVP_STATUS : Nat := 0x90000
def KVP_FRAMES : Nat := 0x90008
def KVP_SEQ_SELECT : Nat := 0x90010
def KVP_SEQ_INFO : Nat := 0x90018
def KVP_WALK_POLICY : Nat := 0x90020
def KVP_PREEMPT_COUNT : Nat := 0x90028
def KVP_SWAP_OUT_BYTES : Nat := 0x90030
def KVP_SWAP_IN_BYTES : Nat := 0x90038
def KVP_LAST_PREEMPT : Nat := 0x90040
def KVP_ERR_STATUS : Nat := 0x90044
def KVP_ERR_INFO : Nat := 0x90048
def STN_CTRL : Nat := 0x70000
def STN_STATUS : Nat := 0x70004
def STN_WINDOWS : Nat := 0x70008
def STN_RECORDS : Nat := 0x70010
def STN_DROPPED : Nat := 0x70018
def STN_LAT_MAX : Nat := 0x70020
def STN_LAT_OVER : Nat := 0x70024
def STN_ERR_STATUS : Nat := 0x70028
def STN_ERR_INFO : Nat := 0x7002C
def STN_CHAN_SELECT : Nat := 0x70030
def STN_CHAN_STATUS : Nat := 0x70038
def STN_CHAN_COUNTS : Nat := 0x70040
def STN_CHAN_ESTIMATE : Nat := 0x70048
def STN_CHAN_SCORE : Nat := 0x7004C
def VCD_STATUS : Nat := 0x80000
def VCD_PICTURES : Nat := 0x80008
def VCD_CONCEALED : Nat := 0x80010
def VCD_SKIPPED : Nat := 0x80018
def VCD_ERR_STATUS : Nat := 0x8001C
def VCD_ERR_INFO : Nat := 0x80020
def VCD_STREAM_SELECT : Nat := 0x80024
def VCD_STREAM_INFO : Nat := 0x80028
def VCD_STREAM_CPB : Nat := 0x80030
def MEM_STATUS (m : Nat) : Nat := 0xA0000 + m * 0x1000
def MEM_ECC_COUNT (m : Nat) : Nat := 0xA0008 + m * 0x1000
def MEM_UE_COUNT (m : Nat) : Nat := 0xA0010 + m * 0x1000
def MEM_UE_ADDR (m : Nat) : Nat := 0xA0018 + m * 0x1000
def MEM_PATROL (m : Nat) : Nat := 0xA0020 + m * 0x1000
def MEM_PATROL_DONE (m : Nat) : Nat := 0xA0024 + m * 0x1000
def HIF_STATUS : Nat := 0x10000
def HIF_CTRL : Nat := 0x10008
def HIF_ERR_STATUS : Nat := 0x10010
def HIF_ERR_INFO : Nat := 0x10014
def HIF_MGMT_SQ : Nat := 0x10020
def HIF_MGMT_CQ : Nat := 0x10028
def HIF_CTX_STATUS (c : Nat) : Nat := 0x18000 + c * 0x400
def HIF_VERSION_SUPPORTED (c : Nat) : Nat := 0x18004 + c * 0x400
def HIF_VERSION_SELECT (c : Nat) : Nat := 0x18008 + c * 0x400
def HIF_CTX_SQ0 (c : Nat) : Nat := 0x18010 + c * 0x400
def HIF_CTX_CQ0 (c : Nat) : Nat := 0x18018 + c * 0x400
def HIF_CTX_ERR_STATUS (c : Nat) : Nat := 0x18020 + c * 0x400
def HIF_CTX_ERR_INFO (c : Nat) : Nat := 0x18024 + c * 0x400
def HIF_CTX_HALTED (c i : Nat) : Nat := 0x18030 + c * 0x400 + i * 0x4
def HIF_CTX_MON_CNT (c i : Nat) : Nat := 0x18100 + c * 0x400 + i * 0x8
def SEC_STATUS : Nat := 0x20000
def SEC_FUSE_STATE : Nat := 0x20008
def SEC_FW_MIN_SVN : Nat := 0x20010
def SEC_DEBUG_PERMIT : Nat := 0x20014
def SEC_ERR_STATUS : Nat := 0x20018
def SEC_ERR_INFO : Nat := 0x2001C
def SEC_REPORTS : Nat := 0x20020
def SEC_SWITCH_LAST : Nat := 0x20024
def SEC_SWITCH_MAX : Nat := 0x20028
def SEC_PART (p : Nat) : Nat := 0x20040 + p * 0x4
def SEC_PART_CTX (p : Nat) : Nat := 0x20060 + p * 0x4
def SEC_CTX (c : Nat) : Nat := 0x20100 + c * 0x4
def SEC_TENANCY (c : Nat) : Nat := 0x20200 + c * 0x8
def SEC_GRANT (c i : Nat) : Nat := 0x21000 + c * 0x80 + i * 0x8
def SEC_PROT (c j : Nat) : Nat := 0x22000 + c * 0x80 + j * 0x8
def PWR_MODE : Nat := 0x30000
def PWR_STATUS : Nat := 0x30004
def PWR_THROTTLE_REASON : Nat := 0x30008
def PWR_THROTTLE_SEEN : Nat := 0x3000C
def PWR_THROTTLE_US (r : Nat) : Nat := 0x30010 + r * 0x8
def PWR_THROTTLE_TOTAL_US : Nat := 0x30050
def PWR_INPUT : Nat := 0x30058
def PWR_POWER : Nat := 0x3005C
def PWR_LIMITS : Nat := 0x30060
def PWR_POLICY : Nat := 0x30064
def PWR_SUPPLY_LAST : Nat := 0x30068
def PWR_AIRFLOW : Nat := 0x30070
def PWR_RTH : Nat := 0x30074
def PWR_TEMPS : Nat := 0x30078
def PWR_SHUTDOWN : Nat := 0x3007C
def PWR_TRIP : Nat := 0x30080
def PWR_HINTS : Nat := 0x30088
def PWR_CLU (c : Nat) : Nat := 0x30100 + c * 0x8
def PWR_DROOP (c : Nat) : Nat := 0x30140 + c * 0x8
def PWR_PART_ENERGY (p : Nat) : Nat := 0x30200 + p * 0x8
def PWR_TOTAL_ENERGY : Nat := 0x30240
def PWR_SHARED_ENERGY : Nat := 0x30248
def PWR_CTX_ENERGY (c : Nat) : Nat := 0x30300 + c * 0x8
def OLP_ROLE : Nat := 0x50000
def OLP_CLAIM : Nat := 0x50004
def OLP_PARTNER_CLAIM : Nat := 0x50008
def OLP_PAIR : Nat := 0x5000C
def OLP_CASCADE : Nat := 0x50010
def OLP_HEALTH : Nat := 0x50018
def OLP_SWITCH_LAST : Nat := 0x50020
def OLP_ERR_STATUS : Nat := 0x50028
def OLP_ERR_INFO : Nat := 0x5002C
def OLP_PORT_STATUS (p : Nat) : Nat := 0x50100 + p * 0x40
def OLP_PORT_PEER (p : Nat) : Nat := 0x50108 + p * 0x40
def OLP_PORT_TX_BYTES (p : Nat) : Nat := 0x50110 + p * 0x40
def OLP_PORT_RX_BYTES (p : Nat) : Nat := 0x50118 + p * 0x40
def OLP_PORT_REPLAYS (p : Nat) : Nat := 0x50120 + p * 0x40
def VRD_STATUS : Nat := 0x60000
def VRD_FRAMES : Nat := 0x60008
def VRD_HELD : Nat := 0x60010
def VRD_RESYNC : Nat := 0x60018
def VRD_CLAIM : Nat := 0x60020
def MGT_STATE : Nat := 0xB0000
def MGT_UPDATE : Nat := 0xB0008
def MGT_ARM : Nat := 0xB0010
def MGT_ARM_DIGEST : Nat := 0xB0018
def MGT_IMAGE : Nat := 0xB0020
def MGT_SETTINGS : Nat := 0xB0028
def MGT_BOOTS : Nat := 0xB002C
def MGT_STROBES : Nat := 0xB0030
def MGT_UPTIME : Nat := 0xB0038
def MON_CTRL : Nat := 0x40000
def MON_ERR_STATUS : Nat := 0x40004
def MON_BW_CTRL : Nat := 0x40008
def MON_CNT_SEL (i : Nat) : Nat := 0x40010 + i * 0x8
def MON_CNT (i : Nat) : Nat := 0x40100 + i * 0x8
def MON_BW (k : Nat) : Nat := 0x40200 + k * 0x8
def MON_HIST_CFG (h : Nat) : Nat := 0x40400 + h * 0x80
def MON_HIST_MINMAX (h : Nat) : Nat := 0x40408 + h * 0x80
def MON_HIST_COUNT (h : Nat) : Nat := 0x40410 + h * 0x80
def MON_HIST_THRESH (h : Nat) : Nat := 0x40418 + h * 0x80
def MON_HIST_OVER (h : Nat) : Nat := 0x4041C + h * 0x80
def MON_HIST_DROPPED (h : Nat) : Nat := 0x40420 + h * 0x80
def MON_HIST_BIN (h b : Nat) : Nat := 0x40440 + h * 0x80 + b * 0x4
def MON_TRACE_BASE : Nat := 0x40C00
def MON_TRACE_CTRL : Nat := 0x40C08
def MON_TRACE_HEAD : Nat := 0x40C0C
def MON_TRACE_TAIL : Nat := 0x40C10
def MON_TRACE_DROPPED : Nat := 0x40C14

/-! ## Bit ranges of the fields -/

def GLB_ID_DEVICE : Bits := ⟨31, 16⟩
def GLB_ID_STEP_MAJOR : Bits := ⟨15, 12⟩
def GLB_ID_STEP_MINOR : Bits := ⟨11, 8⟩
def GLB_KEY_CLASS_KEY_CLASS : Bits := ⟨15, 0⟩
def GLB_SERIAL_SERIAL : Bits := ⟨63, 0⟩
def GLB_SETUP_LOCK_SET : Bits := ⟨1, 1⟩
def GLB_SETUP_LOCK_LOCK : Bits := ⟨0, 0⟩
def GLB_ERR_STATUS_NARROW_ACCESS : Bits := ⟨3, 3⟩
def GLB_ERR_STATUS_UNMAPPED_ACCESS : Bits := ⟨2, 2⟩
def GLB_ERR_STATUS_OFF_DOMAIN_ACCESS : Bits := ⟨1, 1⟩
def GLB_ERR_STATUS_LOCKED_WRITE : Bits := ⟨0, 0⟩
def GLB_ERR_ADDR_OFFSET : Bits := ⟨25, 0⟩
def GLB_PWR_DOMAIN_STATUS_TILE_LO : Bits := ⟨31, 0⟩
def GLB_PWR_DOMAIN_STATUS_TILE_HI : Bits := ⟨31, 0⟩
def GLB_PWR_DOMAIN_STATUS_HCX : Bits := ⟨31, 31⟩
def GLB_PWR_DOMAIN_STATUS_PORT : Bits := ⟨30, 28⟩
def GLB_PWR_DOMAIN_STATUS_CODEC : Bits := ⟨27, 20⟩
def GLB_PWR_DOMAIN_STATUS_MEMCH : Bits := ⟨19, 8⟩
def GLB_PWR_DOMAIN_STATUS_HUB : Bits := ⟨7, 0⟩
def GLB_CLK_DOMAIN_STATUS_RUN_LO : Bits := ⟨31, 0⟩
def GLB_CLK_DOMAIN_STATUS_RUN_HI : Bits := ⟨27, 0⟩
def GLB_CLU_FREQ_MHZ : Bits := ⟨8, 0⟩
def TILE_STATUS_CLAIMED : Bits := ⟨31, 31⟩
def TILE_STATUS_RUNNING : Bits := ⟨30, 30⟩
def TILE_STATUS_AT_BARRIER : Bits := ⟨29, 29⟩
def TILE_STATUS_CLEARING : Bits := ⟨28, 28⟩
def TILE_STATUS_PLACE_KEY : Bits := ⟨27, 25⟩
def TILE_STATUS_OWNER_CTX : Bits := ⟨20, 16⟩
def TILE_STATUS_ME_CLAIMED : Bits := ⟨15, 12⟩
def TILE_STATUS_ME_BUSY : Bits := ⟨11, 8⟩
def TILE_STATUS_LOGICAL_TILE : Bits := ⟨5, 0⟩
def TILE_KERNEL_TAG_RING : Bits := ⟨43, 32⟩
def TILE_KERNEL_TAG_SW_TAG : Bits := ⟨31, 0⟩
def TILE_CYCLES_CYCLES : Bits := ⟨63, 0⟩
def TILE_STALL_QUEUE_CLOCKS : Bits := ⟨63, 0⟩
def TILE_STALL_BANK_CLOCKS : Bits := ⟨63, 0⟩
def TILE_ERR_STATUS_ABORT : Bits := ⟨4, 4⟩
def TILE_ERR_STATUS_TIMEOUT : Bits := ⟨3, 3⟩
def TILE_ERR_STATUS_SEQ_TRAP : Bits := ⟨2, 2⟩
def TILE_ERR_STATUS_BANK_DENIED : Bits := ⟨1, 1⟩
def TILE_ERR_STATUS_MEM_UNCORR : Bits := ⟨0, 0⟩
def TILE_ERR_INFO_BANK_ADDR : Bits := ⟨28, 0⟩
def TILE_TRAP_CAUSE_CAUSE : Bits := ⟨7, 0⟩
def TILE_ICACHE_MISS_MISSES : Bits := ⟨31, 0⟩
def PE_STATUS_QUEUE_ACTIVE : Bits := ⟨31, 24⟩
def PE_STATUS_OUTSTANDING : Bits := ⟨8, 0⟩
def PE_REQ_COUNT_REQUESTS : Bits := ⟨63, 0⟩
def PE_RUNAHEAD_STALL_CLOCKS : Bits := ⟨63, 0⟩
def PE_OUTSTANDING_STALL_CLOCKS : Bits := ⟨63, 0⟩
def PE_PAD_COUNT_GRANULES : Bits := ⟨63, 0⟩
def PE_ERR_STATUS_ROW_PTR_ORDER : Bits := ⟨3, 3⟩
def PE_ERR_STATUS_INDEX_RANGE : Bits := ⟨2, 2⟩
def PE_ERR_STATUS_ADDR_RANGE : Bits := ⟨1, 1⟩
def PE_ERR_STATUS_MEM_UNCORR : Bits := ⟨0, 0⟩
def PE_ERR_INFO_INDEX : Bits := ⟨63, 32⟩
def PE_ERR_INFO_QUEUE : Bits := ⟨2, 0⟩
def PE_QUEUE_VALID : Bits := ⟨63, 63⟩
def PE_QUEUE_TYPE : Bits := ⟨62, 59⟩
def PE_QUEUE_DEPTH_LOG2 : Bits := ⟨51, 48⟩
def PE_QUEUE_FILLED : Bits := ⟨47, 35⟩
def PE_QUEUE_CONSUMED : Bits := ⟨31, 0⟩
def PE_RELIEF_DEC_GRANULES : Bits := ⟨63, 0⟩
def PE_RELIEF_ENC_GRANULES : Bits := ⟨63, 0⟩
def PE_RELIEF_GROUPS_SPECIAL : Bits := ⟨31, 16⟩
def PE_RELIEF_GROUPS_ODD_GROUPS : Bits := ⟨15, 0⟩
def BANK_OWNER_VALID : Bits := ⟨31, 31⟩
def BANK_OWNER_HANDOVER : Bits := ⟨30, 30⟩
def BANK_OWNER_CLEAN : Bits := ⟨29, 29⟩
def BANK_OWNER_CTX : Bits := ⟨20, 16⟩
def BANK_OWNER_PEND_VALID : Bits := ⟨15, 15⟩
def BANK_OWNER_PEND_CTX : Bits := ⟨12, 8⟩
def BANK_OWNER_LAST_CTX : Bits := ⟨4, 0⟩
def BANK_STATE_PWR_STATE : Bits := ⟨31, 30⟩
def BANK_STATE_WAKING : Bits := ⟨29, 29⟩
def BANK_STATE_CLEARING : Bits := ⟨28, 28⟩
def BANK_STATE_CLEAR_LEFT : Bits := ⟨14, 0⟩
def BANK_CONFLICT_CLOCKS : Bits := ⟨63, 0⟩
def BANK_DMA_WAIT_CLOCKS : Bits := ⟨63, 0⟩
def BANK_ECC_CORRECTED : Bits := ⟨31, 16⟩
def BANK_ECC_UNCORRECTED : Bits := ⟨7, 0⟩
def BANK_ECC_ADDR_OFFSET : Bits := ⟨19, 0⟩
def BANK_PWR_POLICY_FREE_OFF : Bits := ⟨16, 16⟩
def BANK_PWR_POLICY_IDLE_RET_US : Bits := ⟨15, 0⟩
def ATTN_STATUS_ACTIVE : Bits := ⟨31, 31⟩
def ATTN_STATUS_COMMITTING : Bits := ⟨30, 30⟩
def ATTN_STATUS_OWNER_CTX : Bits := ⟨20, 16⟩
def ATTN_STATUS_ROWS : Bits := ⟨15, 8⟩
def ATTN_ITEM_SEQ_ID : Bits := ⟨63, 48⟩
def ATTN_ITEM_LAYER : Bits := ⟨47, 38⟩
def ATTN_ITEM_KV_HEAD : Bits := ⟨37, 31⟩
def ATTN_ITEM_QBLOCK : Bits := ⟨30, 18⟩
def ATTN_ITEM_RANGE : Bits := ⟨17, 14⟩
def ATTN_PAGES_BLOCKS : Bits := ⟨63, 0⟩
def ATTN_FALLBACK_PAGES_BLOCKS : Bits := ⟨63, 0⟩
def ATTN_SKIPPED_BLOCKS : Bits := ⟨63, 0⟩
def ATTN_MASKED_ROWS_ROWS : Bits := ⟨31, 0⟩
def ATTN_ERR_STATUS_PAGE_FORMAT : Bits := ⟨3, 3⟩
def ATTN_ERR_STATUS_PAGE_UNMAPPED : Bits := ⟨2, 2⟩
def ATTN_ERR_STATUS_SCALE_BAD : Bits := ⟨1, 1⟩
def ATTN_ERR_STATUS_MEM_UNCORR : Bits := ⟨0, 0⟩
def ATTN_ERR_INFO_FORMAT : Bits := ⟨23, 16⟩
def ATTN_ERR_INFO_PAGE : Bits := ⟨8, 0⟩
def HUB_STATUS_PART_VALID : Bits := ⟨26, 26⟩
def HUB_STATUS_PARTITION : Bits := ⟨25, 23⟩
def HUB_STATUS_MARGIN_CLASS : Bits := ⟨22, 21⟩
def HUB_STATUS_OWNER_CTX : Bits := ⟨20, 16⟩
def HUB_STATUS_TILE_RUNNING : Bits := ⟨15, 8⟩
def HUB_STATUS_TILE_CLAIMED : Bits := ⟨7, 0⟩
def HUB_BARRIER_ARMED_ARMED : Bits := ⟨15, 0⟩
def HUB_STAGGER_LAST_WAVES : Bits := ⟨23, 16⟩
def HUB_STAGGER_LAST_ALLOWANCE : Bits := ⟨15, 8⟩
def HUB_STAGGER_LAST_OFFSET : Bits := ⟨7, 0⟩
def SET_STATUS_BUSY : Bits := ⟨31, 31⟩
def SET_STATUS_CLAIMED : Bits := ⟨30, 30⟩
def SET_STATUS_BY_SORT : Bits := ⟨29, 29⟩
def SET_STATUS_OP : Bits := ⟨28, 26⟩
def SET_STATUS_OWNER_CTX : Bits := ⟨25, 21⟩
def SET_STATUS_QUEUED : Bits := ⟨4, 0⟩
def SET_OPS_COUNT : Bits := ⟨63, 0⟩
def SET_ELEMENTS_COUNT : Bits := ⟨63, 0⟩
def SET_LAST_CYCLES : Bits := ⟨63, 32⟩
def SET_LAST_OUT_COUNT : Bits := ⟨31, 0⟩
def SET_FLAGS_OFFSET_CLIP : Bits := ⟨3, 3⟩
def SET_FLAGS_UNSORTED : Bits := ⟨2, 2⟩
def SET_FLAGS_NAN_KEYS : Bits := ⟨1, 1⟩
def SET_FLAGS_TRUNCATED : Bits := ⟨0, 0⟩
def WALK_STATUS_FALLBACK : Bits := ⟨31, 31⟩
def WALK_STATUS_SHOOTDOWN : Bits := ⟨30, 30⟩
def WALK_STATUS_VALID : Bits := ⟨7, 0⟩
def WALK_HITS_COUNT : Bits := ⟨63, 0⟩
def WALK_MISSES_COUNT : Bits := ⟨63, 0⟩
def WALK_FAULTS_COUNT : Bits := ⟨63, 0⟩
def WALK_FALLBACK_PAGES_COUNT : Bits := ⟨63, 0⟩
def WALK_STORMS_COUNT : Bits := ⟨31, 0⟩
def WALK_SHOOTDOWNS_COUNT : Bits := ⟨31, 0⟩
def PFT_W0_STATE : Bits := ⟨63, 62⟩
def PFT_W0_CLEAR_PENDING : Bits := ⟨61, 61⟩
def PFT_W0_CTX : Bits := ⟨60, 56⟩
def PFT_W0_SIZE_4K : Bits := ⟨49, 37⟩
def PFT_W0_BASE : Bits := ⟨36, 12⟩
def PFT_W1_GEN : Bits := ⟨63, 48⟩
def PFT_W1_LAYER : Bits := ⟨47, 38⟩
def PFT_W1_PAGE : Bits := ⟨37, 29⟩
def PFT_W1_REFS : Bits := ⟨28, 16⟩
def PFT_W1_KFMT : Bits := ⟨15, 8⟩
def PFT_W1_VFMT : Bits := ⟨7, 0⟩
def PFT_W2_VSCALE : Bits := ⟨1, 1⟩
def PFT_W2_KSCALE : Bits := ⟨0, 0⟩
def KVP_STATUS_PFT_BUSY : Bits := ⟨31, 31⟩
def KVP_STATUS_SEQ_COUNT : Bits := ⟨12, 0⟩
def KVP_FRAMES_DEFINED : Bits := ⟨47, 32⟩
def KVP_FRAMES_MAPPED : Bits := ⟨31, 16⟩
def KVP_FRAMES_FREE : Bits := ⟨15, 0⟩
def KVP_SEQ_SELECT_SEQ_ID : Bits := ⟨11, 0⟩
def KVP_SEQ_INFO_STATE : Bits := ⟨63, 61⟩
def KVP_SEQ_INFO_CTX : Bits := ⟨60, 56⟩
def KVP_SEQ_INFO_PRIO : Bits := ⟨55, 53⟩
def KVP_SEQ_INFO_LENGTH : Bits := ⟨49, 32⟩
def KVP_SEQ_INFO_FRAMES : Bits := ⟨31, 16⟩
def KVP_SEQ_INFO_HOLDS : Bits := ⟨15, 8⟩
def KVP_WALK_POLICY_FALLBACK_HOLD : Bits := ⟨31, 16⟩
def KVP_WALK_POLICY_FAULT_LIMIT : Bits := ⟨15, 8⟩
def KVP_WALK_POLICY_STORM_MISSES : Bits := ⟨7, 0⟩
def KVP_PREEMPT_COUNT_COUNT : Bits := ⟨63, 0⟩
def KVP_SWAP_OUT_BYTES_BYTES : Bits := ⟨63, 0⟩
def KVP_SWAP_IN_BYTES_BYTES : Bits := ⟨63, 0⟩
def KVP_LAST_PREEMPT_VICTIM : Bits := ⟨27, 16⟩
def KVP_LAST_PREEMPT_FRAMES_FREED : Bits := ⟨15, 0⟩
def KVP_ERR_STATUS_IMAGE_REJECTED : Bits := ⟨3, 3⟩
def KVP_ERR_STATUS_SHARED_WRITE : Bits := ⟨2, 2⟩
def KVP_ERR_STATUS_PFT_WRITE_REFUSED : Bits := ⟨1, 1⟩
def KVP_ERR_STATUS_NO_VICTIM : Bits := ⟨0, 0⟩
def KVP_ERR_INFO_SEQ_ID : Bits := ⟨27, 16⟩
def KVP_ERR_INFO_FRAME : Bits := ⟨14, 0⟩
def STN_CTRL_ENABLE : Bits := ⟨31, 31⟩
def STN_CTRL_CLUSTER : Bits := ⟨10, 8⟩
def STN_CTRL_CTX : Bits := ⟨4, 0⟩
def STN_STATUS_RUNNING : Bits := ⟨31, 31⟩
def STN_STATUS_MODELS : Bits := ⟨20, 16⟩
def STN_STATUS_CHANNELS : Bits := ⟨12, 0⟩
def STN_WINDOWS_COUNT : Bits := ⟨63, 0⟩
def STN_RECORDS_COUNT : Bits := ⟨63, 0⟩
def STN_DROPPED_COUNT : Bits := ⟨63, 0⟩
def STN_LAT_MAX_TIME : Bits := ⟨31, 0⟩
def STN_LAT_OVER_COUNT : Bits := ⟨31, 0⟩
def STN_ERR_STATUS_TRACKER_SAT : Bits := ⟨6, 6⟩
def STN_ERR_STATUS_SETUP_REFUSED : Bits := ⟨5, 5⟩
def STN_ERR_STATUS_DOORBELL_DROPPED : Bits := ⟨4, 4⟩
def STN_ERR_STATUS_HOST_READ_ERR : Bits := ⟨3, 3⟩
def STN_ERR_STATUS_MODEL_FAULT : Bits := ⟨2, 2⟩
def STN_ERR_STATUS_STATE_UNCORR : Bits := ⟨1, 1⟩
def STN_ERR_STATUS_OVERRUN : Bits := ⟨0, 0⟩
def STN_ERR_INFO_CHANNEL : Bits := ⟨11, 0⟩
def STN_CHAN_SELECT_CHANNEL : Bits := ⟨11, 0⟩
def STN_CHAN_STATUS_VERDICT : Bits := ⟨63, 61⟩
def STN_CHAN_STATUS_ENABLED : Bits := ⟨60, 60⟩
def STN_CHAN_STATUS_CONFIGURED : Bits := ⟨59, 59⟩
def STN_CHAN_STATUS_QUEUED : Bits := ⟨58, 58⟩
def STN_CHAN_STATUS_PENDING : Bits := ⟨57, 56⟩
def STN_CHAN_STATUS_ABOVE : Bits := ⟨55, 48⟩
def STN_CHAN_STATUS_TRIP_N : Bits := ⟨47, 40⟩
def STN_CHAN_STATUS_BELOW : Bits := ⟨39, 24⟩
def STN_CHAN_STATUS_LAST_SEQ : Bits := ⟨23, 0⟩
def STN_CHAN_COUNTS_TRACKED : Bits := ⟨63, 40⟩
def STN_CHAN_COUNTS_INVALID_RUN : Bits := ⟨39, 24⟩
def STN_CHAN_COUNTS_GAPS : Bits := ⟨23, 16⟩
def STN_CHAN_COUNTS_OVERRUNS : Bits := ⟨15, 8⟩
def STN_CHAN_COUNTS_STATE_ERRS : Bits := ⟨7, 0⟩
def STN_CHAN_ESTIMATE_E : Bits := ⟨31, 0⟩
def STN_CHAN_SCORE_SCORE : Bits := ⟨31, 0⟩
def VCD_STATUS_ACTIVE : Bits := ⟨31, 31⟩
def VCD_STATUS_STREAM : Bits := ⟨30, 25⟩
def VCD_STATUS_CTX : Bits := ⟨24, 20⟩
def VCD_STATUS_CORES_BUSY : Bits := ⟨19, 12⟩
def VCD_STATUS_STREAMS : Bits := ⟨6, 0⟩
def VCD_PICTURES_COUNT : Bits := ⟨63, 0⟩
def VCD_CONCEALED_UNITS : Bits := ⟨63, 0⟩
def VCD_SKIPPED_COUNT : Bits := ⟨31, 0⟩
def VCD_ERR_STATUS_PARAM_DISCARDED : Bits := ⟨5, 5⟩
def VCD_ERR_STATUS_UNSUPPORTED : Bits := ⟨4, 4⟩
def VCD_ERR_STATUS_NO_SLOT : Bits := ⟨3, 3⟩
def VCD_ERR_STATUS_SKIPPED : Bits := ⟨2, 2⟩
def VCD_ERR_STATUS_CONCEALED : Bits := ⟨1, 1⟩
def VCD_ERR_STATUS_MEM_UNCORR : Bits := ⟨0, 0⟩
def VCD_ERR_INFO_STREAM : Bits := ⟨5, 0⟩
def VCD_STREAM_SELECT_STREAM : Bits := ⟨5, 0⟩
def VCD_STREAM_INFO_REGISTERED : Bits := ⟨63, 63⟩
def VCD_STREAM_INFO_ENCODE : Bits := ⟨62, 62⟩
def VCD_STREAM_INFO_CODEC : Bits := ⟨61, 60⟩
def VCD_STREAM_INFO_CTX : Bits := ⟨59, 55⟩
def VCD_STREAM_INFO_SLOTS_IN_USE : Bits := ⟨47, 32⟩
def VCD_STREAM_INFO_PICTURES : Bits := ⟨31, 0⟩
def VCD_STREAM_CPB_FULLNESS : Bits := ⟨31, 0⟩
def MEM_STATUS_TRAINED : Bits := ⟨31, 31⟩
def MEM_STATUS_TRAIN_FAIL : Bits := ⟨30, 30⟩
def MEM_STATUS_FULL_TRAIN : Bits := ⟨29, 29⟩
def MEM_STATUS_PATROL_RUN : Bits := ⟨28, 28⟩
def MEM_STATUS_TRAIN_MS : Bits := ⟨15, 0⟩
def MEM_ECC_COUNT_CORRECTED : Bits := ⟨63, 0⟩
def MEM_UE_COUNT_PATROL : Bits := ⟨31, 16⟩
def MEM_UE_COUNT_DEMAND : Bits := ⟨15, 0⟩
def MEM_UE_ADDR_VALID : Bits := ⟨63, 63⟩
def MEM_UE_ADDR_FROM_PATROL : Bits := ⟨62, 62⟩
def MEM_UE_ADDR_CTX : Bits := ⟨60, 56⟩
def MEM_UE_ADDR_LOCAL_ADDR : Bits := ⟨32, 0⟩
def MEM_PATROL_ENABLE : Bits := ⟨31, 31⟩
def MEM_PATROL_HOURS : Bits := ⟨7, 0⟩
def MEM_PATROL_DONE_PASSES : Bits := ⟨31, 0⟩
def HIF_STATUS_READY : Bits := ⟨31, 31⟩
def HIF_STATUS_LINK_UP : Bits := ⟨30, 30⟩
def HIF_STATUS_NARROW : Bits := ⟨29, 29⟩
def HIF_STATUS_WIDTH : Bits := ⟨28, 24⟩
def HIF_STATUS_SPEED : Bits := ⟨23, 20⟩
def HIF_STATUS_NUM_VF : Bits := ⟨19, 14⟩
def HIF_CTRL_RO_EN : Bits := ⟨31, 31⟩
def HIF_CTRL_UE_LIMIT : Bits := ⟨7, 0⟩
def HIF_ERR_STATUS_MGMT_DOORBELL : Bits := ⟨7, 7⟩
def HIF_ERR_STATUS_MGMT_CONFIG : Bits := ⟨6, 6⟩
def HIF_ERR_STATUS_HOST_READ_ERR : Bits := ⟨5, 5⟩
def HIF_ERR_STATUS_MGMT_HALTED : Bits := ⟨4, 4⟩
def HIF_ERR_STATUS_LINK_DOWN : Bits := ⟨3, 3⟩
def HIF_ERR_STATUS_VF_FLR : Bits := ⟨2, 2⟩
def HIF_ERR_STATUS_PF_FLR : Bits := ⟨1, 1⟩
def HIF_ERR_STATUS_UE_FAILOVER : Bits := ⟨0, 0⟩
def HIF_ERR_INFO_FUNCTION : Bits := ⟨5, 0⟩
def HIF_SQ_BASE : Bits := ⟨63, 12⟩
def HIF_SQ_HALTED : Bits := ⟨7, 7⟩
def HIF_SQ_ENABLE : Bits := ⟨6, 6⟩
def HIF_SQ_LOG2_ENTRIES : Bits := ⟨4, 0⟩
def HIF_CQ_BASE : Bits := ⟨63, 12⟩
def HIF_CQ_INTR_EN : Bits := ⟨11, 11⟩
def HIF_CQ_VECTOR : Bits := ⟨10, 0⟩
def HIF_CTX_STATUS_VF_SERVED : Bits := ⟨31, 31⟩
def HIF_CTX_STATUS_SCRUBBING : Bits := ⟨30, 30⟩
def HIF_CTX_STATUS_HOLDS_PART : Bits := ⟨29, 29⟩
def HIF_CTX_STATUS_CTX : Bits := ⟨20, 16⟩
def HIF_CTX_STATUS_RINGS_ON : Bits := ⟨7, 0⟩
def HIF_VERSION_SUPPORTED_MASK : Bits := ⟨31, 0⟩
def HIF_VERSION_SELECT_VERSION : Bits := ⟨3, 0⟩
def HIF_CTX_ERR_STATUS_VERSION_WRITE : Bits := ⟨5, 5⟩
def HIF_CTX_ERR_STATUS_RING_CONFIG : Bits := ⟨4, 4⟩
def HIF_CTX_ERR_STATUS_DOORBELL_DROPPED : Bits := ⟨3, 3⟩
def HIF_CTX_ERR_STATUS_TAIL_RANGE : Bits := ⟨2, 2⟩
def HIF_CTX_ERR_STATUS_FETCH_ERR : Bits := ⟨1, 1⟩
def HIF_CTX_ERR_STATUS_HALT : Bits := ⟨0, 0⟩
def HIF_CTX_ERR_INFO_RING : Bits := ⟨6, 0⟩
def HIF_CTX_HALTED_RINGS : Bits := ⟨31, 0⟩
def MON_CNT_SATURATED : Bits := ⟨63, 63⟩
def MON_CNT_COUNT : Bits := ⟨47, 0⟩
def SEC_STATUS_READY : Bits := ⟨31, 31⟩
def SEC_STATUS_RNG_OK : Bits := ⟨30, 30⟩
def SEC_STATUS_BUSY : Bits := ⟨29, 29⟩
def SEC_STATUS_QUEUED : Bits := ⟨3, 0⟩
def SEC_FUSE_STATE_KEY_CLASS : Bits := ⟨47, 32⟩
def SEC_FUSE_STATE_FW_ROOT_VALID : Bits := ⟨5, 5⟩
def SEC_FUSE_STATE_LINK_KEY_VALID : Bits := ⟨4, 4⟩
def SEC_FUSE_STATE_ATTEST_SEED_VALID : Bits := ⟨3, 3⟩
def SEC_FUSE_STATE_KEM_SEED_VALID : Bits := ⟨2, 2⟩
def SEC_FUSE_STATE_DEVICE_SECRET_VALID : Bits := ⟨1, 1⟩
def SEC_FUSE_STATE_DEBUG_CLOSED : Bits := ⟨0, 0⟩
def SEC_FW_MIN_SVN_SVN : Bits := ⟨31, 0⟩
def SEC_DEBUG_PERMIT_PERMIT : Bits := ⟨31, 0⟩
def SEC_ERR_STATUS_RNG_FAIL : Bits := ⟨6, 6⟩
def SEC_ERR_STATUS_SCHEDULE_REFUSED : Bits := ⟨5, 5⟩
def SEC_ERR_STATUS_GRANT_REFUSED : Bits := ⟨4, 4⟩
def SEC_ERR_STATUS_PROTECTED_ACCESS : Bits := ⟨3, 3⟩
def SEC_ERR_STATUS_IMPORT_TAG_FAIL : Bits := ⟨2, 2⟩
def SEC_ERR_STATUS_KEY_REJECTED : Bits := ⟨1, 1⟩
def SEC_ERR_STATUS_SELFTEST_FAIL : Bits := ⟨0, 0⟩
def SEC_ERR_INFO_CTX : Bits := ⟨4, 0⟩
def SEC_REPORTS_COUNT : Bits := ⟨31, 0⟩
def SEC_SWITCH_PART : Bits := ⟨31, 29⟩
def SEC_SWITCH_CTX : Bits := ⟨28, 24⟩
def SEC_SWITCH_TIME : Bits := ⟨23, 0⟩
def SEC_PART_VALID : Bits := ⟨31, 31⟩
def SEC_PART_SENTINEL : Bits := ⟨30, 30⟩
def SEC_PART_SWITCHING : Bits := ⟨29, 29⟩
def SEC_PART_CURRENT_VALID : Bits := ⟨28, 28⟩
def SEC_PART_CURRENT_CTX : Bits := ⟨20, 16⟩
def SEC_PART_SLICE : Bits := ⟨15, 8⟩
def SEC_PART_CLUSTERS : Bits := ⟨7, 0⟩
def SEC_PART_CTX_CTX_MASK : Bits := ⟨31, 0⟩
def SEC_CTX_OWNER_KEY : Bits := ⟨31, 31⟩
def SEC_CTX_DEBUG_PERMIT : Bits := ⟨30, 30⟩
def SEC_CTX_HOLDS_PART : Bits := ⟨29, 29⟩
def SEC_CTX_CURRENT : Bits := ⟨28, 28⟩
def SEC_CTX_PARTITION : Bits := ⟨27, 25⟩
def SEC_CTX_KEY_VALID : Bits := ⟨24, 21⟩
def SEC_CTX_PROT_REGIONS : Bits := ⟨20, 16⟩
def SEC_TENANCY_TENANCY : Bits := ⟨63, 0⟩
def SEC_REGION_VALID : Bits := ⟨63, 63⟩
def SEC_REGION_LEN_2M : Bits := ⟨47, 32⟩
def SEC_REGION_BASE_2M : Bits := ⟨18, 0⟩
def SEC_PROT_KEY_SLOT : Bits := ⟨62, 61⟩
def PWR_MODE_PENDING : Bits := ⟨31, 31⟩
def PWR_MODE_MODE : Bits := ⟨0, 0⟩
def PWR_STATUS_GATE : Bits := ⟨31, 31⟩
def PWR_STATUS_PAUSE : Bits := ⟨30, 30⟩
def PWR_STATUS_SUPPLY_HOLD : Bits := ⟨29, 29⟩
def PWR_STATUS_AIR_STOP : Bits := ⟨28, 28⟩
def PWR_STATUS_SENSOR_FAULT : Bits := ⟨27, 27⟩
def PWR_STATUS_PRIMARY : Bits := ⟨26, 24⟩
def PWR_STATUS_PRIMARY_VALID : Bits := ⟨23, 23⟩
def PWR_THROTTLE_REASON_ACTIVE : Bits := ⟨15, 8⟩
def PWR_THROTTLE_REASON_BINDING : Bits := ⟨7, 0⟩
def PWR_THROTTLE_SEEN_SEEN : Bits := ⟨7, 0⟩
def PWR_THROTTLE_US_MICROSECONDS : Bits := ⟨63, 0⟩
def PWR_THROTTLE_TOTAL_US_MICROSECONDS : Bits := ⟨63, 0⟩
def PWR_INPUT_VOLTAGE : Bits := ⟨31, 16⟩
def PWR_INPUT_CURRENT : Bits := ⟨15, 0⟩
def PWR_POWER_P_1MS : Bits := ⟨31, 16⟩
def PWR_POWER_P_100MS : Bits := ⟨15, 0⟩
def PWR_LIMITS_EXT_CAP : Bits := ⟨31, 16⟩
def PWR_LIMITS_BUDGET : Bits := ⟨15, 0⟩
def PWR_POLICY_AIR_STOP_S : Bits := ⟨31, 24⟩
def PWR_POLICY_HINT_EN : Bits := ⟨15, 15⟩
def PWR_SUPPLY_LAST_MIN_VOLTAGE : Bits := ⟨63, 48⟩
def PWR_SUPPLY_LAST_COUNT : Bits := ⟨47, 32⟩
def PWR_SUPPLY_LAST_DURATION_US : Bits := ⟨31, 0⟩
def PWR_AIRFLOW_AF_SLOW : Bits := ⟨31, 16⟩
def PWR_AIRFLOW_AF_FAST : Bits := ⟨15, 0⟩
def PWR_RTH_R_EST : Bits := ⟨31, 16⟩
def PWR_RTH_R_REF : Bits := ⟨15, 0⟩
def PWR_TEMPS_TJ_MAX : Bits := ⟨31, 24⟩
def PWR_TEMPS_INLET : Bits := ⟨23, 16⟩
def PWR_TEMPS_OUTLET : Bits := ⟨15, 8⟩
def PWR_TEMPS_FIN : Bits := ⟨7, 0⟩
def PWR_SHUTDOWN_PENDING : Bits := ⟨31, 31⟩
def PWR_SHUTDOWN_CAUSE : Bits := ⟨30, 29⟩
def PWR_SHUTDOWN_SHUTTING : Bits := ⟨28, 28⟩
def PWR_SHUTDOWN_LEFT : Bits := ⟨15, 0⟩
def PWR_TRIP_TRIPPED : Bits := ⟨31, 31⟩
def PWR_TRIP_SENSOR : Bits := ⟨30, 24⟩
def PWR_HINTS_APPLIED : Bits := ⟨63, 32⟩
def PWR_HINTS_WITHDRAWN : Bits := ⟨31, 0⟩
def PWR_CLU_VOLTAGE_MV : Bits := ⟨63, 48⟩
def PWR_CLU_FREQ_CAP : Bits := ⟨47, 39⟩
def PWR_CLU_PAUSE : Bits := ⟨38, 34⟩
def PWR_CLU_MARGIN_CLASS : Bits := ⟨33, 32⟩
def PWR_CLU_TJ : Bits := ⟨31, 24⟩
def PWR_CLU_GUARD_MV : Bits := ⟨23, 16⟩
def PWR_CLU_BINDING : Bits := ⟨15, 8⟩
def PWR_CLU_SENTINEL : Bits := ⟨0, 0⟩
def PWR_DROOP_EVENTS : Bits := ⟨63, 32⟩
def PWR_DROOP_STRETCHED : Bits := ⟨31, 0⟩
def PWR_ENERGY_MICROJOULES : Bits := ⟨63, 0⟩
def OLP_ROLE_ROLE : Bits := ⟨31, 29⟩
def OLP_ROLE_PARTNER_UP : Bits := ⟨28, 28⟩
def OLP_ROLE_HEALTH_OK : Bits := ⟨27, 27⟩
def OLP_ROLE_PARTNER_HEALTH_OK : Bits := ⟨26, 26⟩
def OLP_ROLE_SWAP_DUE : Bits := ⟨25, 25⟩
def OLP_ROLE_GATE : Bits := ⟨24, 24⟩
def OLP_ROLE_SWITCHES : Bits := ⟨15, 0⟩
def OLP_CLAIM_EPOCH : Bits := ⟨31, 8⟩
def OLP_CLAIM_PREFERENCE : Bits := ⟨7, 0⟩
def OLP_PAIR_PAIRED : Bits := ⟨31, 31⟩
def OLP_PAIR_REVERT_EN : Bits := ⟨30, 30⟩
def OLP_PAIR_ROLE_GATE : Bits := ⟨29, 29⟩
def OLP_PAIR_DIGEST_EN : Bits := ⟨28, 28⟩
def OLP_PAIR_EPOCH_HIGH : Bits := ⟨27, 27⟩
def OLP_PAIR_SWAP_PERIOD_H : Bits := ⟨15, 8⟩
def OLP_PAIR_PREFERENCE : Bits := ⟨7, 0⟩
def OLP_CASCADE_FORMED : Bits := ⟨31, 31⟩
def OLP_CASCADE_DEGRADED : Bits := ⟨30, 30⟩
def OLP_CASCADE_STANDBY_CASCADE : Bits := ⟨29, 29⟩
def OLP_CASCADE_SIZE : Bits := ⟨26, 24⟩
def OLP_CASCADE_POSITION : Bits := ⟨17, 16⟩
def OLP_CASCADE_WINDOWS : Bits := ⟨15, 0⟩
def OLP_HEALTH_COMPARED : Bits := ⟨63, 32⟩
def OLP_HEALTH_MISMATCHES : Bits := ⟨31, 16⟩
def OLP_HEALTH_SKIPPED : Bits := ⟨15, 0⟩
def OLP_SWITCH_LAST_FROM : Bits := ⟨63, 61⟩
def OLP_SWITCH_LAST_TO : Bits := ⟨60, 58⟩
def OLP_SWITCH_LAST_CAUSE : Bits := ⟨55, 48⟩
def OLP_SWITCH_LAST_GAP : Bits := ⟨31, 0⟩
def OLP_ERR_STATUS_SWAP_DEFERRED : Bits := ⟨10, 10⟩
def OLP_ERR_STATUS_SWAP_REFUSED : Bits := ⟨9, 9⟩
def OLP_ERR_STATUS_WINDOW_OVERRUN : Bits := ⟨8, 8⟩
def OLP_ERR_STATUS_PAIR_REFUSED : Bits := ⟨7, 7⟩
def OLP_ERR_STATUS_CABLING_FAULT : Bits := ⟨6, 6⟩
def OLP_ERR_STATUS_TAG_FAIL : Bits := ⟨5, 5⟩
def OLP_ERR_STATUS_AUTH_FAIL : Bits := ⟨4, 4⟩
def OLP_ERR_STATUS_VERSION_REFUSED : Bits := ⟨3, 3⟩
def OLP_ERR_STATUS_LANE_LOST : Bits := ⟨2, 2⟩
def OLP_ERR_STATUS_SPLIT_SEEN : Bits := ⟨1, 1⟩
def OLP_ERR_STATUS_DIGEST_MISMATCH : Bits := ⟨0, 0⟩
def OLP_ERR_INFO_PORT : Bits := ⟨1, 0⟩
def OLP_PORT_STATUS_STATE : Bits := ⟨31, 29⟩
def OLP_PORT_STATUS_LANES : Bits := ⟨27, 24⟩
def OLP_PORT_STATUS_LANE_MASK : Bits := ⟨23, 16⟩
def OLP_PORT_STATUS_VERSION : Bits := ⟨15, 12⟩
def OLP_PORT_STATUS_WIN_HI : Bits := ⟨11, 4⟩
def OLP_PORT_STATUS_RETRAINS : Bits := ⟨3, 0⟩
def OLP_PORT_PEER_SERIAL : Bits := ⟨63, 0⟩
def OLP_PORT_BYTES : Bits := ⟨63, 0⟩
def OLP_PORT_REPLAYS_FRAMES : Bits := ⟨31, 0⟩
def VRD_STATUS_TX_ON : Bits := ⟨31, 31⟩
def VRD_STATUS_LINES : Bits := ⟨23, 16⟩
def VRD_STATUS_FRAME_NO : Bits := ⟨15, 8⟩
def VRD_FRAMES_COUNT : Bits := ⟨63, 0⟩
def VRD_HELD_COUNT : Bits := ⟨63, 0⟩
def VRD_RESYNC_COUNT : Bits := ⟨63, 0⟩
def VRD_CLAIM_CLAIM : Bits := ⟨31, 0⟩
def MGT_STATE_PHASE : Bits := ⟨31, 28⟩
def MGT_STATE_MANAGER : Bits := ⟨27, 27⟩
def MGT_STATE_RELAY_UP : Bits := ⟨26, 26⟩
def MGT_STATE_RELAY_DOWN : Bits := ⟨25, 25⟩
def MGT_STATE_MOVING : Bits := ⟨24, 24⟩
def MGT_STATE_RESERVE_OK : Bits := ⟨23, 23⟩
def MGT_STATE_OWNER_LOCK : Bits := ⟨22, 22⟩
def MGT_STATE_SLOT : Bits := ⟨21, 16⟩
def MGT_STATE_START_FAIL : Bits := ⟨15, 8⟩
def MGT_UPDATE_IMAGE_ID : Bits := ⟨63, 32⟩
def MGT_UPDATE_STATE : Bits := ⟨31, 29⟩
def MGT_UPDATE_REFUSE : Bits := ⟨19, 16⟩
def MGT_UPDATE_CHUNKS : Bits := ⟨15, 0⟩
def MGT_ARM_CHANGE_ID : Bits := ⟨63, 32⟩
def MGT_ARM_STATE : Bits := ⟨31, 29⟩
def MGT_ARM_KIND : Bits := ⟨28, 27⟩
def MGT_ARM_REASON : Bits := ⟨23, 16⟩
def MGT_ARM_DIGEST_DIGEST : Bits := ⟨63, 0⟩
def MGT_IMAGE_IMAGE_ID : Bits := ⟨63, 32⟩
def MGT_IMAGE_SVN : Bits := ⟨31, 0⟩
def MGT_SETTINGS_VERSION : Bits := ⟨31, 16⟩
def MGT_SETTINGS_MIGRATED : Bits := ⟨15, 15⟩
def MGT_SETTINGS_COPY : Bits := ⟨14, 14⟩
def MGT_SETTINGS_DEFAULTED : Bits := ⟨13, 13⟩
def MGT_BOOTS_BOOTS : Bits := ⟨31, 16⟩
def MGT_BOOTS_UNARMED : Bits := ⟨15, 0⟩
def MGT_STROBES_EDGES : Bits := ⟨31, 0⟩
def MGT_UPTIME_MICROSECONDS : Bits := ⟨63, 0⟩
def MON_CTRL_COUNT_EN : Bits := ⟨31, 31⟩
def MON_CTRL_HIST_FREEZE : Bits := ⟨30, 30⟩
def MON_CTRL_CLEAR_ALL : Bits := ⟨29, 29⟩
def MON_CTRL_COMPAT : Bits := ⟨15, 0⟩
def MON_ERR_STATUS_TRACE_DROP : Bits := ⟨3, 3⟩
def MON_ERR_STATUS_CONFIG_BUSY : Bits := ⟨2, 2⟩
def MON_ERR_STATUS_COMPAT_REFUSED : Bits := ⟨1, 1⟩
def MON_ERR_STATUS_BAD_SELECT : Bits := ⟨0, 0⟩
def MON_BW_CTRL_WINDOW : Bits := ⟨2, 0⟩
def MON_CNT_SEL_CTX_EN : Bits := ⟨31, 31⟩
def MON_CNT_SEL_CTX : Bits := ⟨30, 26⟩
def MON_CNT_SEL_UNIT_EN : Bits := ⟨25, 25⟩
def MON_CNT_SEL_UNIT : Bits := ⟨24, 16⟩
def MON_CNT_SEL_EVENT : Bits := ⟨7, 0⟩
def MON_BW_PEAK : Bits := ⟨63, 32⟩
def MON_BW_LAST : Bits := ⟨31, 0⟩
def MON_HIST_CFG_ENABLE : Bits := ⟨63, 63⟩
def MON_HIST_CFG_LOG : Bits := ⟨62, 62⟩
def MON_HIST_CFG_SOURCE : Bits := ⟨55, 48⟩
def MON_HIST_CFG_CTX_EN : Bits := ⟨47, 47⟩
def MON_HIST_CFG_CTX : Bits := ⟨46, 42⟩
def MON_HIST_CFG_UNIT_EN : Bits := ⟨41, 41⟩
def MON_HIST_CFG_UNIT : Bits := ⟨40, 35⟩
def MON_HIST_CFG_WIDTH : Bits := ⟨31, 16⟩
def MON_HIST_MINMAX_MAX : Bits := ⟨63, 32⟩
def MON_HIST_MINMAX_MIN : Bits := ⟨31, 0⟩
def MON_HIST_COUNT_SATURATED : Bits := ⟨63, 63⟩
def MON_HIST_COUNT_COUNT : Bits := ⟨47, 0⟩
def MON_HIST_THRESH_THRESH : Bits := ⟨31, 0⟩
def MON_HIST_OVER_COUNT : Bits := ⟨31, 0⟩
def MON_HIST_DROPPED_COUNT : Bits := ⟨31, 0⟩
def MON_HIST_BIN_COUNT : Bits := ⟨31, 0⟩
def MON_TRACE_BASE_BASE : Bits := ⟨63, 12⟩
def MON_TRACE_CTRL_ENABLE : Bits := ⟨31, 31⟩
def MON_TRACE_CTRL_STOP_FULL : Bits := ⟨30, 30⟩
def MON_TRACE_CTRL_SOURCES : Bits := ⟨15, 8⟩
def MON_TRACE_CTRL_LOG2_RECORDS : Bits := ⟨4, 0⟩
def MON_TRACE_HEAD_WRITTEN : Bits := ⟨31, 0⟩
def MON_TRACE_TAIL_READ : Bits := ⟨31, 0⟩
def MON_TRACE_DROPPED_COUNT : Bits := ⟨31, 0⟩

/-! ## The register tables -/

/-- Tables 9 to 14 of Module and Die Organisation (R30), offsets in BAR0. -/
def glbRows : List RegRow := [
  -- GLB_ID
  ⟨0x0, 0x1, 1, 1, 1, false, [⟨GLB_ID_DEVICE, .ro, 0x3264⟩, ⟨GLB_ID_STEP_MAJOR, .ro, 0⟩, ⟨GLB_ID_STEP_MINOR, .ro, 1⟩]⟩,
  -- GLB_KEY_CLASS
  ⟨0x4, 0x1, 1, 1, 1, false, [⟨GLB_KEY_CLASS_KEY_CLASS, .ro, 0⟩]⟩,
  -- GLB_SERIAL
  ⟨0x8, 0x1, 1, 1, 1, true, [⟨GLB_SERIAL_SERIAL, .ro, 0⟩]⟩,
  -- GLB_SETUP_LOCK
  ⟨0x10, 0x1, 1, 1, 1, false, [⟨GLB_SETUP_LOCK_SET, .wo, 0⟩, ⟨GLB_SETUP_LOCK_LOCK, .ro, 0⟩]⟩,
  -- GLB_ERR_STATUS
  ⟨0x14, 0x1, 1, 1, 1, false, [⟨GLB_ERR_STATUS_NARROW_ACCESS, .w1c, 0⟩, ⟨GLB_ERR_STATUS_UNMAPPED_ACCESS, .w1c, 0⟩, ⟨GLB_ERR_STATUS_OFF_DOMAIN_ACCESS, .w1c, 0⟩, ⟨GLB_ERR_STATUS_LOCKED_WRITE, .w1c, 0⟩]⟩,
  -- GLB_ERR_ADDR
  ⟨0x18, 0x1, 1, 1, 1, false, [⟨GLB_ERR_ADDR_OFFSET, .ro, 0⟩]⟩,
  -- GLB_PWR_DOMAIN_STATUS0
  ⟨0x20, 0x1, 1, 1, 1, false, [⟨GLB_PWR_DOMAIN_STATUS_TILE_LO, .ro, 0⟩]⟩,
  -- GLB_PWR_DOMAIN_STATUS1
  ⟨0x24, 0x1, 1, 1, 1, false, [⟨GLB_PWR_DOMAIN_STATUS_TILE_HI, .ro, 0⟩]⟩,
  -- GLB_PWR_DOMAIN_STATUS2
  ⟨0x28, 0x1, 1, 1, 1, false, [⟨GLB_PWR_DOMAIN_STATUS_HCX, .ro, 0⟩, ⟨GLB_PWR_DOMAIN_STATUS_PORT, .ro, 0⟩, ⟨GLB_PWR_DOMAIN_STATUS_CODEC, .ro, 0⟩, ⟨GLB_PWR_DOMAIN_STATUS_MEMCH, .ro, 0⟩, ⟨GLB_PWR_DOMAIN_STATUS_HUB, .ro, 0⟩]⟩,
  -- GLB_CLK_DOMAIN_STATUS0
  ⟨0x30, 0x1, 1, 1, 1, false, [⟨GLB_CLK_DOMAIN_STATUS_RUN_LO, .ro, 0⟩]⟩,
  -- GLB_CLK_DOMAIN_STATUS1
  ⟨0x34, 0x1, 1, 1, 1, false, [⟨GLB_CLK_DOMAIN_STATUS_RUN_HI, .ro, 0⟩]⟩,
  -- GLB_CLU_FREQ
  ⟨0x40, 0x4, 8, 1, 1, false, [⟨GLB_CLU_FREQ_MHZ, .ro, 0⟩]⟩]

/-- Registers of a tile window, offsets in the window (R75, R95, R116, R139, R162). -/
def tileRows : List RegRow := [
  -- TILE_STATUS
  ⟨0x0, 0x1, 1, 1, 1, false, [⟨TILE_STATUS_CLAIMED, .ro, 0⟩, ⟨TILE_STATUS_RUNNING, .ro, 0⟩, ⟨TILE_STATUS_AT_BARRIER, .ro, 0⟩, ⟨TILE_STATUS_CLEARING, .ro, 0⟩, ⟨TILE_STATUS_PLACE_KEY, .ro, 0⟩, ⟨TILE_STATUS_OWNER_CTX, .ro, 0⟩, ⟨TILE_STATUS_ME_CLAIMED, .ro, 0⟩, ⟨TILE_STATUS_ME_BUSY, .ro, 0⟩, ⟨TILE_STATUS_LOGICAL_TILE, .ro, 0⟩]⟩,
  -- TILE_KERNEL_TAG
  ⟨0x8, 0x1, 1, 1, 1, true, [⟨TILE_KERNEL_TAG_RING, .ro, 0⟩, ⟨TILE_KERNEL_TAG_SW_TAG, .ro, 0⟩]⟩,
  -- TILE_CYCLES
  ⟨0x10, 0x1, 1, 1, 1, true, [⟨TILE_CYCLES_CYCLES, .ro, 0⟩]⟩,
  -- TILE_STALL_QUEUE
  ⟨0x18, 0x1, 1, 1, 1, true, [⟨TILE_STALL_QUEUE_CLOCKS, .ro, 0⟩]⟩,
  -- TILE_STALL_BANK
  ⟨0x20, 0x1, 1, 1, 1, true, [⟨TILE_STALL_BANK_CLOCKS, .ro, 0⟩]⟩,
  -- TILE_ERR_STATUS
  ⟨0x28, 0x1, 1, 1, 1, false, [⟨TILE_ERR_STATUS_ABORT, .w1c, 0⟩, ⟨TILE_ERR_STATUS_TIMEOUT, .w1c, 0⟩, ⟨TILE_ERR_STATUS_SEQ_TRAP, .w1c, 0⟩, ⟨TILE_ERR_STATUS_BANK_DENIED, .w1c, 0⟩, ⟨TILE_ERR_STATUS_MEM_UNCORR, .w1c, 0⟩]⟩,
  -- TILE_ERR_INFO
  ⟨0x2C, 0x1, 1, 1, 1, false, [⟨TILE_ERR_INFO_BANK_ADDR, .ro, 0⟩]⟩,
  -- TILE_TRAP_CAUSE
  ⟨0x30, 0x1, 1, 1, 1, false, [⟨TILE_TRAP_CAUSE_CAUSE, .ro, 0⟩]⟩,
  -- TILE_ICACHE_MISS
  ⟨0x34, 0x1, 1, 1, 1, false, [⟨TILE_ICACHE_MISS_MISSES, .ro, 0⟩]⟩,
  -- PE_STATUS
  ⟨0x10000, 0x1, 1, 1, 1, false, [⟨PE_STATUS_QUEUE_ACTIVE, .ro, 0⟩, ⟨PE_STATUS_OUTSTANDING, .ro, 0⟩]⟩,
  -- PE_REQ_COUNT
  ⟨0x10008, 0x1, 1, 1, 1, true, [⟨PE_REQ_COUNT_REQUESTS, .ro, 0⟩]⟩,
  -- PE_RUNAHEAD_STALL
  ⟨0x10010, 0x1, 1, 1, 1, true, [⟨PE_RUNAHEAD_STALL_CLOCKS, .ro, 0⟩]⟩,
  -- PE_OUTSTANDING_STALL
  ⟨0x10018, 0x1, 1, 1, 1, true, [⟨PE_OUTSTANDING_STALL_CLOCKS, .ro, 0⟩]⟩,
  -- PE_PAD_COUNT
  ⟨0x10020, 0x1, 1, 1, 1, true, [⟨PE_PAD_COUNT_GRANULES, .ro, 0⟩]⟩,
  -- PE_ERR_STATUS
  ⟨0x10030, 0x1, 1, 1, 1, false, [⟨PE_ERR_STATUS_ROW_PTR_ORDER, .w1c, 0⟩, ⟨PE_ERR_STATUS_INDEX_RANGE, .w1c, 0⟩, ⟨PE_ERR_STATUS_ADDR_RANGE, .w1c, 0⟩, ⟨PE_ERR_STATUS_MEM_UNCORR, .w1c, 0⟩]⟩,
  -- PE_ERR_INFO
  ⟨0x10038, 0x1, 1, 1, 1, true, [⟨PE_ERR_INFO_INDEX, .ro, 0⟩, ⟨PE_ERR_INFO_QUEUE, .ro, 0⟩]⟩,
  -- PE_QUEUE
  ⟨0x10040, 0x8, 8, 1, 1, true, [⟨PE_QUEUE_VALID, .ro, 0⟩, ⟨PE_QUEUE_TYPE, .ro, 0⟩, ⟨PE_QUEUE_DEPTH_LOG2, .ro, 0⟩, ⟨PE_QUEUE_FILLED, .ro, 0⟩, ⟨PE_QUEUE_CONSUMED, .ro, 0⟩]⟩,
  -- PE_RELIEF_DEC
  ⟨0x10100, 0x1, 1, 1, 1, true, [⟨PE_RELIEF_DEC_GRANULES, .ro, 0⟩]⟩,
  -- PE_RELIEF_ENC
  ⟨0x10108, 0x1, 1, 1, 1, true, [⟨PE_RELIEF_ENC_GRANULES, .ro, 0⟩]⟩,
  -- PE_RELIEF_GROUPS
  ⟨0x10110, 0x1, 1, 1, 1, false, [⟨PE_RELIEF_GROUPS_SPECIAL, .ro, 0⟩, ⟨PE_RELIEF_GROUPS_ODD_GROUPS, .ro, 0⟩]⟩,
  -- BANK_OWNER
  ⟨0x20000, 0x40, 8, 1, 1, false, [⟨BANK_OWNER_VALID, .ro, 0⟩, ⟨BANK_OWNER_HANDOVER, .ro, 0⟩, ⟨BANK_OWNER_CLEAN, .ro, 1⟩, ⟨BANK_OWNER_CTX, .ro, 0⟩, ⟨BANK_OWNER_PEND_VALID, .ro, 0⟩, ⟨BANK_OWNER_PEND_CTX, .ro, 0⟩, ⟨BANK_OWNER_LAST_CTX, .ro, 0⟩]⟩,
  -- BANK_STATE
  ⟨0x20004, 0x40, 8, 1, 1, false, [⟨BANK_STATE_PWR_STATE, .ro, 0⟩, ⟨BANK_STATE_WAKING, .ro, 0⟩, ⟨BANK_STATE_CLEARING, .ro, 0⟩, ⟨BANK_STATE_CLEAR_LEFT, .ro, 0⟩]⟩,
  -- BANK_CONFLICT
  ⟨0x20008, 0x40, 8, 1, 1, true, [⟨BANK_CONFLICT_CLOCKS, .ro, 0⟩]⟩,
  -- BANK_DMA_WAIT
  ⟨0x20010, 0x40, 8, 1, 1, true, [⟨BANK_DMA_WAIT_CLOCKS, .ro, 0⟩]⟩,
  -- BANK_ECC
  ⟨0x20018, 0x40, 8, 1, 1, false, [⟨BANK_ECC_CORRECTED, .ro, 0⟩, ⟨BANK_ECC_UNCORRECTED, .ro, 0⟩]⟩,
  -- BANK_ECC_ADDR
  ⟨0x2001C, 0x40, 8, 1, 1, false, [⟨BANK_ECC_ADDR_OFFSET, .ro, 0⟩]⟩,
  -- BANK_PWR_POLICY
  ⟨0x20400, 0x1, 1, 1, 1, false, [⟨BANK_PWR_POLICY_FREE_OFF, .rwl, 1⟩, ⟨BANK_PWR_POLICY_IDLE_RET_US, .rwl, 0x64⟩]⟩,
  -- ATTN_STATUS
  ⟨0x30000, 0x1, 1, 1, 1, false, [⟨ATTN_STATUS_ACTIVE, .ro, 0⟩, ⟨ATTN_STATUS_COMMITTING, .ro, 0⟩, ⟨ATTN_STATUS_OWNER_CTX, .ro, 0⟩, ⟨ATTN_STATUS_ROWS, .ro, 0⟩]⟩,
  -- ATTN_ITEM
  ⟨0x30008, 0x1, 1, 1, 1, true, [⟨ATTN_ITEM_SEQ_ID, .ro, 0⟩, ⟨ATTN_ITEM_LAYER, .ro, 0⟩, ⟨ATTN_ITEM_KV_HEAD, .ro, 0⟩, ⟨ATTN_ITEM_QBLOCK, .ro, 0⟩, ⟨ATTN_ITEM_RANGE, .ro, 0⟩]⟩,
  -- ATTN_PAGES
  ⟨0x30010, 0x1, 1, 1, 1, true, [⟨ATTN_PAGES_BLOCKS, .ro, 0⟩]⟩,
  -- ATTN_FALLBACK_PAGES
  ⟨0x30018, 0x1, 1, 1, 1, true, [⟨ATTN_FALLBACK_PAGES_BLOCKS, .ro, 0⟩]⟩,
  -- ATTN_SKIPPED
  ⟨0x30020, 0x1, 1, 1, 1, true, [⟨ATTN_SKIPPED_BLOCKS, .ro, 0⟩]⟩,
  -- ATTN_MASKED_ROWS
  ⟨0x30028, 0x1, 1, 1, 1, false, [⟨ATTN_MASKED_ROWS_ROWS, .ro, 0⟩]⟩,
  -- ATTN_ERR_STATUS
  ⟨0x3002C, 0x1, 1, 1, 1, false, [⟨ATTN_ERR_STATUS_PAGE_FORMAT, .w1c, 0⟩, ⟨ATTN_ERR_STATUS_PAGE_UNMAPPED, .w1c, 0⟩, ⟨ATTN_ERR_STATUS_SCALE_BAD, .w1c, 0⟩, ⟨ATTN_ERR_STATUS_MEM_UNCORR, .w1c, 0⟩]⟩,
  -- ATTN_ERR_INFO
  ⟨0x30030, 0x1, 1, 1, 1, false, [⟨ATTN_ERR_INFO_FORMAT, .ro, 0⟩, ⟨ATTN_ERR_INFO_PAGE, .ro, 0⟩]⟩]

/-- Registers of a cluster window, offsets in the window (R76, R117, R188). -/
def hubRows : List RegRow := [
  -- HUB_STATUS
  ⟨0x0, 0x1, 1, 1, 1, false, [⟨HUB_STATUS_PART_VALID, .ro, 0⟩, ⟨HUB_STATUS_PARTITION, .ro, 0⟩, ⟨HUB_STATUS_MARGIN_CLASS, .ro, 0⟩, ⟨HUB_STATUS_OWNER_CTX, .ro, 0⟩, ⟨HUB_STATUS_TILE_RUNNING, .ro, 0⟩, ⟨HUB_STATUS_TILE_CLAIMED, .ro, 0⟩]⟩,
  -- HUB_BARRIER_ARMED
  ⟨0x8, 0x1, 1, 1, 1, false, [⟨HUB_BARRIER_ARMED_ARMED, .ro, 0⟩]⟩,
  -- HUB_STAGGER_LAST
  ⟨0x10, 0x1, 1, 1, 1, false, [⟨HUB_STAGGER_LAST_WAVES, .ro, 0⟩, ⟨HUB_STAGGER_LAST_ALLOWANCE, .ro, 0⟩, ⟨HUB_STAGGER_LAST_OFFSET, .ro, 0⟩]⟩,
  -- SET_STATUS
  ⟨0x10000, 0x1, 1, 1, 1, false, [⟨SET_STATUS_BUSY, .ro, 0⟩, ⟨SET_STATUS_CLAIMED, .ro, 0⟩, ⟨SET_STATUS_BY_SORT, .ro, 0⟩, ⟨SET_STATUS_OP, .ro, 0⟩, ⟨SET_STATUS_OWNER_CTX, .ro, 0⟩, ⟨SET_STATUS_QUEUED, .ro, 0⟩]⟩,
  -- SET_OPS
  ⟨0x10008, 0x1, 1, 1, 1, true, [⟨SET_OPS_COUNT, .ro, 0⟩]⟩,
  -- SET_ELEMENTS
  ⟨0x10010, 0x1, 1, 1, 1, true, [⟨SET_ELEMENTS_COUNT, .ro, 0⟩]⟩,
  -- SET_LAST
  ⟨0x10018, 0x1, 1, 1, 1, true, [⟨SET_LAST_CYCLES, .ro, 0⟩, ⟨SET_LAST_OUT_COUNT, .ro, 0⟩]⟩,
  -- SET_FLAGS
  ⟨0x10020, 0x1, 1, 1, 1, false, [⟨SET_FLAGS_OFFSET_CLIP, .ro, 0⟩, ⟨SET_FLAGS_UNSORTED, .ro, 0⟩, ⟨SET_FLAGS_NAN_KEYS, .ro, 0⟩, ⟨SET_FLAGS_TRUNCATED, .ro, 0⟩]⟩,
  -- WALK_STATUS
  ⟨0x20000, 0x1, 1, 1, 1, false, [⟨WALK_STATUS_FALLBACK, .ro, 0⟩, ⟨WALK_STATUS_SHOOTDOWN, .ro, 0⟩, ⟨WALK_STATUS_VALID, .ro, 0⟩]⟩,
  -- WALK_HITS
  ⟨0x20008, 0x1, 1, 1, 1, true, [⟨WALK_HITS_COUNT, .ro, 0⟩]⟩,
  -- WALK_MISSES
  ⟨0x20010, 0x1, 1, 1, 1, true, [⟨WALK_MISSES_COUNT, .ro, 0⟩]⟩,
  -- WALK_FAULTS
  ⟨0x20018, 0x1, 1, 1, 1, true, [⟨WALK_FAULTS_COUNT, .ro, 0⟩]⟩,
  -- WALK_FALLBACK_PAGES
  ⟨0x20020, 0x1, 1, 1, 1, true, [⟨WALK_FALLBACK_PAGES_COUNT, .ro, 0⟩]⟩,
  -- WALK_STORMS
  ⟨0x20028, 0x1, 1, 1, 1, false, [⟨WALK_STORMS_COUNT, .ro, 0⟩]⟩,
  -- WALK_SHOOTDOWNS
  ⟨0x2002C, 0x1, 1, 1, 1, false, [⟨WALK_SHOOTDOWNS_COUNT, .ro, 0⟩]⟩]

/-- The Page Frame Table (R166). -/
def pftRows : List RegRow := [
  -- PFT_W0
  ⟨0x3000000, 0x20, 32768, 1, 1, true, [⟨PFT_W0_STATE, .ro, 0⟩, ⟨PFT_W0_CLEAR_PENDING, .ro, 0⟩, ⟨PFT_W0_CTX, .rw, 0⟩, ⟨PFT_W0_SIZE_4K, .rw, 0⟩, ⟨PFT_W0_BASE, .rw, 0⟩]⟩,
  -- PFT_W1
  ⟨0x3000008, 0x20, 32768, 1, 1, true, [⟨PFT_W1_GEN, .ro, 0⟩, ⟨PFT_W1_LAYER, .ro, 0⟩, ⟨PFT_W1_PAGE, .ro, 0⟩, ⟨PFT_W1_REFS, .ro, 0⟩, ⟨PFT_W1_KFMT, .ro, 0⟩, ⟨PFT_W1_VFMT, .ro, 0⟩]⟩,
  -- PFT_W2
  ⟨0x3000010, 0x20, 32768, 1, 1, true, [⟨PFT_W2_VSCALE, .ro, 0⟩, ⟨PFT_W2_KSCALE, .ro, 0⟩]⟩,
  -- PFT_W3
  ⟨0x3000018, 0x20, 32768, 1, 1, true, []⟩]

/-- R187. -/
def kvpRows : List RegRow := [
  -- KVP_STATUS
  ⟨0x90000, 0x1, 1, 1, 1, false, [⟨KVP_STATUS_PFT_BUSY, .ro, 0⟩, ⟨KVP_STATUS_SEQ_COUNT, .ro, 0⟩]⟩,
  -- KVP_FRAMES
  ⟨0x90008, 0x1, 1, 1, 1, true, [⟨KVP_FRAMES_DEFINED, .ro, 0⟩, ⟨KVP_FRAMES_MAPPED, .ro, 0⟩, ⟨KVP_FRAMES_FREE, .ro, 0⟩]⟩,
  -- KVP_SEQ_SELECT
  ⟨0x90010, 0x1, 1, 1, 1, false, [⟨KVP_SEQ_SELECT_SEQ_ID, .rw, 0⟩]⟩,
  -- KVP_SEQ_INFO
  ⟨0x90018, 0x1, 1, 1, 1, true, [⟨KVP_SEQ_INFO_STATE, .ro, 0⟩, ⟨KVP_SEQ_INFO_CTX, .ro, 0⟩, ⟨KVP_SEQ_INFO_PRIO, .ro, 0⟩, ⟨KVP_SEQ_INFO_LENGTH, .ro, 0⟩, ⟨KVP_SEQ_INFO_FRAMES, .ro, 0⟩, ⟨KVP_SEQ_INFO_HOLDS, .ro, 0⟩]⟩,
  -- KVP_WALK_POLICY
  ⟨0x90020, 0x1, 1, 1, 1, false, [⟨KVP_WALK_POLICY_FALLBACK_HOLD, .rwl, 0x40⟩, ⟨KVP_WALK_POLICY_FAULT_LIMIT, .rwl, 0x10⟩, ⟨KVP_WALK_POLICY_STORM_MISSES, .rwl, 0x60⟩]⟩,
  -- KVP_PREEMPT_COUNT
  ⟨0x90028, 0x1, 1, 1, 1, true, [⟨KVP_PREEMPT_COUNT_COUNT, .ro, 0⟩]⟩,
  -- KVP_SWAP_OUT_BYTES
  ⟨0x90030, 0x1, 1, 1, 1, true, [⟨KVP_SWAP_OUT_BYTES_BYTES, .ro, 0⟩]⟩,
  -- KVP_SWAP_IN_BYTES
  ⟨0x90038, 0x1, 1, 1, 1, true, [⟨KVP_SWAP_IN_BYTES_BYTES, .ro, 0⟩]⟩,
  -- KVP_LAST_PREEMPT
  ⟨0x90040, 0x1, 1, 1, 1, false, [⟨KVP_LAST_PREEMPT_VICTIM, .ro, 0⟩, ⟨KVP_LAST_PREEMPT_FRAMES_FREED, .ro, 0⟩]⟩,
  -- KVP_ERR_STATUS
  ⟨0x90044, 0x1, 1, 1, 1, false, [⟨KVP_ERR_STATUS_IMAGE_REJECTED, .w1c, 0⟩, ⟨KVP_ERR_STATUS_SHARED_WRITE, .w1c, 0⟩, ⟨KVP_ERR_STATUS_PFT_WRITE_REFUSED, .w1c, 0⟩, ⟨KVP_ERR_STATUS_NO_VICTIM, .w1c, 0⟩]⟩,
  -- KVP_ERR_INFO
  ⟨0x90048, 0x1, 1, 1, 1, false, [⟨KVP_ERR_INFO_SEQ_ID, .ro, 0⟩, ⟨KVP_ERR_INFO_FRAME, .ro, 0⟩]⟩]

/-- R211. -/
def stnRows : List RegRow := [
  -- STN_CTRL
  ⟨0x70000, 0x1, 1, 1, 1, false, [⟨STN_CTRL_ENABLE, .rw, 0⟩, ⟨STN_CTRL_CLUSTER, .rwl, 0⟩, ⟨STN_CTRL_CTX, .rwl, 0⟩]⟩,
  -- STN_STATUS
  ⟨0x70004, 0x1, 1, 1, 1, false, [⟨STN_STATUS_RUNNING, .ro, 0⟩, ⟨STN_STATUS_MODELS, .ro, 0⟩, ⟨STN_STATUS_CHANNELS, .ro, 0⟩]⟩,
  -- STN_WINDOWS
  ⟨0x70008, 0x1, 1, 1, 1, true, [⟨STN_WINDOWS_COUNT, .ro, 0⟩]⟩,
  -- STN_RECORDS
  ⟨0x70010, 0x1, 1, 1, 1, true, [⟨STN_RECORDS_COUNT, .ro, 0⟩]⟩,
  -- STN_DROPPED
  ⟨0x70018, 0x1, 1, 1, 1, true, [⟨STN_DROPPED_COUNT, .ro, 0⟩]⟩,
  -- STN_LAT_MAX
  ⟨0x70020, 0x1, 1, 1, 1, false, [⟨STN_LAT_MAX_TIME, .ro, 0⟩]⟩,
  -- STN_LAT_OVER
  ⟨0x70024, 0x1, 1, 1, 1, false, [⟨STN_LAT_OVER_COUNT, .ro, 0⟩]⟩,
  -- STN_ERR_STATUS
  ⟨0x70028, 0x1, 1, 1, 1, false, [⟨STN_ERR_STATUS_TRACKER_SAT, .w1c, 0⟩, ⟨STN_ERR_STATUS_SETUP_REFUSED, .w1c, 0⟩, ⟨STN_ERR_STATUS_DOORBELL_DROPPED, .w1c, 0⟩, ⟨STN_ERR_STATUS_HOST_READ_ERR, .w1c, 0⟩, ⟨STN_ERR_STATUS_MODEL_FAULT, .w1c, 0⟩, ⟨STN_ERR_STATUS_STATE_UNCORR, .w1c, 0⟩, ⟨STN_ERR_STATUS_OVERRUN, .w1c, 0⟩]⟩,
  -- STN_ERR_INFO
  ⟨0x7002C, 0x1, 1, 1, 1, false, [⟨STN_ERR_INFO_CHANNEL, .ro, 0⟩]⟩,
  -- STN_CHAN_SELECT
  ⟨0x70030, 0x1, 1, 1, 1, false, [⟨STN_CHAN_SELECT_CHANNEL, .rw, 0⟩]⟩,
  -- STN_CHAN_STATUS
  ⟨0x70038, 0x1, 1, 1, 1, true, [⟨STN_CHAN_STATUS_VERDICT, .ro, 0⟩, ⟨STN_CHAN_STATUS_ENABLED, .ro, 0⟩, ⟨STN_CHAN_STATUS_CONFIGURED, .ro, 0⟩, ⟨STN_CHAN_STATUS_QUEUED, .ro, 0⟩, ⟨STN_CHAN_STATUS_PENDING, .ro, 0⟩, ⟨STN_CHAN_STATUS_ABOVE, .ro, 0⟩, ⟨STN_CHAN_STATUS_TRIP_N, .ro, 0⟩, ⟨STN_CHAN_STATUS_BELOW, .ro, 0⟩, ⟨STN_CHAN_STATUS_LAST_SEQ, .ro, 0⟩]⟩,
  -- STN_CHAN_COUNTS
  ⟨0x70040, 0x1, 1, 1, 1, true, [⟨STN_CHAN_COUNTS_TRACKED, .ro, 0⟩, ⟨STN_CHAN_COUNTS_INVALID_RUN, .ro, 0⟩, ⟨STN_CHAN_COUNTS_GAPS, .ro, 0⟩, ⟨STN_CHAN_COUNTS_OVERRUNS, .ro, 0⟩, ⟨STN_CHAN_COUNTS_STATE_ERRS, .ro, 0⟩]⟩,
  -- STN_CHAN_ESTIMATE
  ⟨0x70048, 0x1, 1, 1, 1, false, [⟨STN_CHAN_ESTIMATE_E, .ro, 0⟩]⟩,
  -- STN_CHAN_SCORE
  ⟨0x7004C, 0x1, 1, 1, 1, false, [⟨STN_CHAN_SCORE_SCORE, .ro, 0⟩]⟩]

/-- R231. -/
def vcdRows : List RegRow := [
  -- VCD_STATUS
  ⟨0x80000, 0x1, 1, 1, 1, false, [⟨VCD_STATUS_ACTIVE, .ro, 0⟩, ⟨VCD_STATUS_STREAM, .ro, 0⟩, ⟨VCD_STATUS_CTX, .ro, 0⟩, ⟨VCD_STATUS_CORES_BUSY, .ro, 0⟩, ⟨VCD_STATUS_STREAMS, .ro, 0⟩]⟩,
  -- VCD_PICTURES
  ⟨0x80008, 0x1, 1, 1, 1, true, [⟨VCD_PICTURES_COUNT, .ro, 0⟩]⟩,
  -- VCD_CONCEALED
  ⟨0x80010, 0x1, 1, 1, 1, true, [⟨VCD_CONCEALED_UNITS, .ro, 0⟩]⟩,
  -- VCD_SKIPPED
  ⟨0x80018, 0x1, 1, 1, 1, false, [⟨VCD_SKIPPED_COUNT, .ro, 0⟩]⟩,
  -- VCD_ERR_STATUS
  ⟨0x8001C, 0x1, 1, 1, 1, false, [⟨VCD_ERR_STATUS_PARAM_DISCARDED, .w1c, 0⟩, ⟨VCD_ERR_STATUS_UNSUPPORTED, .w1c, 0⟩, ⟨VCD_ERR_STATUS_NO_SLOT, .w1c, 0⟩, ⟨VCD_ERR_STATUS_SKIPPED, .w1c, 0⟩, ⟨VCD_ERR_STATUS_CONCEALED, .w1c, 0⟩, ⟨VCD_ERR_STATUS_MEM_UNCORR, .w1c, 0⟩]⟩,
  -- VCD_ERR_INFO
  ⟨0x80020, 0x1, 1, 1, 1, false, [⟨VCD_ERR_INFO_STREAM, .ro, 0⟩]⟩,
  -- VCD_STREAM_SELECT
  ⟨0x80024, 0x1, 1, 1, 1, false, [⟨VCD_STREAM_SELECT_STREAM, .rw, 0⟩]⟩,
  -- VCD_STREAM_INFO
  ⟨0x80028, 0x1, 1, 1, 1, true, [⟨VCD_STREAM_INFO_REGISTERED, .ro, 0⟩, ⟨VCD_STREAM_INFO_ENCODE, .ro, 0⟩, ⟨VCD_STREAM_INFO_CODEC, .ro, 0⟩, ⟨VCD_STREAM_INFO_CTX, .ro, 0⟩, ⟨VCD_STREAM_INFO_SLOTS_IN_USE, .ro, 0⟩, ⟨VCD_STREAM_INFO_PICTURES, .ro, 0⟩]⟩,
  -- VCD_STREAM_CPB
  ⟨0x80030, 0x1, 1, 1, 1, false, [⟨VCD_STREAM_CPB_FULLNESS, .ro, 0⟩]⟩]

/-- Registers of one memory channel, offsets in its window (R261). -/
def memRows : List RegRow := [
  -- MEM_STATUS
  ⟨0x0, 0x1, 1, 1, 1, false, [⟨MEM_STATUS_TRAINED, .ro, 0⟩, ⟨MEM_STATUS_TRAIN_FAIL, .ro, 0⟩, ⟨MEM_STATUS_FULL_TRAIN, .ro, 0⟩, ⟨MEM_STATUS_PATROL_RUN, .ro, 0⟩, ⟨MEM_STATUS_TRAIN_MS, .ro, 0⟩]⟩,
  -- MEM_ECC_COUNT
  ⟨0x8, 0x1, 1, 1, 1, true, [⟨MEM_ECC_COUNT_CORRECTED, .ro, 0⟩]⟩,
  -- MEM_UE_COUNT
  ⟨0x10, 0x1, 1, 1, 1, false, [⟨MEM_UE_COUNT_PATROL, .ro, 0⟩, ⟨MEM_UE_COUNT_DEMAND, .ro, 0⟩]⟩,
  -- MEM_UE_ADDR
  ⟨0x18, 0x1, 1, 1, 1, true, [⟨MEM_UE_ADDR_VALID, .w1c, 0⟩, ⟨MEM_UE_ADDR_FROM_PATROL, .ro, 0⟩, ⟨MEM_UE_ADDR_CTX, .ro, 0⟩, ⟨MEM_UE_ADDR_LOCAL_ADDR, .ro, 0⟩]⟩,
  -- MEM_PATROL
  ⟨0x20, 0x1, 1, 1, 1, false, [⟨MEM_PATROL_ENABLE, .rwl, 1⟩, ⟨MEM_PATROL_HOURS, .rwl, 0x18⟩]⟩,
  -- MEM_PATROL_DONE
  ⟨0x24, 0x1, 1, 1, 1, false, [⟨MEM_PATROL_DONE_PASSES, .ro, 0⟩]⟩]

/-- R262. -/
def hifRows : List RegRow := [
  -- HIF_STATUS
  ⟨0x10000, 0x1, 1, 1, 1, false, [⟨HIF_STATUS_READY, .ro, 0⟩, ⟨HIF_STATUS_LINK_UP, .ro, 0⟩, ⟨HIF_STATUS_NARROW, .ro, 0⟩, ⟨HIF_STATUS_WIDTH, .ro, 0⟩, ⟨HIF_STATUS_SPEED, .ro, 0⟩, ⟨HIF_STATUS_NUM_VF, .ro, 0⟩]⟩,
  -- HIF_CTRL
  ⟨0x10008, 0x1, 1, 1, 1, false, [⟨HIF_CTRL_RO_EN, .rwl, 0⟩, ⟨HIF_CTRL_UE_LIMIT, .rwl, 1⟩]⟩,
  -- HIF_ERR_STATUS
  ⟨0x10010, 0x1, 1, 1, 1, false, [⟨HIF_ERR_STATUS_MGMT_DOORBELL, .w1c, 0⟩, ⟨HIF_ERR_STATUS_MGMT_CONFIG, .w1c, 0⟩, ⟨HIF_ERR_STATUS_HOST_READ_ERR, .w1c, 0⟩, ⟨HIF_ERR_STATUS_MGMT_HALTED, .w1c, 0⟩, ⟨HIF_ERR_STATUS_LINK_DOWN, .w1c, 0⟩, ⟨HIF_ERR_STATUS_VF_FLR, .w1c, 0⟩, ⟨HIF_ERR_STATUS_PF_FLR, .w1c, 0⟩, ⟨HIF_ERR_STATUS_UE_FAILOVER, .w1c, 0⟩]⟩,
  -- HIF_ERR_INFO
  ⟨0x10014, 0x1, 1, 1, 1, false, [⟨HIF_ERR_INFO_FUNCTION, .ro, 0⟩]⟩,
  -- HIF_MGMT_SQ
  ⟨0x10020, 0x1, 1, 1, 1, true, [⟨HIF_SQ_BASE, .rw, 0⟩, ⟨HIF_SQ_HALTED, .ro, 0⟩, ⟨HIF_SQ_ENABLE, .rw, 0⟩, ⟨HIF_SQ_LOG2_ENTRIES, .rw, 4⟩]⟩,
  -- HIF_MGMT_CQ
  ⟨0x10028, 0x1, 1, 1, 1, true, [⟨HIF_CQ_BASE, .rw, 0⟩, ⟨HIF_CQ_INTR_EN, .rw, 0⟩, ⟨HIF_CQ_VECTOR, .rw, 0⟩]⟩,
  -- HIF_CTX_STATUS
  ⟨0x18000, 0x400, 32, 1, 1, false, [⟨HIF_CTX_STATUS_VF_SERVED, .ro, 0⟩, ⟨HIF_CTX_STATUS_SCRUBBING, .ro, 0⟩, ⟨HIF_CTX_STATUS_HOLDS_PART, .ro, 0⟩, ⟨HIF_CTX_STATUS_CTX, .ro, 0⟩, ⟨HIF_CTX_STATUS_RINGS_ON, .ro, 0⟩]⟩,
  -- HIF_VERSION_SUPPORTED
  ⟨0x18004, 0x400, 32, 1, 1, false, [⟨HIF_VERSION_SUPPORTED_MASK, .ro, 6⟩]⟩,
  -- HIF_VERSION_SELECT
  ⟨0x18008, 0x400, 32, 1, 1, false, [⟨HIF_VERSION_SELECT_VERSION, .rw, 1⟩]⟩,
  -- HIF_CTX_SQ0
  ⟨0x18010, 0x400, 32, 1, 1, true, [⟨HIF_SQ_BASE, .rw, 0⟩, ⟨HIF_SQ_HALTED, .ro, 0⟩, ⟨HIF_SQ_ENABLE, .rw, 0⟩, ⟨HIF_SQ_LOG2_ENTRIES, .rw, 4⟩]⟩,
  -- HIF_CTX_CQ0
  ⟨0x18018, 0x400, 32, 1, 1, true, [⟨HIF_CQ_BASE, .rw, 0⟩, ⟨HIF_CQ_INTR_EN, .rw, 0⟩, ⟨HIF_CQ_VECTOR, .rw, 0⟩]⟩,
  -- HIF_CTX_ERR_STATUS
  ⟨0x18020, 0x400, 32, 1, 1, false, [⟨HIF_CTX_ERR_STATUS_VERSION_WRITE, .w1c, 0⟩, ⟨HIF_CTX_ERR_STATUS_RING_CONFIG, .w1c, 0⟩, ⟨HIF_CTX_ERR_STATUS_DOORBELL_DROPPED, .w1c, 0⟩, ⟨HIF_CTX_ERR_STATUS_TAIL_RANGE, .w1c, 0⟩, ⟨HIF_CTX_ERR_STATUS_FETCH_ERR, .w1c, 0⟩, ⟨HIF_CTX_ERR_STATUS_HALT, .w1c, 0⟩]⟩,
  -- HIF_CTX_ERR_INFO
  ⟨0x18024, 0x400, 32, 1, 1, false, [⟨HIF_CTX_ERR_INFO_RING, .ro, 0⟩]⟩,
  -- HIF_CTX_HALTED
  ⟨0x18030, 0x400, 32, 4, 4, false, [⟨HIF_CTX_HALTED_RINGS, .ro, 0⟩]⟩,
  -- HIF_CTX_MON_CNT
  ⟨0x18100, 0x400, 32, 8, 16, true, [⟨MON_CNT_SATURATED, .ro, 0⟩, ⟨MON_CNT_COUNT, .ro, 0⟩]⟩]

/-- R282. -/
def secRows : List RegRow := [
  -- SEC_STATUS
  ⟨0x20000, 0x1, 1, 1, 1, false, [⟨SEC_STATUS_READY, .ro, 0⟩, ⟨SEC_STATUS_RNG_OK, .ro, 0⟩, ⟨SEC_STATUS_BUSY, .ro, 0⟩, ⟨SEC_STATUS_QUEUED, .ro, 0⟩]⟩,
  -- SEC_FUSE_STATE
  ⟨0x20008, 0x1, 1, 1, 1, true, [⟨SEC_FUSE_STATE_KEY_CLASS, .ro, 0⟩, ⟨SEC_FUSE_STATE_FW_ROOT_VALID, .ro, 0⟩, ⟨SEC_FUSE_STATE_LINK_KEY_VALID, .ro, 0⟩, ⟨SEC_FUSE_STATE_ATTEST_SEED_VALID, .ro, 0⟩, ⟨SEC_FUSE_STATE_KEM_SEED_VALID, .ro, 0⟩, ⟨SEC_FUSE_STATE_DEVICE_SECRET_VALID, .ro, 0⟩, ⟨SEC_FUSE_STATE_DEBUG_CLOSED, .ro, 0⟩]⟩,
  -- SEC_FW_MIN_SVN
  ⟨0x20010, 0x1, 1, 1, 1, false, [⟨SEC_FW_MIN_SVN_SVN, .ro, 0⟩]⟩,
  -- SEC_DEBUG_PERMIT
  ⟨0x20014, 0x1, 1, 1, 1, false, [⟨SEC_DEBUG_PERMIT_PERMIT, .ro, 0⟩]⟩,
  -- SEC_ERR_STATUS
  ⟨0x20018, 0x1, 1, 1, 1, false, [⟨SEC_ERR_STATUS_RNG_FAIL, .w1c, 0⟩, ⟨SEC_ERR_STATUS_SCHEDULE_REFUSED, .w1c, 0⟩, ⟨SEC_ERR_STATUS_GRANT_REFUSED, .w1c, 0⟩, ⟨SEC_ERR_STATUS_PROTECTED_ACCESS, .w1c, 0⟩, ⟨SEC_ERR_STATUS_IMPORT_TAG_FAIL, .w1c, 0⟩, ⟨SEC_ERR_STATUS_KEY_REJECTED, .w1c, 0⟩, ⟨SEC_ERR_STATUS_SELFTEST_FAIL, .w1c, 0⟩]⟩,
  -- SEC_ERR_INFO
  ⟨0x2001C, 0x1, 1, 1, 1, false, [⟨SEC_ERR_INFO_CTX, .ro, 0⟩]⟩,
  -- SEC_REPORTS
  ⟨0x20020, 0x1, 1, 1, 1, false, [⟨SEC_REPORTS_COUNT, .ro, 0⟩]⟩,
  -- SEC_SWITCH_LAST
  ⟨0x20024, 0x1, 1, 1, 1, false, [⟨SEC_SWITCH_PART, .ro, 0⟩, ⟨SEC_SWITCH_CTX, .ro, 0⟩, ⟨SEC_SWITCH_TIME, .ro, 0⟩]⟩,
  -- SEC_SWITCH_MAX
  ⟨0x20028, 0x1, 1, 1, 1, false, [⟨SEC_SWITCH_PART, .ro, 0⟩, ⟨SEC_SWITCH_CTX, .ro, 0⟩, ⟨SEC_SWITCH_TIME, .ro, 0⟩]⟩,
  -- SEC_PART
  ⟨0x20040, 0x4, 8, 1, 1, false, [⟨SEC_PART_VALID, .ro, 0⟩, ⟨SEC_PART_SENTINEL, .ro, 0⟩, ⟨SEC_PART_SWITCHING, .ro, 0⟩, ⟨SEC_PART_CURRENT_VALID, .ro, 0⟩, ⟨SEC_PART_CURRENT_CTX, .ro, 0⟩, ⟨SEC_PART_SLICE, .ro, 0⟩, ⟨SEC_PART_CLUSTERS, .ro, 0⟩]⟩,
  -- SEC_PART_CTX
  ⟨0x20060, 0x4, 8, 1, 1, false, [⟨SEC_PART_CTX_CTX_MASK, .ro, 0⟩]⟩,
  -- SEC_CTX
  ⟨0x20100, 0x4, 32, 1, 1, false, [⟨SEC_CTX_OWNER_KEY, .ro, 0⟩, ⟨SEC_CTX_DEBUG_PERMIT, .ro, 0⟩, ⟨SEC_CTX_HOLDS_PART, .ro, 0⟩, ⟨SEC_CTX_CURRENT, .ro, 0⟩, ⟨SEC_CTX_PARTITION, .ro, 0⟩, ⟨SEC_CTX_KEY_VALID, .ro, 0⟩, ⟨SEC_CTX_PROT_REGIONS, .ro, 0⟩]⟩,
  -- SEC_TENANCY
  ⟨0x20200, 0x8, 32, 1, 1, true, [⟨SEC_TENANCY_TENANCY, .ro, 0⟩]⟩,
  -- SEC_GRANT
  ⟨0x21000, 0x80, 32, 8, 16, true, [⟨SEC_REGION_VALID, .ro, 0⟩, ⟨SEC_REGION_LEN_2M, .ro, 0⟩, ⟨SEC_REGION_BASE_2M, .ro, 0⟩]⟩,
  -- SEC_PROT
  ⟨0x22000, 0x80, 32, 8, 16, true, [⟨SEC_REGION_VALID, .ro, 0⟩, ⟨SEC_REGION_LEN_2M, .ro, 0⟩, ⟨SEC_REGION_BASE_2M, .ro, 0⟩, ⟨SEC_PROT_KEY_SLOT, .ro, 0⟩]⟩]

/-- R310. -/
def pwrRows : List RegRow := [
  -- PWR_MODE
  ⟨0x30000, 0x1, 1, 1, 1, false, [⟨PWR_MODE_PENDING, .ro, 0⟩, ⟨PWR_MODE_MODE, .ro, 0⟩]⟩,
  -- PWR_STATUS
  ⟨0x30004, 0x1, 1, 1, 1, false, [⟨PWR_STATUS_GATE, .ro, 0⟩, ⟨PWR_STATUS_PAUSE, .ro, 0⟩, ⟨PWR_STATUS_SUPPLY_HOLD, .ro, 0⟩, ⟨PWR_STATUS_AIR_STOP, .ro, 0⟩, ⟨PWR_STATUS_SENSOR_FAULT, .ro, 0⟩, ⟨PWR_STATUS_PRIMARY, .ro, 0⟩, ⟨PWR_STATUS_PRIMARY_VALID, .ro, 0⟩]⟩,
  -- PWR_THROTTLE_REASON
  ⟨0x30008, 0x1, 1, 1, 1, false, [⟨PWR_THROTTLE_REASON_ACTIVE, .ro, 0⟩, ⟨PWR_THROTTLE_REASON_BINDING, .ro, 0⟩]⟩,
  -- PWR_THROTTLE_SEEN
  ⟨0x3000C, 0x1, 1, 1, 1, false, [⟨PWR_THROTTLE_SEEN_SEEN, .w1c, 0⟩]⟩,
  -- PWR_THROTTLE_US
  ⟨0x30010, 0x8, 8, 1, 1, true, [⟨PWR_THROTTLE_US_MICROSECONDS, .ro, 0⟩]⟩,
  -- PWR_THROTTLE_TOTAL_US
  ⟨0x30050, 0x1, 1, 1, 1, true, [⟨PWR_THROTTLE_TOTAL_US_MICROSECONDS, .ro, 0⟩]⟩,
  -- PWR_INPUT
  ⟨0x30058, 0x1, 1, 1, 1, false, [⟨PWR_INPUT_VOLTAGE, .ro, 0⟩, ⟨PWR_INPUT_CURRENT, .ro, 0⟩]⟩,
  -- PWR_POWER
  ⟨0x3005C, 0x1, 1, 1, 1, false, [⟨PWR_POWER_P_1MS, .ro, 0⟩, ⟨PWR_POWER_P_100MS, .ro, 0⟩]⟩,
  -- PWR_LIMITS
  ⟨0x30060, 0x1, 1, 1, 1, false, [⟨PWR_LIMITS_EXT_CAP, .ro, 0⟩, ⟨PWR_LIMITS_BUDGET, .ro, 0x15e⟩]⟩,
  -- PWR_POLICY
  ⟨0x30064, 0x1, 1, 1, 1, false, [⟨PWR_POLICY_AIR_STOP_S, .rwl, 0x3c⟩, ⟨PWR_POLICY_HINT_EN, .rwl, 1⟩]⟩,
  -- PWR_SUPPLY_LAST
  ⟨0x30068, 0x1, 1, 1, 1, true, [⟨PWR_SUPPLY_LAST_MIN_VOLTAGE, .ro, 0⟩, ⟨PWR_SUPPLY_LAST_COUNT, .ro, 0⟩, ⟨PWR_SUPPLY_LAST_DURATION_US, .ro, 0⟩]⟩,
  -- PWR_AIRFLOW
  ⟨0x30070, 0x1, 1, 1, 1, false, [⟨PWR_AIRFLOW_AF_SLOW, .ro, 0⟩, ⟨PWR_AIRFLOW_AF_FAST, .ro, 0⟩]⟩,
  -- PWR_RTH
  ⟨0x30074, 0x1, 1, 1, 1, false, [⟨PWR_RTH_R_EST, .ro, 0⟩, ⟨PWR_RTH_R_REF, .ro, 0⟩]⟩,
  -- PWR_TEMPS
  ⟨0x30078, 0x1, 1, 1, 1, false, [⟨PWR_TEMPS_TJ_MAX, .ro, 0⟩, ⟨PWR_TEMPS_INLET, .ro, 0⟩, ⟨PWR_TEMPS_OUTLET, .ro, 0⟩, ⟨PWR_TEMPS_FIN, .ro, 0⟩]⟩,
  -- PWR_SHUTDOWN
  ⟨0x3007C, 0x1, 1, 1, 1, false, [⟨PWR_SHUTDOWN_PENDING, .ro, 0⟩, ⟨PWR_SHUTDOWN_CAUSE, .ro, 0⟩, ⟨PWR_SHUTDOWN_SHUTTING, .ro, 0⟩, ⟨PWR_SHUTDOWN_LEFT, .ro, 0⟩]⟩,
  -- PWR_TRIP
  ⟨0x30080, 0x1, 1, 1, 1, false, [⟨PWR_TRIP_TRIPPED, .w1c, 0⟩, ⟨PWR_TRIP_SENSOR, .ro, 0⟩]⟩,
  -- PWR_HINTS
  ⟨0x30088, 0x1, 1, 1, 1, true, [⟨PWR_HINTS_APPLIED, .ro, 0⟩, ⟨PWR_HINTS_WITHDRAWN, .ro, 0⟩]⟩,
  -- PWR_CLU
  ⟨0x30100, 0x8, 8, 1, 1, true, [⟨PWR_CLU_VOLTAGE_MV, .ro, 0⟩, ⟨PWR_CLU_FREQ_CAP, .ro, 0⟩, ⟨PWR_CLU_PAUSE, .ro, 0⟩, ⟨PWR_CLU_MARGIN_CLASS, .ro, 0⟩, ⟨PWR_CLU_TJ, .ro, 0⟩, ⟨PWR_CLU_GUARD_MV, .ro, 0⟩, ⟨PWR_CLU_BINDING, .ro, 0⟩, ⟨PWR_CLU_SENTINEL, .ro, 0⟩]⟩,
  -- PWR_DROOP
  ⟨0x30140, 0x8, 8, 1, 1, true, [⟨PWR_DROOP_EVENTS, .ro, 0⟩, ⟨PWR_DROOP_STRETCHED, .ro, 0⟩]⟩,
  -- PWR_PART_ENERGY
  ⟨0x30200, 0x8, 8, 1, 1, true, [⟨PWR_ENERGY_MICROJOULES, .ro, 0⟩]⟩,
  -- PWR_TOTAL_ENERGY
  ⟨0x30240, 0x1, 1, 1, 1, true, [⟨PWR_ENERGY_MICROJOULES, .ro, 0⟩]⟩,
  -- PWR_SHARED_ENERGY
  ⟨0x30248, 0x1, 1, 1, 1, true, [⟨PWR_ENERGY_MICROJOULES, .ro, 0⟩]⟩,
  -- PWR_CTX_ENERGY
  ⟨0x30300, 0x8, 32, 1, 1, true, [⟨PWR_ENERGY_MICROJOULES, .ro, 0⟩]⟩]

/-- R340. -/
def olpRows : List RegRow := [
  -- OLP_ROLE
  ⟨0x50000, 0x1, 1, 1, 1, false, [⟨OLP_ROLE_ROLE, .ro, 0⟩, ⟨OLP_ROLE_PARTNER_UP, .ro, 0⟩, ⟨OLP_ROLE_HEALTH_OK, .ro, 0⟩, ⟨OLP_ROLE_PARTNER_HEALTH_OK, .ro, 0⟩, ⟨OLP_ROLE_SWAP_DUE, .ro, 0⟩, ⟨OLP_ROLE_GATE, .ro, 0⟩, ⟨OLP_ROLE_SWITCHES, .ro, 0⟩]⟩,
  -- OLP_CLAIM
  ⟨0x50004, 0x1, 1, 1, 1, false, [⟨OLP_CLAIM_EPOCH, .ro, 0⟩, ⟨OLP_CLAIM_PREFERENCE, .ro, 0⟩]⟩,
  -- OLP_PARTNER_CLAIM
  ⟨0x50008, 0x1, 1, 1, 1, false, [⟨OLP_CLAIM_EPOCH, .ro, 0⟩, ⟨OLP_CLAIM_PREFERENCE, .ro, 0⟩]⟩,
  -- OLP_PAIR
  ⟨0x5000C, 0x1, 1, 1, 1, false, [⟨OLP_PAIR_PAIRED, .ro, 0⟩, ⟨OLP_PAIR_REVERT_EN, .ro, 0⟩, ⟨OLP_PAIR_ROLE_GATE, .ro, 0⟩, ⟨OLP_PAIR_DIGEST_EN, .ro, 0⟩, ⟨OLP_PAIR_EPOCH_HIGH, .ro, 0⟩, ⟨OLP_PAIR_SWAP_PERIOD_H, .ro, 0x18⟩, ⟨OLP_PAIR_PREFERENCE, .ro, 0⟩]⟩,
  -- OLP_CASCADE
  ⟨0x50010, 0x1, 1, 1, 1, false, [⟨OLP_CASCADE_FORMED, .ro, 0⟩, ⟨OLP_CASCADE_DEGRADED, .ro, 0⟩, ⟨OLP_CASCADE_STANDBY_CASCADE, .ro, 0⟩, ⟨OLP_CASCADE_SIZE, .ro, 0⟩, ⟨OLP_CASCADE_POSITION, .ro, 0⟩, ⟨OLP_CASCADE_WINDOWS, .ro, 0⟩]⟩,
  -- OLP_HEALTH
  ⟨0x50018, 0x1, 1, 1, 1, true, [⟨OLP_HEALTH_COMPARED, .ro, 0⟩, ⟨OLP_HEALTH_MISMATCHES, .ro, 0⟩, ⟨OLP_HEALTH_SKIPPED, .ro, 0⟩]⟩,
  -- OLP_SWITCH_LAST
  ⟨0x50020, 0x1, 1, 1, 1, true, [⟨OLP_SWITCH_LAST_FROM, .ro, 0⟩, ⟨OLP_SWITCH_LAST_TO, .ro, 0⟩, ⟨OLP_SWITCH_LAST_CAUSE, .ro, 0⟩, ⟨OLP_SWITCH_LAST_GAP, .ro, 0⟩]⟩,
  -- OLP_ERR_STATUS
  ⟨0x50028, 0x1, 1, 1, 1, false, [⟨OLP_ERR_STATUS_SWAP_DEFERRED, .w1c, 0⟩, ⟨OLP_ERR_STATUS_SWAP_REFUSED, .w1c, 0⟩, ⟨OLP_ERR_STATUS_WINDOW_OVERRUN, .w1c, 0⟩, ⟨OLP_ERR_STATUS_PAIR_REFUSED, .w1c, 0⟩, ⟨OLP_ERR_STATUS_CABLING_FAULT, .w1c, 0⟩, ⟨OLP_ERR_STATUS_TAG_FAIL, .w1c, 0⟩, ⟨OLP_ERR_STATUS_AUTH_FAIL, .w1c, 0⟩, ⟨OLP_ERR_STATUS_VERSION_REFUSED, .w1c, 0⟩, ⟨OLP_ERR_STATUS_LANE_LOST, .w1c, 0⟩, ⟨OLP_ERR_STATUS_SPLIT_SEEN, .w1c, 0⟩, ⟨OLP_ERR_STATUS_DIGEST_MISMATCH, .w1c, 0⟩]⟩,
  -- OLP_ERR_INFO
  ⟨0x5002C, 0x1, 1, 1, 1, false, [⟨OLP_ERR_INFO_PORT, .ro, 0⟩]⟩,
  -- OLP_PORT_STATUS
  ⟨0x50100, 0x40, 3, 1, 1, false, [⟨OLP_PORT_STATUS_STATE, .ro, 0⟩, ⟨OLP_PORT_STATUS_LANES, .ro, 0⟩, ⟨OLP_PORT_STATUS_LANE_MASK, .ro, 0⟩, ⟨OLP_PORT_STATUS_VERSION, .ro, 0⟩, ⟨OLP_PORT_STATUS_WIN_HI, .ro, 0⟩, ⟨OLP_PORT_STATUS_RETRAINS, .ro, 0⟩]⟩,
  -- OLP_PORT_PEER
  ⟨0x50108, 0x40, 3, 1, 1, true, [⟨OLP_PORT_PEER_SERIAL, .ro, 0⟩]⟩,
  -- OLP_PORT_TX_BYTES
  ⟨0x50110, 0x40, 3, 1, 1, true, [⟨OLP_PORT_BYTES, .ro, 0⟩]⟩,
  -- OLP_PORT_RX_BYTES
  ⟨0x50118, 0x40, 3, 1, 1, true, [⟨OLP_PORT_BYTES, .ro, 0⟩]⟩,
  -- OLP_PORT_REPLAYS
  ⟨0x50120, 0x40, 3, 1, 1, false, [⟨OLP_PORT_REPLAYS_FRAMES, .ro, 0⟩]⟩]

/-- R341. -/
def vrdRows : List RegRow := [
  -- VRD_STATUS
  ⟨0x60000, 0x1, 1, 1, 1, false, [⟨VRD_STATUS_TX_ON, .ro, 0⟩, ⟨VRD_STATUS_LINES, .ro, 0⟩, ⟨VRD_STATUS_FRAME_NO, .ro, 0⟩]⟩,
  -- VRD_FRAMES
  ⟨0x60008, 0x1, 1, 1, 1, true, [⟨VRD_FRAMES_COUNT, .ro, 0⟩]⟩,
  -- VRD_HELD
  ⟨0x60010, 0x1, 1, 1, 1, true, [⟨VRD_HELD_COUNT, .ro, 0⟩]⟩,
  -- VRD_RESYNC
  ⟨0x60018, 0x1, 1, 1, 1, true, [⟨VRD_RESYNC_COUNT, .ro, 0⟩]⟩,
  -- VRD_CLAIM
  ⟨0x60020, 0x1, 1, 1, 1, false, [⟨VRD_CLAIM_CLAIM, .ro, 0⟩]⟩]

/-- R370. -/
def mgtRows : List RegRow := [
  -- MGT_STATE
  ⟨0xB0000, 0x1, 1, 1, 1, false, [⟨MGT_STATE_PHASE, .ro, 0⟩, ⟨MGT_STATE_MANAGER, .ro, 0⟩, ⟨MGT_STATE_RELAY_UP, .ro, 0⟩, ⟨MGT_STATE_RELAY_DOWN, .ro, 0⟩, ⟨MGT_STATE_MOVING, .ro, 0⟩, ⟨MGT_STATE_RESERVE_OK, .ro, 0⟩, ⟨MGT_STATE_OWNER_LOCK, .ro, 0⟩, ⟨MGT_STATE_SLOT, .ro, 0⟩, ⟨MGT_STATE_START_FAIL, .ro, 0⟩]⟩,
  -- MGT_UPDATE
  ⟨0xB0008, 0x1, 1, 1, 1, true, [⟨MGT_UPDATE_IMAGE_ID, .ro, 0⟩, ⟨MGT_UPDATE_STATE, .ro, 0⟩, ⟨MGT_UPDATE_REFUSE, .ro, 0⟩, ⟨MGT_UPDATE_CHUNKS, .ro, 0⟩]⟩,
  -- MGT_ARM
  ⟨0xB0010, 0x1, 1, 1, 1, true, [⟨MGT_ARM_CHANGE_ID, .ro, 0⟩, ⟨MGT_ARM_STATE, .ro, 0⟩, ⟨MGT_ARM_KIND, .ro, 0⟩, ⟨MGT_ARM_REASON, .ro, 0⟩]⟩,
  -- MGT_ARM_DIGEST
  ⟨0xB0018, 0x1, 1, 1, 1, true, [⟨MGT_ARM_DIGEST_DIGEST, .ro, 0⟩]⟩,
  -- MGT_IMAGE
  ⟨0xB0020, 0x1, 1, 1, 1, true, [⟨MGT_IMAGE_IMAGE_ID, .ro, 0⟩, ⟨MGT_IMAGE_SVN, .ro, 0⟩]⟩,
  -- MGT_SETTINGS
  ⟨0xB0028, 0x1, 1, 1, 1, false, [⟨MGT_SETTINGS_VERSION, .ro, 0⟩, ⟨MGT_SETTINGS_MIGRATED, .ro, 0⟩, ⟨MGT_SETTINGS_COPY, .ro, 0⟩, ⟨MGT_SETTINGS_DEFAULTED, .ro, 0⟩]⟩,
  -- MGT_BOOTS
  ⟨0xB002C, 0x1, 1, 1, 1, false, [⟨MGT_BOOTS_BOOTS, .ro, 0⟩, ⟨MGT_BOOTS_UNARMED, .ro, 0⟩]⟩,
  -- MGT_STROBES
  ⟨0xB0030, 0x1, 1, 1, 1, false, [⟨MGT_STROBES_EDGES, .ro, 0⟩]⟩,
  -- MGT_UPTIME
  ⟨0xB0038, 0x1, 1, 1, 1, true, [⟨MGT_UPTIME_MICROSECONDS, .ro, 0⟩]⟩]

/-- R371. -/
def monRows : List RegRow := [
  -- MON_CTRL
  ⟨0x40000, 0x1, 1, 1, 1, false, [⟨MON_CTRL_COUNT_EN, .rw, 0⟩, ⟨MON_CTRL_HIST_FREEZE, .rw, 0⟩, ⟨MON_CTRL_CLEAR_ALL, .wo, 0⟩, ⟨MON_CTRL_COMPAT, .rwl, 0⟩]⟩,
  -- MON_ERR_STATUS
  ⟨0x40004, 0x1, 1, 1, 1, false, [⟨MON_ERR_STATUS_TRACE_DROP, .w1c, 0⟩, ⟨MON_ERR_STATUS_CONFIG_BUSY, .w1c, 0⟩, ⟨MON_ERR_STATUS_COMPAT_REFUSED, .w1c, 0⟩, ⟨MON_ERR_STATUS_BAD_SELECT, .w1c, 0⟩]⟩,
  -- MON_BW_CTRL
  ⟨0x40008, 0x1, 1, 1, 1, false, [⟨MON_BW_CTRL_WINDOW, .rw, 3⟩]⟩,
  -- MON_CNT_SEL
  ⟨0x40010, 0x8, 16, 1, 1, false, [⟨MON_CNT_SEL_CTX_EN, .rw, 0⟩, ⟨MON_CNT_SEL_CTX, .rw, 0⟩, ⟨MON_CNT_SEL_UNIT_EN, .rw, 0⟩, ⟨MON_CNT_SEL_UNIT, .rw, 0⟩, ⟨MON_CNT_SEL_EVENT, .rw, 0⟩]⟩,
  -- MON_CNT
  ⟨0x40100, 0x8, 16, 1, 1, true, [⟨MON_CNT_SATURATED, .ro, 0⟩, ⟨MON_CNT_COUNT, .ro, 0⟩]⟩,
  -- MON_BW
  ⟨0x40200, 0x8, 20, 1, 1, true, [⟨MON_BW_PEAK, .ro, 0⟩, ⟨MON_BW_LAST, .ro, 0⟩]⟩,
  -- MON_HIST_CFG
  ⟨0x40400, 0x80, 8, 1, 1, true, [⟨MON_HIST_CFG_ENABLE, .rw, 0⟩, ⟨MON_HIST_CFG_LOG, .rw, 0⟩, ⟨MON_HIST_CFG_SOURCE, .rw, 0⟩, ⟨MON_HIST_CFG_CTX_EN, .rw, 0⟩, ⟨MON_HIST_CFG_CTX, .rw, 0⟩, ⟨MON_HIST_CFG_UNIT_EN, .rw, 0⟩, ⟨MON_HIST_CFG_UNIT, .rw, 0⟩, ⟨MON_HIST_CFG_WIDTH, .rw, 1⟩]⟩,
  -- MON_HIST_MINMAX
  ⟨0x40408, 0x80, 8, 1, 1, true, [⟨MON_HIST_MINMAX_MAX, .ro, 0⟩, ⟨MON_HIST_MINMAX_MIN, .ro, 0xffffffff⟩]⟩,
  -- MON_HIST_COUNT
  ⟨0x40410, 0x80, 8, 1, 1, true, [⟨MON_HIST_COUNT_SATURATED, .ro, 0⟩, ⟨MON_HIST_COUNT_COUNT, .ro, 0⟩]⟩,
  -- MON_HIST_THRESH
  ⟨0x40418, 0x80, 8, 1, 1, false, [⟨MON_HIST_THRESH_THRESH, .rw, 0xffffffff⟩]⟩,
  -- MON_HIST_OVER
  ⟨0x4041C, 0x80, 8, 1, 1, false, [⟨MON_HIST_OVER_COUNT, .ro, 0⟩]⟩,
  -- MON_HIST_DROPPED
  ⟨0x40420, 0x80, 8, 1, 1, false, [⟨MON_HIST_DROPPED_COUNT, .ro, 0⟩]⟩,
  -- MON_HIST_BIN
  ⟨0x40440, 0x80, 8, 4, 16, false, [⟨MON_HIST_BIN_COUNT, .ro, 0⟩]⟩,
  -- MON_TRACE_BASE
  ⟨0x40C00, 0x1, 1, 1, 1, true, [⟨MON_TRACE_BASE_BASE, .rw, 0⟩]⟩,
  -- MON_TRACE_CTRL
  ⟨0x40C08, 0x1, 1, 1, 1, false, [⟨MON_TRACE_CTRL_ENABLE, .rw, 0⟩, ⟨MON_TRACE_CTRL_STOP_FULL, .rw, 0⟩, ⟨MON_TRACE_CTRL_SOURCES, .rw, 0⟩, ⟨MON_TRACE_CTRL_LOG2_RECORDS, .rw, 8⟩]⟩,
  -- MON_TRACE_HEAD
  ⟨0x40C0C, 0x1, 1, 1, 1, false, [⟨MON_TRACE_HEAD_WRITTEN, .ro, 0⟩]⟩,
  -- MON_TRACE_TAIL
  ⟨0x40C10, 0x1, 1, 1, 1, false, [⟨MON_TRACE_TAIL_READ, .rw, 0⟩]⟩,
  -- MON_TRACE_DROPPED
  ⟨0x40C14, 0x1, 1, 1, 1, false, [⟨MON_TRACE_DROPPED_COUNT, .ro, 0⟩]⟩]
/-! ## Finding a register -/

/-- Does row `r` name a register at offset `off` of its block? -/
def RegRow.hits (r : RegRow) (off : Nat) : Bool :=
  decide (r.base ≤ off) && decide ((off - r.base) / r.s1 < r.n1) &&
    decide (((off - r.base) % r.s1) % r.s2 = 0) && decide (((off - r.base) % r.s1) / r.s2 < r.n2)

/-- A block of Table 8 of Module and Die Organisation (R28). -/
inductive Block where
  | glb | hif | sec | pwr | mon | olp | vrd | stn | vcd | kvp | mem (m : Nat) | mgt
  | tile (t : Nat) | hub (c : Nat) | pft
  deriving DecidableEq, Repr

/-- The block at a BAR0 offset, and the offset at which the block's own table looks (R28, Table 8);
none for a reserved part of the map. -/
def blockAt (off : Nat) : Option (Block × Nat) :=
  if off < 0x10000 then some (.glb, off)
  else if off < 0x20000 then some (.hif, off)
  else if off < 0x30000 then some (.sec, off)
  else if off < 0x40000 then some (.pwr, off)
  else if off < 0x50000 then some (.mon, off)
  else if off < 0x60000 then some (.olp, off)
  else if off < 0x70000 then some (.vrd, off)
  else if off < 0x80000 then some (.stn, off)
  else if off < 0x90000 then some (.vcd, off)
  else if off < 0xA0000 then some (.kvp, off)
  else if off < 0xAC000 then some (.mem ((off - 0xA0000) / 0x1000), (off - 0xA0000) % 0x1000)
  else if off < 0xB0000 then none
  else if off < 0xC0000 then some (.mgt, off)
  else if off < 0x1000000 then none
  else if off < 0x2000000 then some (.tile ((off - 0x1000000) / 0x40000), (off - 0x1000000) % 0x40000)
  else if off < 0x2800000 then some (.hub ((off - 0x2000000) / 0x100000), (off - 0x2000000) % 0x100000)
  else if off < 0x3000000 then none
  else if off < 0x3100000 then some (.pft, off)
  else none

/-- The register table of a block. -/
def Block.rows : Block → List RegRow
  | .glb => glbRows
  | .hif => hifRows
  | .sec => secRows
  | .pwr => pwrRows
  | .mon => monRows
  | .olp => olpRows
  | .vrd => vrdRows
  | .stn => stnRows
  | .vcd => vcdRows
  | .kvp => kvpRows
  | .mem _ => memRows
  | .mgt => mgtRows
  | .tile _ => tileRows
  | .hub _ => hubRows
  | .pft => pftRows

/-- The table row of the register at a BAR0 offset; none at a reserved offset (R28). -/
def regFind (off : Nat) : Option RegRow :=
  match blockAt off with
  | some (b, rel) => b.rows.find? (·.hits rel)
  | none => none

/-- A field's mask in its register. -/
def Bits.mask (b : Bits) : W64 := BitVec.ofNat 64 ((2 ^ (b.hi - b.lo + 1) - 1) * 2 ^ b.lo)

/-- Read a field of a word. -/
def getBits (w : W64) (b : Bits) : Nat := w.toNat / 2 ^ b.lo % 2 ^ (b.hi - b.lo + 1)

/-- Replace a field of a word; a value too wide for the field keeps its low bits. -/
def putBits (w : W64) (b : Bits) (v : Nat) : W64 :=
  (w &&& ~~~ b.mask) ||| BitVec.ofNat 64 (v % 2 ^ (b.hi - b.lo + 1) * 2 ^ b.lo)

/-- The word of a register right after a module reset (R10). -/
def rowReset (r : RegRow) : W64 := r.flds.foldl (fun w f => putBits w f.bits f.reset) 0

/-- The word at a BAR0 offset right after a module reset. -/
def regReset (off : Nat) : W64 :=
  match regFind off with
  | some r => rowReset r
  | none => 0

/-- The effect of a write on a register's fields by their access codes (R6, R7, R8): the new word, and whether a
locked RWL field was written. -/
def writeFields (locked : Bool) (v : W64) : List Fld → W64 → W64 × Bool
  | [], w => (w, false)
  | f :: fs, w =>
    let r := writeFields locked v fs w
    match f.acc with
    | .ro => r
    | .wo => r
    | .rw => (putBits r.1 f.bits (getBits v f.bits), r.2)
    | .w1c => (r.1 &&& ~~~ (v &&& f.bits.mask), r.2)
    | .rwl => if locked then (r.1, true) else (putBits r.1 f.bits (getBits v f.bits), r.2)

end Sys2Proof.Machine
end

