-- ==== Sys2Proof/Machine/State.lean ====
section
/-! DEFINITION. The state of the module as plain data. Architectural registers have their home in `State.regs`, keyed
by BAR0 offset (RegMap.lean names every register and field); a register of the map that is not listed holds its
reset value. What the spec gives the machine beside its registers stands in the structures below. A table (`Tab`)
lists only units that differ from their reset state (notes/assumptions/10.md). -/

namespace Sys2Proof.Machine

/-- No meaning of this model faults: every command has an effect or none (notes/assumptions/1.md). -/
inductive Fault where
  /-- Never raised; kept so that the type of reasons is closed and named. Safe. -/
  | none
  deriving DecidableEq, Repr

/-- Why a command has no meaning. -/
inductive Refusal where
  /-- Raised by an arm of Dispatch.lean whose command has no meaning yet. Safe: the machine stops. -/
  | notModelled (mnemonic : String)
  deriving DecidableEq, Repr

/-! ## What the module sends out -/

/-- What leaves the module: writes to host memory, interrupts, and what it drives on its links and pins. -/
inductive Out where
  /-- a posted write to host memory by function `fn` (0 PF, v VF v) -/
  | hostWrite (fn : Nat) (addr : Nat) (bytes : List Byte)
  /-- a read request to host memory by a function -/
  | hostRead (fn : Nat) (addr len : Nat)
  /-- an MSI-X message (R243) -/
  | msix (fn vector : Nat)
  /-- a Verdict Port frame (R330) -/
  | verdict (frame : List Byte)
  /-- an Olper frame on a port, as sent on the link (R316) -/
  | olper (port : Nat) (frame : List Byte)
  /-- a Relay frame: upstream or downstream, type, destination slot, HOPS and payload (R352) -/
  | relay (up : Bool) (type src dst hops : Nat) (payload : List Byte)
  /-- an event reported over I3C (R350) -/
  | event (code : Nat) (arg : Nat)
  /-- an answer to an MCTP or PLDM request (R350, R351) -/
  | answer (code : Nat) (bytes : List Byte)
  /-- a word shifted out at TDO (R380, R381) -/
  | tdo (bits : Nat) (value : Nat)
  /-- data that a bank returned to a requester (R78, R84) -/
  | bankData (bank : Nat) (who : Requester) (bytes : List Byte)
  /-- a record that the verdict merge passed on: its VERDICT or RESYNC frame (R331) -/
  | merged (frame : List Byte)
  /-- data a register access returned (R6) -/
  | regData (fn off : Nat) (value : W64)
  deriving DecidableEq, Repr

/-! ## Non-volatile state (R354, R366, Table 2 of Module and Die Organisation) -/

/-- The records of a settings copy (Table 15). -/
structure Settings where
  mode : Nat := 0
  extCap10 : Nat := 0
  epoch : Nat := 0
  pair : Option (List Byte) := none
  cascade : Option (List Byte) := none
  armTtl : Nat := 60
  ownerLock : Nat := 0
  lastChangeId : Nat := 0
  lastImageId : Nat := 0
  extCapW : Nat := 0
  /-- records of a type this firmware does not know, kept as they are (R368) -/
  other : List (Nat × List Byte) := []
  deriving DecidableEq, Repr

/-- One of the two settings copies (R366). -/
structure SetCopy where
  valid : Bool := false
  version : Nat := 3
  generation : Nat := 0
  recs : Settings := {}
  deriving DecidableEq, Repr

/-- The image region of the flash (R354, R356). -/
structure ImageRegion where
  imageId : Nat := 0
  /-- LENGTH of an image written since manufacture, none for the image of manufacture -/
  length : Option Nat := none
  complete : Bool := false
  /-- frames written since manufacture, by offset -/
  data : Tab (List Byte) := []
  deriving DecidableEq, Repr

/-- One event-log entry, stamped with uptime and boot count (R342). -/
structure LogEv where
  uptime : W64
  boots : Nat
  code : Nat
  arg : Nat
  deriving DecidableEq, Repr

/-- What survives every reset. -/
structure NonVol where
  copy0 : SetCopy := { valid := true, generation := 1 }
  copy1 : SetCopy := {}
  image : ImageRegion := { complete := true }
  /-- the rollback floor that SVN_COMMIT raised above the fused one -/
  minSvn : Nat := 0
  boots : Nat := 0
  unarmed : Nat := 0
  log : List LogEv := []
  /-- the armed image whose start completes a FW_ACTIVATE commit (R361) -/
  activating : Option (Nat × Nat) := none
  /-- draws taken from the random source since manufacture: a draw never repeats -/
  draws : Nat := 0
  /-- the certificate and the stored DDR4 training are part of the calibration region -/
  trainedFor : Option Nat := none
  /-- temperature of the DRAM devices at that training, in °C (R20) -/
  trainedTemp : Int := 0
  deriving DecidableEq, Repr

/-! ## Rings and work (R239 to R258) -/

/-- The phase of an admitted descriptor (R254, Table 13). -/
inductive WPhase where
  | waiting | running | committing
  deriving DecidableEq, Repr

/-- The state word of a descriptor (R254). `code` is Table 13's. -/
structure StateWord where
  seq : Nat
  tag : W32
  cls : Nat
  code : Nat
  status : Nat
  deriving DecidableEq, Repr

/-- A descriptor fetched and not yet admitted. -/
structure Fetched where
  seq : Nat
  desc : Desc
  /-- status that the header check of R245 gave, none when it passed -/
  header : Option Nat
  /-- an ABORT reached it before admission (R255) -/
  aborted : Bool
  deriving DecidableEq, Repr

/-- A ring pair (R239 to R243, R257). -/
structure Ring where
  exists_ : Bool := false
  enabled : Bool := false
  /-- fetching has been told to stop; admitted work still completes (R262) -/
  closing : Bool := false
  halted : Bool := false
  log2 : Nat := 4
  sqBase : W64 := 0
  cqBase : W64 := 0
  vector : Nat := 0
  intrEn : Bool := false
  holdoffUs : Nat := 0
  tail : W32 := 0
  head : W32 := 0
  cqHead : W32 := 0
  records : W32 := 0
  queue : List Fetched := []
  words : List StateWord := []
  /-- sequence numbers of descriptors that failed under CHECK of R248, in order of completion; one that comes after a
  failure already listed is not kept, since every FENCE that covers it covers that one -/
  fails : List Nat := []
  /-- sequence numbers below TAIL that an ABORT reached before they were fetched (R255) -/
  early : List Nat := []
  /-- uptime of the oldest doorbell whose first descriptor is not fetched (DESC_FETCH of R376) -/
  bellAt : Option Nat := none
  /-- an MSI-X message was sent and its hold-off has not ended -/
  holding : Bool := false
  /-- a message is due at the end of the hold-off -/
  due : Bool := false
  /-- no record is written for the ring's work any more (R235 to R237) -/
  mute : Bool := false
  /-- the RING_DELETE (ring, seq) that waits for the last record of this ring -/
  deleting : Option (Nat × Nat) := none
  deriving DecidableEq, Repr

/-- An argument slot of a KERNEL descriptor (Table 4 of Tiles, Matrix Engines and Kernel Execution). -/
structure ArgSlot where
  space : Nat
  addr : Nat
  len : Nat
  fmt : Nat
  dir : Nat
  deriving DecidableEq, Repr

/-- A barrier in use: its number, and the tiles that have arrived with their engines that have work queued (R67, R70). -/
structure BarrierUse where
  bar : Nat
  arrived : List (Nat × Nat)
  deriving DecidableEq, Repr

/-- Where work with a claim stands (Table 6 of Tiles, Matrix Engines and Kernel Execution, Table 5 of Blockwise Attention
and Speculative Verification). -/
inductive Stage where
  | claimWait | launching | running | finishing
  deriving DecidableEq, Repr

/-- A KERNEL in flight. -/
structure KernelWork where
  obj : ObjFacts
  entry : EntryDecl
  args : List ArgSlot
  /-- the 64 bytes of a convolution entry's layer record, none for other entries -/
  layer : List Byte := []
  barriers : List BarrierUse := []
  /-- how often each CASCADE barrier was released locally, and the members that have announced a generation (R321) -/
  barrierGen : Tab Nat := []
  announced : List (Nat × Nat × Nat) := []
  deriving DecidableEq, Repr

/-- A look-aside entry of a Page Walker (R171). -/
structure WalkEnt where
  ctx : Nat
  seqId : Nat
  layer : Nat
  page : Nat
  frame : Nat
  base : Nat
  kfmt : Nat
  vfmt : Nat
  kscale : Bool
  vscale : Bool
  deriving DecidableEq, Repr

/-- An ATTEND or VERIFY in flight. -/
structure AttnWork where
  /-- the blocks fetched, by item number × 512 + page, each with the translation of its page (R172) -/
  ents : Tab WalkEnt := []
  /-- of those, blocks whose frame came from the fall-back list (R160) -/
  fallbackPages : Nat := 0
  /-- the item that each placed tile is on, by physical tile -/
  items : Tab Nat := []
  deriving DecidableEq, Repr

/-- Where a SEQ operation or ACCEPT stands (R181, R182, R184): waiting for its start, for the holds of a swap-out, for
frames, or for an image that is being written. -/
inductive SeqPhase where
  | waitStart | waitHolds | waitFrames | flushing
  deriving DecidableEq, Repr

/-- A SEQ operation or ACCEPT on a named sequence (R178 to R186). -/
structure SeqWork where
  /-- the sequence named, and its registration number at admission (R181) -/
  seqId : Nat
  regNo : Nat
  phase : SeqPhase := .waitStart
  /-- the sequence being swapped out for frames (R182) -/
  victim : Option Nat := none
  /-- the draw that the image under way takes as its NONCE (R183) -/
  nonce : Nat := 0
  preempts : Nat := 0
  firstVictim : Nat := 0
  swapBytes : Nat := 0
  /-- header and page index of the image that a SWAP_IN has read and checked (R185), and the index in clear -/
  head : List Byte := []
  index : List Byte := []
  deriving DecidableEq, Repr

/-- A DECODE, ENCODE, FLUSH or UNREGISTER in flight: its stream, and the slot that a running decode writes. -/
structure PicWork where
  stream : Nat
  slot : Nat := 0
  /-- another party had written the stream's state area or a slot header when the picture started (R215) -/
  tampered : Bool := false
  deriving DecidableEq, Repr

/-- One admitted descriptor. -/
structure Work where
  ring : Nat
  seq : Nat
  cls : Nat
  op : Nat
  tag : W32
  intr : Bool
  version : Nat
  desc : Desc
  phase : WPhase
  /-- order of admission over the whole module -/
  age : Nat
  /-- ABORT descriptors (ring, seq, target state found) whose record follows this one's (R255) -/
  aborters : List (Nat × Nat × Nat) := []
  /-- uptime at admission, and the time the work gate had been closed by then (R289, R376) -/
  at_ : Nat := 0
  gate0 : Nat := 0
  stage : Stage := .claimWait
  /-- uptime from which TIMEOUT_MS counts: the release of a KERNEL or ATTN, the start of a DMA or picture, the wait of a SEQ -/
  startAt : Nat := 0
  /-- physical tiles in logical order (R59), claimed hubs, and the banks of the claim or of a DMA's hold (R250) -/
  tiles : List Nat := []
  hubs : List Nat := []
  banks : List Nat := []
  /-- sequences that the work holds (R177), with their registration numbers -/
  holds : List (Nat × Nat) := []
  kern : Option KernelWork := none
  attn : Option AttnWork := none
  seqw : Option SeqWork := none
  pic : Option PicWork := none
  /-- FENCE: the descriptors still waited on, how many there were, and the first failure (seq, ring) -/
  covered : List (Nat × Nat) := []
  coveredCount : Nat := 0
  failed : Option (Nat × Nat) := none
  deriving DecidableEq, Repr

/-- The host interface beside its registers. -/
structure HostIf where
  rings : Tab Ring := []
  works : List Work := []
  nextAge : Nat := 0
  /-- first failure (seq, ring) among the descriptors admitted for a context (R248) -/
  ctxFail : Tab (Nat × Nat) := []
  /-- what the host wrote to a function's configuration space, by 0x1000 · function + offset (R233, R234) -/
  cfg : Tab W32 := []
  /-- address and data words of the MSI-X tables, by (2048 · function + vector) · 4 + word (R233) -/
  msix : Tab W32 := []
  /-- whose turn the last fetch was: its context, 32 for the management ring, and each context's ring (R241) -/
  lastCtx : Nat := 32
  lastRing : Tab Nat := []
  /-- MSI-X vectors (fn, vector) whose mask bit the host has cleared, and those pending -/
  unmasked : List (Nat × Nat) := []
  msixPending : List (Nat × Nat) := []
  /-- uptimes of the demand uncorrectable errors of the last hour (R259) -/
  ueTimes : List Nat := []
  /-- PERST_N is low (R391) -/
  perstLow : Bool := false
  deriving DecidableEq, Repr

/-! ## Contexts and partitions (R264 to R282) -/

/-- A protected region (R270). -/
structure ProtRegion where
  base : Nat
  len : Nat
  slot : Nat
  keyId : W32
  deriving DecidableEq, Repr

/-- An installed owner key (R276). -/
structure OwnerKey where
  keyId : W32
  key : BitVec 256
  deriving DecidableEq, Repr

/-- An entry of the verified-object cache (R58). -/
structure CachedObj where
  addr : Nat
  len : Nat
  digest : BitVec 512
  facts : ObjFacts
  deriving DecidableEq, Repr

/-- What a context owns beside its rings and banks (R264). -/
structure Ctx where
  /-- draw number of SN[c]; TENANCY[c] is the next draw (R273, R274) -/
  nonce : Nat
  grants : Tab (Nat × Nat) := []
  prots : Tab ProtRegion := []
  keys : Tab OwnerKey := []
  debugPermit : Bool := false
  scrubbing : Bool := false
  cache : List CachedObj := []
  deriving DecidableEq, Repr

/-- A partition (R265 to R268). -/
structure Part where
  clusters : BitVec 8 := 0
  slice : Nat := 0
  ctxMask : W32 := 0
  current : Option Nat := none
  switching : Bool := false
  /-- when the current context became current, in MGT_UPTIME (R267) -/
  since : Nat := 0
  /-- clusters that a PART_DEFINE took from the partition while a context had still to leave it -/
  owed : BitVec 8 := 0
  /-- the current context is granted no new claim (R267) -/
  draining : Bool := false
  /-- the switch was caused by a scrub of the departing context (R267) -/
  byScrub : Bool := false
  deriving DecidableEq, Repr

/-- The Security Engine beside its registers. -/
structure Sec where
  ctxs : Tab Ctx := []
  parts : Tab Part := []
  /-- the draw number from which the nonces of this module reset were taken (R273) -/
  base : Nat := 0
  deriving DecidableEq, Repr

/-! ## Memories -/

/-- A run of DRAM bytes that were written under one memory key, from `lo` up to `hi`. -/
structure KeyRun where
  lo : Nat
  hi : Nat
  key : Nat
  deriving DecidableEq, Repr

/-- Module DRAM, its memory-side cache directory and the banks (R16 to R19, R272). -/
structure Mem where
  /-- DRAM bytes: addresses rising, no byte 0 listed -/
  dram : List Host.Cell := []
  /-- the draw number of the nonce whose key wrote each DRAM byte: runs, rising -/
  dramKey : List KeyRun := []
  /-- bank-space bytes: addresses rising, no byte 0 listed -/
  bank : List Host.Cell := []
  /-- cache directory: set (slice · 4096 + set) to its lines (line number, context, dirty), most recent first -/
  lines : Tab (List (Nat × Nat × Bool)) := []
  /-- DRAM lines found uncorrectable and not written whole since, by DRAM address ÷ 64 (R259) -/
  bad : List Nat := []
  /-- the line of each channel that its patrol reads next (R260) -/
  sweep : Tab Nat := []
  deriving DecidableEq, Repr

/-! ## Tiles, banks and hubs -/

/-- An access queue of a Pointing Engine (R96, R97); entries are numbered from its declaration. -/
structure PeQueue where
  decl : QueueDecl
  /-- entries issued: of a read queue toward DRAM, of a write queue taken from their slots -/
  issued : Nat := 0
  /-- entries filled and not released by every consumer, with their row tag -/
  filled : List (Nat × Nat) := []
  /-- per member of the consumer or producer set, the entries that it has released or pushed -/
  seen : Tab Nat := []
  /-- granules taken toward a compressed granule (R134), and its DRAM address -/
  pushed : List Byte := []
  pushAddr : Nat := 0
  /-- the index buffer: elements of the index list and of the pointer or row list that have been read (R102) -/
  indices : Tab W32 := []
  ptrs : Tab W32 := []
  /-- where the stream stands: row (block row), element within the index list, row of the block, granule of the row -/
  row : Nat := 0
  elem : Nat := 0
  sub : Nat := 0
  gran : Nat := 0
  /-- the page that the queue's KVPAGE stream is on, once translated (R172, R175) -/
  cur : Option WalkEnt := none
  deriving DecidableEq, Repr

/-- What an outstanding DRAM request is for: slots of its queue, elements of the index buffer (`pointers` tells the lists
apart; element numbers from `lo`), a KV page of an ATTN, which takes no slot, or a granule to be written (R98, R102). -/
inductive PeUse where
  | fill
  | index (pointers : Bool) (lo n : Nat)
  | page (page kfmt vfmt : Nat)
  | store (bytes : List Byte)
  deriving DecidableEq, Repr

/-- A DRAM request outstanding (R98): its queue and granule address, the entry number of the first slot it fills, its row
tag, the decoded blocks it delivers (first and number), the time of issue, the fill writes still to be served once its data
have come, and the granule's bytes as they were before a later write by the same engine was accepted (R100). -/
structure PeOut where
  q : Nat
  addr : Nat
  use : PeUse
  idx : Nat := 0
  row : Nat := 0
  first : Nat := 0
  n : Nat := 0
  at_ : Nat
  left : Option Nat := none
  before : Option (List Byte) := none
  deriving DecidableEq, Repr

/-- A tile beside its registers. -/
structure Tile where
  queues : Tab PeQueue := []
  inFlight : List PeOut := []
  /-- the kernel step whose queues are declared (R96), and the releases that the tile took part in, by barrier -/
  step : Nat := 0
  released : Tab Nat := []
  /-- the clocks last counted in TILE_STALL_QUEUE and TILE_STALL_BANK: a clock counts once (Table 12) -/
  queueStallAt : Option Nat := none
  bankStallAt : Option Nat := none
  /-- 4 KiB lines of the object resident in the sequencer cache (R74) -/
  lines : List Nat := []
  /-- the descriptor (ring, seq) whose claim includes the tile -/
  claim : Option (Nat × Nat) := none
  deriving DecidableEq, Repr

/-- The entry that a fill write makes available (R99): tile, queue, entry and row tag, and whether a DRAM request delivers
it, which the padding index does not (R103). -/
structure PeFill where
  tile : Nat
  q : Nat
  entry : Nat
  row : Nat
  asked : Bool
  deriving DecidableEq, Repr

/-- A request at a bank that has not been served (R78, R82, R87): the clock in which it was first presented, from which its
age counts; whether it passed the ownership check, or waits for the end of a handover to its context; and the queue entry
that a fill write is for. -/
structure BankWait where
  req : BankReq
  since : Nat
  passed : Bool
  fill : Option PeFill := none
  deriving DecidableEq, Repr

/-- A bank beside its registers (R80, R85, R87). -/
structure BankSt where
  /-- fill reservations not yet written (R87) -/
  outstanding : Nat := 0
  /-- requests not yet served, in the order in which they came -/
  waiting : List BankWait := []
  /-- the last clock of the port -/
  clock : Nat := 0
  /-- the clock in which the port is held for the write phase of a read-modify-write -/
  rmwAt : Option Nat := none
  /-- 8 B groups found uncorrectable and not rewritten since, by bank-space address ÷ 8 -/
  bad : List Nat := []
  /-- uptime at which the clear under way started (R93) -/
  clearAt : Nat := 0
  /-- uptime of the last access, for IDLE_RET_US -/
  lastAccess : Nat := 0
  deriving DecidableEq, Repr

/-- A command in a Set Engine's queue: the tile that issued it, none for a SORT descriptor's operation. -/
structure SetQueued where
  cmd : SetCmd
  owner : Nat × Nat
  tile : Option Nat
  deriving DecidableEq, Repr

/-- A cluster hub beside its registers. -/
structure Hub where
  claim : Option (Nat × Nat) := none
  setQueue : List SetQueued := []
  setRunning : Option SetQueued := none
  /-- clocks that the running operation lost to bank arbitration (R110) -/
  setLost : Nat := 0
  /-- the clock last counted there: a clock counts once -/
  setLostAt : Option Nat := none
  /-- Start Stagger waves not yet started: (tile, engine) pairs per wave (R70, R72) -/
  waves : List (List (Nat × Nat)) := []
  buffer : List WalkEnt := []
  /-- window of 1,024 clocks that the two counts below belong to (R173) -/
  window : Nat := 0
  misses : Nat := 0
  faults : Nat := 0
  deriving DecidableEq, Repr

/-- The array of tiles, banks and hubs. -/
structure Arr where
  tiles : Tab Tile := []
  banks : Tab BankSt := []
  hubs : Tab Hub := []
  deriving DecidableEq, Repr

/-! ## KV paging (R163 to R187) -/

/-- A Page Frame Table entry (R166); `state` is 0 FREE, 1 MAPPED, 2 FILLING. -/
structure Frame where
  state : Nat := 0
  clearPending : Bool := false
  ctx : Nat := 0
  size4k : Nat := 0
  base : Nat := 0
  gen : Nat := 0
  layer : Nat := 0
  page : Nat := 0
  refs : Nat := 0
  kfmt : Nat := 0
  vfmt : Nat := 0
  vscale : Bool := false
  kscale : Bool := false
  deriving DecidableEq, Repr

/-- The states of a sequence number (R177). -/
inductive SeqState where
  | unregistered | active | swappingOut | swapped | swappingIn
  deriving DecidableEq, Repr

/-- A sequence's record. -/
structure Seq where
  state : SeqState := .unregistered
  ctx : Nat := 0
  prio : Nat := 0
  flags : BitVec 8 := 0
  kfmt : Nat := 0
  vfmt : Nat := 0
  kvHeads : Nat := 0
  headDim : Nat := 0
  layers : Nat := 0
  length : Nat := 0
  table : Nat := 0
  swapAddr : W64 := 0
  swapLen : Nat := 0
  swapSerial : Nat := 0
  holds : Nat := 0
  /-- counts registrations of this number, so that work bound to an ended one is found out (R181) -/
  regNo : Nat := 0
  /-- mapped pages: 512 · layer + page to frame -/
  pages : Tab Nat := []
  /-- INDEX_DIGEST and the pages of each size, kept while SWAPPED (R184) -/
  indexDigest : BitVec 512 := 0
  pageSizes : List (Nat × Nat) := []
  swapPages : Nat := 0
  /-- the later of the end of its last hold and its last becoming ACTIVE (R182) -/
  idleSince : Nat := 0
  deriving DecidableEq, Repr

/-- KV paging beside its registers. -/
structure Kv where
  frames : Tab Frame := []
  seqs : Tab Seq := []
  /-- the W0 write being checked (R167) -/
  checking : Option (Nat × W64) := none
  deriving DecidableEq, Repr

/-! ## The video codec (R212 to R231) -/

/-- A registered stream: its copy of the parameter block (Table 3) and its state between pictures. -/
structure Stream where
  ctx : Nat
  codec : Nat
  encode : Bool
  flags : BitVec 8
  depth : Nat
  dpbSlots : Nat
  width : Nat
  height : Nat
  pitch : Nat
  rateMode : Nat
  bitrate : Nat
  peakRate : Nat
  cpbBits : Nat
  fpsNum : Nat
  fpsDen : Nat
  /-- PROFILE, LEVEL, REFS and the four QP fields of the block -/
  profile : Nat
  level : Nat
  refCount : Nat
  qpMin : Int
  qpMax : Int
  qpI : Int
  qpP : Int
  refresh : Nat
  idrInterval : Nat
  stateAddr : Nat
  dpbAddr : Nat
  /-- f of R222 -/
  f : Nat := 0
  /-- pictures coded since registration, since the last IDR picture, and the refresh column (R222, R223) -/
  coded : Nat := 0
  sinceIdr : Nat := 0
  col : Nat := 0
  /-- pictures decoded (DECODE_INDEX), and pictures completed, skipped ones included -/
  decoded : Nat := 0
  pictures : Nat := 0
  /-- slots needed for reference, slots waiting for output, and slots output and not released (R226) -/
  refs : BitVec 16 := 0
  waits : BitVec 16 := 0
  outs : BitVec 16 := 0
  /-- slots whose pictures are concealed or predict from such, and the picture order counts of the slots (R224) -/
  hurt : BitVec 16 := 0
  pocs : Tab W32 := []
  /-- picture order count of the last decoded picture -/
  lastPoc : W32 := 0
  /-- the slot headers as the engine wrote them, and the free values of which the state area's image begins (R215, R217) -/
  heads : Tab (List Byte) := []
  saved : Option Nat := none
  /-- a FLUSH has come, and an IRAP or IDR picture is expected (R226); parameter sets were refused, and none accepted since
  (R224) -/
  awaitIrap : Bool := false
  refused : Bool := false
  /-- picture intervals since the last coded picture (R222) -/
  delay : Nat := 0
  /-- slots in use as of the last completed picture (R231) -/
  shownUse : BitVec 16 := 0
  deriving DecidableEq, Repr

/-- What an access unit that the encoder wrote carries (R222, R223): its QP, an IDR picture or the columns that it intra-codes,
the recovery count of its recovery point SEI message, HRD parameters, and the picture intervals of its removal delay. -/
structure CodedUnit where
  stream : Nat
  idr : Bool
  intraFrom : Nat
  intraCols : Nat
  recovery : Option Nat
  hrd : Bool
  delay : Nat
  qp : BitVec 8
  deriving DecidableEq, Repr

/-- The codec beside its registers. -/
structure Vcd where
  streams : Tab Stream := []
  /-- the stream whose state is on the cores, and the context whose data their buffers hold (R217) -/
  onCores : Option (Nat × Nat) := none
  /-- the last access unit that was coded -/
  lastUnit : Option CodedUnit := none
  deriving DecidableEq, Repr

/-! ## Stream Sentinel (R189 to R211) and the Verdict Port (R330) -/

/-- A loaded model (R197): its declaration, its object's digest and the KiB of the model region where its copy starts. -/
structure StnModel where
  decl : ModelDecl
  digest : BitVec 512
  at_ : Nat
  deriving DecidableEq, Repr

/-- A channel: its table entry (R192, empty while not configured) and its tracker and verdict state (R199). -/
structure Chan where
  entry : List Byte := []
  enabled : Bool := false
  verdict : Nat := 0
  est : W32 := 0
  n : Nat := 0
  above : Nat := 0
  below : Nat := 0
  tripN : Nat := 0
  invalidRun : Nat := 0
  gaps : Nat := 0
  overruns : Nat := 0
  stateErrs : Nat := 0
  lastSeq : Nat := 0
  score : W32 := 0
  /-- no window processed since ENABLE or RESET (R195) -/
  first : Bool := true
  /-- GAP and STATE_ERR for the next record -/
  marks : BitVec 8 := 0
  /-- uptime of the instant from which STALE_US runs (R201) -/
  since : Nat := 0
  deriving DecidableEq, Repr

/-- A window accepted and not yet processed (R194 to R196). -/
structure StnWin where
  chan : Nat
  s : Nat
  at_ : Nat
  /-- its host read has completed; `run` and `valid` are then known, and `readErr` says that the read failed -/
  fetched : Bool := false
  run : Bool := false
  valid : Bool := false
  readErr : Bool := false
  slot : Nat := 0
  /-- it is on the tile -/
  started : Bool := false
  /-- DISABLE or RESET reached it on the tile: its result is discarded (R202) -/
  dead : Bool := false
  deriving DecidableEq, Repr

/-- A verdict record (Table 4 of Stream Sentinel). -/
structure VRec where
  chan : Nat
  seq : Nat
  verdict : Nat
  prev : Nat
  score : W32
  est : W32
  flags : BitVec 8
  /-- uptime of the doorbell of the window it reports, none without a window -/
  at_ : Option Nat := none
  deriving DecidableEq, Repr

/-- A digest block of a channel's results (R337): entries in ascending s. -/
structure DigBlock where
  block : Nat
  entries : List (Nat × Bool × W32) := []
  skip : Bool := false
  deriving DecidableEq, Repr

/-- The SENT descriptor that runs, with the channels whose running window it waits for (R202, R209, R210). -/
structure SentOp where
  ring : Nat
  seq : Nat
  op : Nat
  waits : List Nat
  deriving DecidableEq, Repr

/-- The Sentinel front end beside its registers. -/
structure Stn where
  chans : Tab Chan := []
  models : Tab StnModel := []
  /-- windows in the order of their doorbells -/
  windows : List StnWin := []
  /-- queued verdict records, oldest first (R204) -/
  records : List VRec := []
  op : Option SentOp := none
  /-- per channel: the digest block under way, and the number of the last block settled (R337) -/
  open_ : Tab DigBlock := []
  settled : Tab Nat := []
  /-- blocks closed here and not compared, and the partner's digests not compared, by 2^18 · channel + block: SKIP,
  digest and, for the partner's, the uptime of its arrival -/
  closed : Tab (Bool × W64) := []
  theirs : Tab (Bool × W64 × Nat) := []
  /-- uptime of the last digest mismatch -/
  mismatchAt : Option Nat := none
  deriving DecidableEq, Repr

/-- The Verdict Port beside its registers (R330, R335). -/
structure Vrd where
  /-- the CLAIM frame that opens a new claim is due -/
  claimDue : Bool := false
  /-- channels whose RESYNC frame is due -/
  resync : List Nat := []
  /-- FRAME_NO of the next frame -/
  frameNo : Nat := 0
  /-- uptime at which the last frame started -/
  lastAt : Option Nat := none
  /-- a SOLO module's frames are stopped after a PCIe link loss (R335) -/
  silent : Bool := false
  /-- uptime of the reference of OLP_SWITCH_LAST.GAP, until the first frame at the new claim (Table 12) -/
  gapFrom : Option Nat := none
  /-- the port is open: step 7 of the start sequence has taken a role (R346) -/
  open_ : Bool := false
  deriving DecidableEq, Repr

/-- A cabinet verdict merge with its two receivers (R331). -/
structure Merge where
  /-- the held claim H -/
  held : Nat := 0
  /-- the followed input, 0 or 1 -/
  followed : Option Nat := none
  /-- the last accepted (SEQ, VERDICT) of each channel at the held claim -/
  kept : Tab (Nat × Nat) := []
  /-- the output lines, and the line pins of the two inputs -/
  lines : BitVec 8 := 0
  pins0 : BitVec 8 := 0
  pins1 : BitVec 8 := 0
  /-- the merge asserts STALE towards the plant -/
  stale : Bool := false
  /-- frames discarded by the checks, and those counted as STALE_CLAIM -/
  bad : Nat := 0
  staleClaims : Nat := 0
  /-- uptime at which the last frame was accepted -/
  lastAt : Nat := 0
  deriving DecidableEq, Repr

/-- Why a module leaves service (R335): the pin of its tray latch, an orderly shut-down, a PCIe link loss, UE_FAILOVER, or
the restart of a FW_ACTIVATE. -/
inductive LeaveFor where
  | latch | shutdown | pcie | ue | restart
  deriving DecidableEq, Repr

/-- A scrub of the Sentinel context that waits for TAKEOVER or the 500 µs of R335: whether its work completes with records,
and the CTX_SCRUB descriptor that waits for it. -/
structure HeldScrub where
  ctx : Nat
  record : Bool
  work : Option (Nat × Nat)
  deriving DecidableEq, Repr

/-- A planned handover under way on the module that gives up ACTIVE (R333). -/
structure Swap where
  cause : Nat
  /-- the ROLE_SWAP descriptor (ring, seq) that started it -/
  work : Option (Nat × Nat)
  /-- uptime of SWAP_REQ; none while gated work runs -/
  at_ : Option Nat
  deriving DecidableEq, Repr

/-- A hot-standby pair beside its registers (R325 to R339). -/
structure PairSt where
  /-- the highest epoch seen (R326) -/
  seen : Nat := 0
  /-- PARTNER_SERIAL of PAIR_CONFIG -/
  serial : W64 := 0
  /-- number of the next HEARTBEAT -/
  hbNo : Nat := 0
  /-- the last heartbeat of the partner, and uptime of its arrival -/
  partner : Option Heart := none
  lastHb : Option Nat := none
  /-- a heartbeat of the partner has arrived since this module last came up or was paired -/
  heard : Bool := false
  /-- uptime of the last change of role, from which the periodic swap counts, and of the last start of pairing -/
  changedAt : Nat := 0
  pairedAt : Nat := 0
  /-- PAIR_REFUSED holds: the partner is not the configured one (R325) -/
  refused : Bool := false
  /-- uptime since which HEALTH_OK has held without a break on both modules (R333) -/
  bothSince : Option Nat := none
  /-- this STANDBY module asks the active one for a planned handover -/
  ask : Bool := false
  /-- TAKEOVER is sent until the partner's heartbeats show neither ACTIVE nor SWAPPING -/
  takeover : Bool := false
  swap : Option Swap := none
  leaving : Option LeaveFor := none
  leaveAt : Nat := 0
  held : List HeldScrub := []
  /-- uptime at which P0 last lost its peer (R326) -/
  alone : Nat := 0
  /-- uptime at which SWAP_DUE was set, and until which it stays deferred (R338) -/
  dueAt : Nat := 0
  deferUntil : Nat := 0
  /-- uptime of the last UE_FAILOVER -/
  ueAt : Option Nat := none
  deriving DecidableEq, Repr

/-! ## The always-on domain (R12, R343 to R370) -/

/-- The level of the code that serves I3C and the Relay chain (R344). -/
inductive Level where
  | off | bootRom | loader | pedestal
  deriving DecidableEq, Repr

/-- The armed change (R363). -/
structure ArmHeld where
  changeId : Nat
  kind : Nat
  mode : Nat
  imageId : Nat
  records : List Byte
  acceptedAt : Nat
  deriving DecidableEq, Repr

/-- What the module knows of another module from its STATUS frames (R352, R353). -/
structure ModuleRow where
  serial : W64
  phase : Nat
  update : Nat
  arm : Nat
  changeId : Nat
  role : Nat
  partner : W64
  seenAt : Nat
  /-- the worker's last RESPONSE: result, OLP_PORT_STATUS and OLP_PORT_PEER of P0 to P2 (R324) -/
  result : Nat := 0
  ports : List W32 := []
  peers : List W64 := []
  deriving DecidableEq, Repr

/-- An image on its way through this module (R352, R357, R358). -/
structure ImageFlow where
  head : ImageHead
  /-- the four parts of its offer, by offset -/
  offer : Tab (List Byte) := []
  /-- slot of the sender, and destination, of its frames -/
  src : Nat
  dst : Nat
  /-- HOPS of the frames passed on; 0 passes none -/
  hops : Nat
  /-- it travels upstream -/
  up : Bool := false
  /-- this module writes it over its image region -/
  accepted : Bool := false
  /-- it comes from host memory here -/
  injected : Bool := false
  /-- it is this module's own image, sent to a module in RECOVERY (R362) -/
  own : Bool := false
  /-- chunks received whole -/
  got : List Nat := []
  /-- frames held, by offset, until their chunk is acknowledged from below -/
  buffer : Tab (List Byte) := []
  /-- chunks to be passed on, oldest first -/
  waiting : List Nat := []
  /-- chunks (0xFFFF_FFFF the offer) passed on and not acknowledged, with the resends made and the uptime of the last -/
  unacked : List (Nat × Nat × Nat) := []
  deriving DecidableEq, Repr

/-- An image offer of which not all four frames have arrived (R352). -/
structure OfferPart where
  imageId : Nat
  parts : Tab (List Byte) := []
  at_ : Nat := 0
  deriving DecidableEq, Repr

/-- Cast capture and the boundary-scan port (R379 to R382). -/
structure Cast where
  frozen : Bool := false
  /-- CAST_FREEZES -/
  freezes : Nat := 0
  addr : BitVec 48 := 0
  /-- the TAP's instruction: IDCODE in Test-Logic-Reset -/
  instr : BitVec 8 := 1
  /-- the update stage of the boundary-scan register -/
  cells : BitVec 32 := 0
  /-- EXTEST drives the pins from the cells -/
  driven : Bool := false
  /-- uptime of the last command on the TAP: TCK was driven then (R21) -/
  tckAt : Option Nat := none
  deriving DecidableEq, Repr

/-- The always-on domain beside its registers. -/
structure Aon where
  /-- AON rails in regulation -/
  rails : Bool := false
  /-- the input is between its thresholds -/
  input : Bool := false
  overVoltage : Bool := false
  /-- switched rails up -/
  core : Bool := false
  level : Level := .off
  holdupOk : Bool := false
  permit : Bool := false
  /-- a START_PERMIT edge has been taken since the last event that asks for one (R400) -/
  fresh : Bool := true
  /-- the restart condition of the event that asked for a fresh edge has not been met -/
  restartHeld : Bool := false
  /-- TRAY_LATCH_N is low: the tray latch is closed -/
  latch : Bool := false
  slotInvalid : Bool := false
  /-- steps 3 and 4 of Table 2 done (R346) -/
  secDone : Bool := false
  trained : BitVec 12 := 0
  /-- RESERVE_OK as filtered -/
  reserveOk : Bool := false
  strobeAt : Option Nat := none
  movingUntil : Option Nat := none
  arm : Option ArmHeld := none
  /-- SVN and digest of the five firmware components that run (R280) -/
  fw : List (Nat × BitVec 512) := []
  /-- the settings in force, from the valid copy (R366) -/
  settings : Settings := {}
  inForce : Bool := false
  i3cAddr : Option Nat := none
  /-- events not yet sent as PlatformEventMessage, oldest first -/
  events : List (Nat × Nat) := []
  /-- uptimes of the last LINK frame from upstream and from downstream -/
  lastLinkUp : Option Nat := none
  lastLinkDown : Option Nat := none
  /-- module table by slot -/
  modules : Tab ModuleRow := []
  /-- the manager has reported CABINET_READY -/
  cabinetReady : Bool := false
  /-- images on their way, by IMAGE_ID, and the partial offer -/
  flows : Tab ImageFlow := []
  offer : Option OfferPart := none
  /-- frames dropped for a bad CRC or tag, and frames sent -/
  relayDropped : Nat := 0
  relaySent : Nat := 0
  cast : Cast := {}
  /-- what the restart of a FW_ACTIVATE commit will find, while the module hands over first (R361) -/
  restart : Option (AonFacts × StartFacts) := none
  deriving DecidableEq, Repr

/-! ## Olper links (R311 to R323) -/

/-- A frame waiting for credit, or sent and not acknowledged (R317). -/
structure LinkFrame where
  ftype : Nat
  vc : Nat
  addr : Nat
  payload : List Byte
  ctr : Nat := 0
  /-- ACK, CRED0 and CRED1 as the frame was first sent: a replay repeats it whole (R313, R317) -/
  ack : Nat := 0
  give0 : Nat := 0
  give1 : Nat := 0
  tries : Nat := 0
  deriving DecidableEq, Repr

/-- A window of a ring port (R320). -/
structure Window where
  isSend : Bool
  ctx : Nat
  base : Nat
  len : Nat
  deriving DecidableEq, Repr

/-- An Olper port beside its registers. -/
structure Port where
  /-- lasers and rings locked -/
  locked : Bool := false
  /-- training stopped for AUTH_FAIL: no retrain by itself (R313) -/
  stuck : Bool := false
  /-- draw number of the nonce of the training under way -/
  nonce : Nat := 0
  peer : Option Hello := none
  txCtr : Nat := 0
  rxCtr : Nat := 0
  cred0 : Nat := 16
  cred1 : Nat := 64
  /-- credit to return with the next header -/
  give0 : Nat := 0
  give1 : Nat := 0
  wait0 : List LinkFrame := []
  wait1 : List LinkFrame := []
  unacked : List LinkFrame := []
  /-- BARRIER frames held for a later launch (R322): barrier, origin, GEN -/
  held : List (Nat × Nat × Nat) := []
  deriving DecidableEq, Repr

/-- The Olper links beside their registers. -/
structure Olp where
  ports : Tab Port := []
  /-- windows by 16 · port + WIN -/
  windows : Tab Window := []
  /-- XMOD kernels released since the cascade last formed (R322) -/
  xlaunch : Nat := 0
  /-- serials of all positions of the configured cascade (R319) -/
  serials : List W64 := []
  deriving DecidableEq, Repr

/-- A hint in force or on its way (R295 to R297). -/
structure Hint where
  ring : Nat
  seq : Nat
  ctx : Nat
  part : Nat
  level : Nat
  /-- RESULT 0, or 3 when the rail's limit lowered the level -/
  result : Nat
  at_ : Nat
  readyAt : Nat
  endAt : Nat
  reached : Bool := false
  deriving DecidableEq, Repr

/-- Power management beside its registers (R283 to R309). -/
structure Pwr where
  /-- microseconds in which the work gate was closed -/
  gateUs : Nat := 0
  /-- clusters that a change of mode has not reached (R291) -/
  toChange : List Nat := []
  /-- the rung of each reason's own action, by reason bit (R287, R298) -/
  rungs : Tab Nat := []
  /-- the rung of TJ_HIGH, by cluster; 8 is that of the memory-channel and host-complex sensors (R300) -/
  tjRungs : Tab Nat := []
  /-- the last projection exceeded the peak limit (R286) -/
  peakOver : Bool := false
  /-- the clock for which each cluster's voltage loop reports slack, MHz (R292, R294) -/
  headroom : Tab Nat := []
  /-- clusters stretched since the last measurement (R293) -/
  stretched : List Nat := []
  hints : List Hint := []
  /-- lowest input voltage of the hold under way, in units of 10 mV, and the uptime at which it began (R306) -/
  holdMin : Nat := 0
  holdAt : Nat := 0
  /-- the uptime of the last reading below 41.0 V (R306) -/
  lowAt : Nat := 0
  /-- voltage in units of 10 mV and current in mA of the last microseconds, newest first, at most 100 ms of them (R283) -/
  samples : List (Nat × Nat) := []
  /-- the uptime of TJ_HIGH's last step, by cluster as in `tjRungs` (R300) -/
  tjAt : Tab Nat := []
  /-- T_inlet reads above 65 °C, and the uptime of the last reading at or below (R302) -/
  inletHot : Bool := false
  inletOkAt : Nat := 0
  /-- the last af, and those of the last 10 s, newest first, in units of 0.001 (R303) -/
  af : Option Nat := none
  afLast : List Nat := []
  /-- AF_SLOW in units of 10^-9 (R303) -/
  afSlow : Nat := 0
  /-- the uptime since which AF_FAST has stayed at or above 0.70 (R304) -/
  afOkAt : Option Nat := none
  /-- the uptime at which the countdown of a sudden stop ends (R304) -/
  stopAt : Nat := 0
  /-- the airflow estimate has run -/
  airKnown : Bool := false
  /-- the uptime of the last energy boundary (R308) -/
  energyAt : Nat := 0
  deriving DecidableEq, Repr

/-- The MON block beside its registers (R375, R378). -/
structure Mon where
  /-- bytes counted in the running window, by port of Table 4 -/
  bw : Tab Nat := []
  /-- when the running window began -/
  bwAt : Nat := 0
  /-- trace records waiting in the 64-record queue, oldest first -/
  trace : List TraceEv := []
  deriving DecidableEq, Repr

/-! ## The whole state -/

/-- The state of the module, and the queue of commands waiting for it. -/
structure State where
  /-- commands waiting, first in first out -/
  pending : List Instr := []
  /-- the model's own counter of free values taken (notes/assumptions/7.md) -/
  free : Nat := 0
  /-- registers by BAR0 offset; an unlisted register holds its reset value -/
  regs : Tab W64 := []
  nv : NonVol := {}
  aon : Aon := {}
  hif : HostIf := {}
  sec : Sec := {}
  mem : Mem := {}
  arr : Arr := {}
  kv : Kv := {}
  vcd : Vcd := {}
  stn : Stn := {}
  vrd : Vrd := {}
  merge : Merge := {}
  pair : PairSt := {}
  olp : Olp := {}
  pwr : Pwr := {}
  mon : Mon := {}
  /-- what the module has sent, newest first -/
  out : List Out := []
  deriving DecidableEq, Repr

/-- What a command answers. -/
abbrev Ans := Host.Outcome State Fault Refusal

/-- The module right after a module reset, its non-volatile state as manufacture left it. -/
def State.reset : State := { nv := { draws := 64 } }

end Sys2Proof.Machine
end

