-- ==== Sys2Proof/Machine/Base.lean ====
section
/-! DEFINITION. The named operations every meaning is built from: tables, registers and their fields, memories,
events, the random source and free values, power domains, and the event counters of the MON block. -/

namespace Sys2Proof.Machine

/-! ## Tables -/

/-- The entry of unit `k`, if the table lists it. -/
def tabGet? {α : Type} : Tab α → Nat → Option α
  | [], _ => none
  | (i, v) :: t, k => if k = i then some v else tabGet? t k

/-- The entry of unit `k`, or the value of a unit that is not listed. -/
def tabGetD {α : Type} (t : Tab α) (k : Nat) (d : α) : α := (tabGet? t k).getD d

/-- Write the entry of unit `k`, keeping the table sorted. -/
def tabSet {α : Type} : Tab α → Nat → α → Tab α
  | [], k, v => [(k, v)]
  | (i, w) :: t, k, v =>
    if k = i then (k, v) :: t else if k < i then (k, v) :: (i, w) :: t else (i, w) :: tabSet t k v

/-- Drop the entry of unit `k`. -/
def tabDel {α : Type} (t : Tab α) (k : Nat) : Tab α := t.filter fun p => p.1 != k

/-! ## Registers -/

/-- The word a register holds. -/
def State.reg (s : State) (off : Nat) : W64 :=
  match tabGet? s.regs off with
  | some w => w
  | none => regReset off

/-- Write the word of a register. -/
def State.setReg (s : State) (off : Nat) (w : W64) : State := { s with regs := tabSet s.regs off w }

/-- Read a field of a register. -/
def State.fld (s : State) (off : Nat) (b : Bits) : Nat := getBits (s.reg off) b

/-- Is a one-bit field set? -/
def State.bit (s : State) (off : Nat) (b : Bits) : Bool := decide (s.fld off b ≠ 0)

/-- Write a field of a register. -/
def State.setFld (s : State) (off : Nat) (b : Bits) (v : Nat) : State :=
  s.setReg off (putBits (s.reg off) b v)

/-- Write a one-bit field. -/
def State.setBit (s : State) (off : Nat) (b : Bits) (v : Bool) : State := s.setFld off b (if v then 1 else 0)

/-- The largest value of a field. -/
def Bits.top (b : Bits) : Nat := 2 ^ (b.hi - b.lo + 1) - 1

/-- Add to a counting field that saturates at its largest value. -/
def State.addSat (s : State) (off : Nat) (b : Bits) (n : Nat) : State :=
  s.setFld off b (min b.top (s.fld off b + n))

/-- Add to a counting field that wraps. -/
def State.addWrap (s : State) (off : Nat) (b : Bits) (n : Nat) : State := s.setFld off b (s.fld off b + n)

/-- Set bit `i` of a field used as a bit mask. -/
def State.setMaskBit (s : State) (off : Nat) (b : Bits) (i : Nat) (v : Bool) : State :=
  s.setBit off ⟨b.lo + i, b.lo + i⟩ v

/-- Bit `i` of a field used as a bit mask. -/
def State.maskBit (s : State) (off : Nat) (b : Bits) (i : Nat) : Bool := s.bit off ⟨b.lo + i, b.lo + i⟩

/-- Set an error bit; while the status register was clear, its information field takes `v` (the "first error since the
status was last clear" rule of every block). -/
def State.raise (s : State) (status : Nat) (b : Bits) (info : Nat) (ib : Bits) (v : Nat) : State :=
  let s1 := if s.reg status = 0 then s.setFld info ib v else s
  s1.setBit status b true

/-- A register back to its reset value. -/
def State.clearReg (s : State) (off : Nat) : State := { s with regs := tabDel s.regs off }

/-- Registers of an offset range back to their reset values. -/
def State.clearRange (s : State) (lo hi : Nat) : State :=
  { s with regs := s.regs.filter fun p => decide (p.1 < lo) || decide (hi ≤ p.1) }

/-! ## Time, events, free values -/

/-- Local uptime in microseconds (R342). -/
def State.now (s : State) : Nat := (s.reg MGT_UPTIME).toNat

/-- Something leaves the module. -/
def State.emit (s : State) (o : Out) : State := { s with out := o :: s.out }

/-- Entries that the circular event log of 16 MiB holds at 16 bytes each (notes/assumptions/16.md). -/
def logSize : Nat := 1048576

/-- A log after one more entry: the oldest leaves when it was full. -/
def newest (l : List LogEv) : List LogEv := if l.length ≤ logSize then l else l.tail

/-- Append an event-log entry stamped with uptime and boot count (R342); the oldest leaves a full log. -/
def State.log (s : State) (code arg : Nat) : State :=
  { s with nv := { s.nv with log := newest (s.nv.log ++ [⟨s.reg MGT_UPTIME, s.nv.boots, code, arg⟩]) } }

/-- An event waits for its PlatformEventMessage over I3C (R350). -/
def State.notify (s : State) (code arg : Nat) : State :=
  { s with aon := { s.aon with events := s.aon.events ++ [(code, arg)] } }

/-- An event: logged, and waiting for its PlatformEventMessage over I3C (R350). -/
def State.report (s : State) (code arg : Nat) : State := (s.log code arg).notify code arg

/-- Take one free value. -/
def State.bump (s : State) : State := { s with free := s.free + 1 }

/-- The next free byte. -/
def State.freeByte (s : State) : Byte := Config.freeByte s.free

/-- The next free word. -/
def State.freeWord (s : State) : W64 := Config.freeWord s.free

/-- `n` free bytes. -/
def freeBytes (base : Nat) : Nat → List Byte
  | 0 => []
  | n + 1 => Config.freeByte base :: freeBytes (base + 1) n

/-! ## Event codes (this model's numbering; the manual numbers none: notes/assumptions/16.md) -/

def evSupply : Nat := 1
def evOverVoltage : Nat := 2
def evHoldupLow : Nat := 3
def evStartFail : Nat := 4
def evReady : Nat := 5
def evDomainRefused : Nat := 6
def evLinkNarrow : Nat := 7
def evSelfTest : Nat := 8
def evCertMismatch : Nat := 9
def evThrottle : Nat := 10
def evTjTrip : Nat := 11
def evShutdown : Nat := 12
def evAirflow : Nat := 13
def evRole : Nat := 14
def evLink : Nat := 15
def evUpdateRefused : Nat := 16
def evSettingsDefaulted : Nat := 17
def evSlotInvalid : Nat := 18
def evMemory : Nat := 19
def evPartyLost : Nat := 20
def evCabinetReady : Nat := 21
def evRng : Nat := 22
def evSupplyHold : Nat := 23
def evSplit : Nat := 24
def evSentinel : Nat := 25
def evCabling : Nat := 26

/-! ## Bytes of descriptors -/

/-- The `n`-byte little-endian field at byte `i` of a descriptor. -/
def dF (d : Desc) (i n : Nat) : Nat := d.toNat / 256 ^ i % 256 ^ n

/-- Are bytes `i` to `i + n − 1` of a descriptor zero? -/
def dZero (d : Desc) (i n : Nat) : Bool := decide (dF d i n = 0)

/-! ## Memories (R16, R17, R272) -/

/-- The byte at an address; an address that is not listed reads zero. -/
def memGet (m : List Host.Cell) (a : Nat) : Byte :=
  match m.find? (fun p => p.1 == a) with
  | some p => p.2
  | none => 0

/-- The cells that bytes from an address take: a zero byte takes none, so that equal memories are equal lists. -/
def memCells : Nat → List Byte → List Host.Cell
  | _, [] => []
  | a, b :: bs => if b = 0 then memCells (a + 1) bs else (a, b) :: memCells (a + 1) bs

/-- The part of a table of numbers within a range. -/
def within {α : Type} (lo hi : Nat) (t : Tab α) : Tab α := t.filter fun p => decide (lo ≤ p.1) && decide (p.1 < hi)

/-- Read `n` bytes from an address. -/
def memRead (m : List Host.Cell) (a n : Nat) : List Byte :=
  let part := within a (a + n) m
  (List.range n).map fun i => memGet part (a + i)

/-- Put the cells of a range in place of what a table lists there. -/
def splice {α : Type} (t : Tab α) (lo hi : Nat) (new : Tab α) : Tab α :=
  (t.filter fun p => decide (p.1 < lo)) ++ new ++ t.filter fun p => decide (hi ≤ p.1)

/-- Write bytes from an address. -/
def memWrite (m : List Host.Cell) (a : Nat) (bs : List Byte) : List Host.Cell :=
  splice m a (a + bs.length) (memCells a bs)

/-- Drop every listed byte of an address range: the range reads zero. -/
def memZero (m : List Host.Cell) (lo hi : Nat) : List Host.Cell :=
  m.filter fun p => decide (p.1 < lo) || decide (hi ≤ p.1)

/-- Are the addresses of a memory strictly rising, all above `lo`, and is no zero byte listed? -/
def memWfFrom : Option Nat → List Host.Cell → Bool
  | _, [] => true
  | none, (i, v) :: t => decide (v ≠ 0) && memWfFrom (some i) t
  | some lo, (i, v) :: t => decide (lo < i) && decide (v ≠ 0) && memWfFrom (some i) t

/-- The canonical form of a memory. -/
def Memory.wf (m : List Host.Cell) : Bool := memWfFrom none m

/-- Bytes of module DRAM: 96 GB (R17). -/
def dramSize : Nat := 0x1800000000

/-- Does a region lie within module DRAM (R17)? -/
def inDram (addr len : Nat) : Bool := decide (addr + len ≤ dramSize)

/-- The channel of a DRAM address (R17). -/
def dramChannel (addr : Nat) : Nat := addr / 256 % 12

/-- The channel-local address (R17). -/
def channelLocal (addr : Nat) : Nat := addr / 256 / 12 * 256 + addr % 256

/-- The DRAM address of a channel-local one (R18). -/
def dramOfLocal (m l : Nat) : Nat := (l / 256 * 12 + m) * 256 + l % 256

/-- The global bank of a bank-space address (R16). -/
def bankOf (a : Nat) : Nat := a / 0x100000 % 512

/-- The byte offset in its bank of a bank-space address (R16). -/
def bankOffset (a : Nat) : Nat := a % 0x100000

/-! ## Contexts, and DRAM under a context's memory key -/

/-- What a context owns; at a module reset SN[c] is draw `base + 2c` and TENANCY[c] the next (R273, R274). -/
def State.ctx (s : State) (c : Nat) : Ctx := tabGetD s.sec.ctxs c { nonce := s.sec.base + 2 * c }

/-- Write what a context owns. -/
def State.setCtx (s : State) (c : Nat) (x : Ctx) : State :=
  { s with sec := { s.sec with ctxs := tabSet s.sec.ctxs c x } }

/-- TENANCY[c] (R274). -/
def State.tenancy (s : State) (c : Nat) : W64 := (Config.draw ((s.ctx c).nonce + 1)).truncate 64

/-- SN[c] (R273). -/
def State.slotNonce (s : State) (c : Nat) : BitVec 256 := Config.draw (s.ctx c).nonce

/-- One DRAM byte read on behalf of a context: what was written under its present memory key, and noise otherwise
(R272, R273; notes/assumptions/8.md). -/
def State.dramByte (s : State) (c a : Nat) : Byte :=
  let k := (s.ctx c).nonce
  match s.mem.dramKey.find? (fun r => decide (r.lo ≤ a) && decide (a < r.hi)) with
  | some r => if r.key = k then memGet s.mem.dram a else Config.dramNoise a k r.key (memGet s.mem.dram a)
  | none => Config.dramNoise a k 0 0

/-- DRAM bytes read on behalf of a context. -/
def State.dramRead (s : State) (c a n : Nat) : List Byte :=
  let part := { s with mem := { s.mem with dram := within a (a + n) s.mem.dram } }
  (List.range n).map fun i => part.dramByte c (a + i)

/-- What a run keeps outside a range. -/
def cutRun (lo hi : Nat) (r : KeyRun) : List KeyRun :=
  (if r.lo < lo then [{ r with hi := min r.hi lo }] else []) ++ if hi < r.hi then [{ r with lo := max r.lo hi }] else []

/-- Runs of one key that touch are one run. -/
def joinRuns (rs : List KeyRun) : List KeyRun :=
  rs.foldr (fun r acc =>
    match acc with
    | b :: t => if r.hi = b.lo ∧ r.key = b.key then { r with hi := b.hi } :: t else r :: acc
    | [] => [r]) []

/-- Mark `n` bytes from `a` as written under a key. -/
def tagBytes (t : List KeyRun) (a k n : Nat) : List KeyRun :=
  if n = 0 then t
  else
    let c := t.flatMap (cutRun a (a + n))
    joinRuns ((c.filter fun r => decide (r.hi ≤ a)) ++ [{ lo := a, hi := a + n, key := k }] ++
      c.filter fun r => decide (a + n ≤ r.lo))

/-- DRAM bytes written on behalf of a context, under its memory key; nothing else happens (the write watch of R58 is in
Ops.lean). -/
def State.dramPut (s : State) (c a : Nat) (bs : List Byte) : State :=
  { s with mem := { s.mem with
      dram := memWrite s.mem.dram a bs
      dramKey := tagBytes s.mem.dramKey a (s.ctx c).nonce bs.length } }

/-- Bytes of banks, at a bank-space address. -/
def State.bankRead (s : State) (a n : Nat) : List Byte := memRead s.mem.bank a n

/-- Write bytes of banks; contents only. -/
def State.bankPut (s : State) (a : Nat) (bs : List Byte) : State :=
  { s with mem := { s.mem with bank := memWrite s.mem.bank a bs } }

/-! ## The random source (R274) -/

/-- Is the random source healthy? -/
def State.rngOk (s : State) : Bool := s.bit SEC_STATUS SEC_STATUS_RNG_OK

/-- Take `n` draws; the first has the number that `nv.draws` had. -/
def State.takeDraws (s : State) (n : Nat) : State := { s with nv := { s.nv with draws := s.nv.draws + n } }

/-! ## Units -/

/-- A bank's state beside its registers. -/
def State.bankSt (s : State) (g : Nat) : BankSt := tabGetD s.arr.banks g {}
def State.setBank (s : State) (g : Nat) (b : BankSt) : State :=
  { s with arr := { s.arr with banks := tabSet s.arr.banks g b } }

/-- A tile's state beside its registers. -/
def State.tile (s : State) (t : Nat) : Tile := tabGetD s.arr.tiles t {}
def State.setTile (s : State) (t : Nat) (x : Tile) : State :=
  { s with arr := { s.arr with tiles := tabSet s.arr.tiles t x } }

/-- A hub's state beside its registers. -/
def State.hub (s : State) (c : Nat) : Hub := tabGetD s.arr.hubs c {}
def State.setHub (s : State) (c : Nat) (x : Hub) : State :=
  { s with arr := { s.arr with hubs := tabSet s.arr.hubs c x } }

/-- A ring (R239); the management ring is number 4096. -/
def State.ring (s : State) (r : Nat) : Ring := tabGetD s.hif.rings r {}
def State.setRing (s : State) (r : Nat) (x : Ring) : State :=
  { s with hif := { s.hif with rings := tabSet s.hif.rings r x } }

/-- A partition (R265). -/
def State.part (s : State) (p : Nat) : Part := tabGetD s.sec.parts p {}
def State.setPart (s : State) (p : Nat) (x : Part) : State :=
  { s with sec := { s.sec with parts := tabSet s.sec.parts p x } }

/-- A sequence's record (R177). -/
def State.seq (s : State) (q : Nat) : Seq := tabGetD s.kv.seqs q {}
def State.setSeq (s : State) (q : Nat) (x : Seq) : State :=
  { s with kv := { s.kv with seqs := tabSet s.kv.seqs q x } }

/-- A Page Frame Table entry (R166). -/
def State.frame (s : State) (f : Nat) : Frame := tabGetD s.kv.frames f {}
def State.setFrame (s : State) (f : Nat) (x : Frame) : State :=
  { s with kv := { s.kv with frames := tabSet s.kv.frames f x } }

/-- Apply an operation for each listed number in turn. -/
def State.each (s : State) (ns : List Nat) (f : State → Nat → State) : State := ns.foldl f s

/-! ## Numbers of the organisation (Table 3 of Krequel KQM-3264 at a Glance) -/

/-- The management ring's number in this model; 0 to 4,095 are the module-wide ring numbers. -/
def mgmtRing : Nat := 4096

/-- The context that owns a ring; none for the management ring. -/
def ringCtx (r : Nat) : Option Nat := if r < 4096 then some (r / 128) else none

/-- The context number that work of a ring carries; work of the management ring belongs to none and shows 0. -/
def ringCtxD (r : Nat) : Nat := if r < 4096 then r / 128 else 0

/-- Tiles of a cluster. -/
def clusterTiles (c : Nat) : List Nat := (List.range 8).map (8 * c + ·)

/-- Banks of a tile. -/
def tileBanks (t : Nat) : List Nat := (List.range 8).map (8 * t + ·)

/-- Numbers below 8 whose bit is set. -/
def bits8 (m : Nat) : List Nat := (List.range 8).filter fun i => decide (m / 2 ^ i % 2 = 1)

/-- Numbers below 32 whose bit is set. -/
def bits32 (m : Nat) : List Nat := (List.range 32).filter fun i => decide (m / 2 ^ i % 2 = 1)

/-! ## Power domains (R22 to R26) -/

/-- The register and bit of GLB_PWR_DOMAIN_STATUS that shows a domain (Table 13 of Module and Die Organisation). -/
def domPlace : Domain → Nat × Bits
  | .tile t => if t < 32 then (GLB_PWR_DOMAIN_STATUS0, ⟨t, t⟩) else (GLB_PWR_DOMAIN_STATUS1, ⟨t - 32, t - 32⟩)
  | .hub c => (GLB_PWR_DOMAIN_STATUS2, ⟨c, c⟩)
  | .mem m => (GLB_PWR_DOMAIN_STATUS2, ⟨8 + m, 8 + m⟩)
  | .codec v => (GLB_PWR_DOMAIN_STATUS2, ⟨20 + v, 20 + v⟩)
  | .port p => (GLB_PWR_DOMAIN_STATUS2, ⟨28 + p, 28 + p⟩)
  | .hcx => (GLB_PWR_DOMAIN_STATUS2, ⟨31, 31⟩)

/-- Is a domain that Table 6 lists? -/
def domValid : Domain → Bool
  | .tile t => decide (t < 64)
  | .hub c => decide (c < 8)
  | .mem m => decide (m < 12)
  | .codec v => decide (v < 8)
  | .port p => decide (p < 3)
  | .hcx => true

/-- Is a domain ON? -/
def State.isOn (s : State) (d : Domain) : Bool := s.bit (domPlace d).1 (domPlace d).2

/-- Show a domain ON or OFF. -/
def State.setOn (s : State) (d : Domain) (v : Bool) : State := s.setBit (domPlace d).1 (domPlace d).2 v

/-! ## Event counters of the MON block (R372, R374, R375, R376) -/

/-- Does a counter's selection take an event of `code` at a unit for a context? -/
def selTakes (w : W64) (code ctx unit : Nat) : Bool :=
  decide (getBits w MON_CNT_SEL_EVENT = code) &&
  (getBits w MON_CNT_SEL_CTX_EN == 0 || getBits w MON_CNT_SEL_CTX == ctx) &&
  (getBits w MON_CNT_SEL_UNIT_EN == 0 || getBits w MON_CNT_SEL_UNIT == unit)

/-- Add events to one counter, which stops at 2^48 − 1 with SATURATED. -/
def State.cntAdd (s : State) (i n : Nat) : State :=
  let v := s.fld (MON_CNT i) MON_CNT_COUNT + n
  if v < 2 ^ 48 - 1 then s.setFld (MON_CNT i) MON_CNT_COUNT v
  else (s.setFld (MON_CNT i) MON_CNT_COUNT (2 ^ 48 - 1)).setBit (MON_CNT i) MON_CNT_SATURATED true

/-- `n` events occur that the selections which `p` picks count (R372). -/
def State.countWhere (s : State) (p : W64 → Bool) (n : Nat) : State :=
  if s.bit MON_CTRL MON_CTRL_COUNT_EN then
    (List.range 16).foldl (fun t i => if p (t.reg (MON_CNT_SEL i)) then t.cntAdd i n else t) s
  else s

/-- `n` events of `code` occur at a unit for a context. -/
def State.count (s : State) (code ctx unit n : Nat) : State := s.countWhere (fun w => selTakes w code ctx unit) n

/-- Bytes pass a bandwidth port (R375). -/
def State.bwAdd (s : State) (port n : Nat) : State :=
  { s with mon := { s.mon with bw := tabSet s.mon.bw port (tabGetD s.mon.bw port 0 + n) } }

/-- The histogram bin of a sample (R376, Table 6). -/
def histBin (log : Bool) (w x : Nat) : Nat :=
  if log then (if x < w then 0 else min 15 (Nat.log2 (x / w) + 1)) else min 15 (x / w)

/-- The units and contexts that Table 5 gives a source: (UNIT applies, context applies). -/
def histFilters (src : Nat) : Bool × Bool :=
  match src with
  | 0x03 => (true, true)
  | 0x04 => (false, true)
  | 0x05 => (false, true)
  | 0x06 => (false, true)
  | 0x09 => (true, false)
  | _ => (false, false)

/-- Does a histogram unit's configuration take a sample? -/
def histTakes (w : W64) (src ctx unit : Nat) : Bool :=
  decide (getBits w MON_HIST_CFG_ENABLE = 1) && decide (getBits w MON_HIST_CFG_SOURCE = src) &&
  (getBits w MON_HIST_CFG_UNIT_EN == 0 || ((histFilters src).1 && getBits w MON_HIST_CFG_UNIT == unit)) &&
  (getBits w MON_HIST_CFG_CTX_EN == 0 || ((histFilters src).2 && getBits w MON_HIST_CFG_CTX == ctx))

/-- One sample reaches one unit (R376, R377). -/
def State.histUnit (s : State) (h x : Nat) : State :=
  if s.bit MON_CTRL MON_CTRL_HIST_FREEZE then s.addSat (MON_HIST_DROPPED h) MON_HIST_DROPPED_COUNT 1
  else
    let cfg := s.reg (MON_HIST_CFG h)
    let b := histBin (getBits cfg MON_HIST_CFG_LOG != 0) (getBits cfg MON_HIST_CFG_WIDTH) x
    let s1 := s.addSat (MON_HIST_BIN h b) MON_HIST_BIN_COUNT 1
    let v := s1.fld (MON_HIST_COUNT h) MON_HIST_COUNT_COUNT + 1
    let s2 := if v < 2 ^ 48 - 1 then s1.setFld (MON_HIST_COUNT h) MON_HIST_COUNT_COUNT v
      else (s1.setFld (MON_HIST_COUNT h) MON_HIST_COUNT_COUNT (2 ^ 48 - 1)).setBit (MON_HIST_COUNT h)
        MON_HIST_COUNT_SATURATED true
    let s3 := s2.setFld (MON_HIST_MINMAX h) MON_HIST_MINMAX_MIN (min x (s2.fld (MON_HIST_MINMAX h) MON_HIST_MINMAX_MIN))
    let s4 := s3.setFld (MON_HIST_MINMAX h) MON_HIST_MINMAX_MAX (max x (s3.fld (MON_HIST_MINMAX h) MON_HIST_MINMAX_MAX))
    if x > s4.fld (MON_HIST_THRESH h) MON_HIST_THRESH_THRESH then s4.addSat (MON_HIST_OVER h) MON_HIST_OVER_COUNT 1 else s4

/-- A sample reaches the units whose configuration `p` picks; it saturates at 32 bits (R376). -/
def State.sampleWhere (s : State) (p : W64 → Bool) (x : Nat) : State :=
  (List.range 8).foldl (fun t h => if p (t.reg (MON_HIST_CFG h)) then t.histUnit h (min x 0xFFFFFFFF) else t) s

/-- A histogram source occurs at a unit for a context. -/
def State.sample (s : State) (src ctx unit x : Nat) : State := s.sampleWhere (fun w => histTakes w src ctx unit) x

/-! ## Trace records (R378) -/

/-- A record is lost. -/
def State.traceDrop (s : State) : State :=
  (s.addSat MON_TRACE_DROPPED MON_TRACE_DROPPED_COUNT 1).setBit MON_ERR_STATUS MON_ERR_STATUS_TRACE_DROP true

/-- An event occurs: with the trace on and its type among SOURCES it is queued, or dropped at a full queue of 64. -/
def State.trace (s : State) (e : TraceEv) : State :=
  if s.bit MON_TRACE_CTRL MON_TRACE_CTRL_ENABLE && s.maskBit MON_TRACE_CTRL MON_TRACE_CTRL_SOURCES e.kind then
    if 64 ≤ s.mon.trace.length then s.traceDrop else { s with mon := { s.mon with trace := s.mon.trace ++ [e] } }
  else s

/-- An event of no ring, for a context where there is one. -/
def State.traceUnit (s : State) (kind : Nat) (ctx : Option Nat) (arg : Nat) : State :=
  s.trace { kind := kind, ctx := ctx.getD 0xFF, ring := 0xFFFF, seq := 0, tag := 0, arg := BitVec.ofNat 32 arg }

end Sys2Proof.Machine
end

