-- ==== Sys2Proof/Machine/Links.lean ====
section
/-! DEFINITION. The Olper link layer: frames, credits, acknowledgement, and the windows that carry DRAM writes
(Olper Links, Cascades and Hot-Standby Pairs, R313, R316, R317, R320). -/

namespace Sys2Proof.Machine

/-- The bytes of a string. -/
def strBytes (t : String) : List Byte := t.toList.map fun c => BitVec.ofNat 8 c.toNat

/-- The first `n` bytes of a SHAKE256 output. -/
def shakeBytes (m : List Byte) (n : Nat) : List Byte := (leBytes 64 (Config.shake256 m).toNat).take n

/-- One bit step of CRC-32C. -/
def crc32cBit (c : W32) : W32 := if c.getLsbD 0 then (c >>> 1) ^^^ 0x82F63B78#32 else c >>> 1

/-- CRC-32C of bytes. -/
def crc32c (m : List Byte) : W32 :=
  ~~~ (m.foldl (fun c b => (List.range 8).foldl (fun d _ => crc32cBit d) (c ^^^ b.zeroExtend 32)) 0xFFFFFFFF#32)

/-- Port states of OLP_PORT_STATUS.STATE (Table 12). -/
def portOff : Nat := 0
def portLocking : Nat := 1
def portTraining : Nat := 2
def portAuth : Nat := 3
def portUp : Nat := 4
def portDown : Nat := 5

def State.port (s : State) (p : Nat) : Port := tabGetD s.olp.ports p {}
def State.setPort (s : State) (p : Nat) (x : Port) : State :=
  { s with olp := { s.olp with ports := tabSet s.olp.ports p x } }
def State.portState (s : State) (p : Nat) : Nat := s.fld (OLP_PORT_STATUS p) OLP_PORT_STATUS_STATE
def State.setPortState (s : State) (p v : Nat) : State := s.setFld (OLP_PORT_STATUS p) OLP_PORT_STATUS_STATE v

/-- Set an error bit of OLP_ERR_STATUS; a port error records its port in OLP_ERR_INFO (Table 12). -/
def State.olpErr (s : State) (b : Bits) (p : Nat) : State := s.raise OLP_ERR_STATUS b OLP_ERR_INFO OLP_ERR_INFO_PORT p

/-- The key of one direction (R313). -/
def sessionKey (senderSerial receiverSerial : W64) (senderNonce receiverNonce : BitVec 256) : BitVec 256 :=
  BitVec.ofNat 256 (leNat (shakeBytes (leBytes 32 Config.linkKey.toNat ++ strBytes "KQM-LINK" ++ leBytes 8 senderSerial.toNat ++
    leBytes 8 receiverSerial.toNat ++ leBytes 32 senderNonce.toNat ++ leBytes 32 receiverNonce.toNat) 32))

/-- The key under which a port sends. -/
def State.txKey (s : State) (p : Nat) : BitVec 256 :=
  match (s.port p).peer with
  | some h => sessionKey Config.serial h.serial (Config.draw (s.port p).nonce) h.nonce
  | none => 0

/-- The 24-byte header of a frame (Table 2). -/
def linkHeader (f : LinkFrame) : List Byte :=
  leBytes 1 f.ftype ++ leBytes 1 f.vc ++ leBytes 2 f.payload.length ++ leBytes 8 f.ctr ++ leBytes 2 f.ack ++ leBytes 1 f.give0 ++
    leBytes 1 f.give1 ++ leBytes 8 f.addr

/-- Sealing: the ciphertext with its 16-byte tag. -/
def gcmSeal (key : BitVec 256) (iv aad pt : List Byte) : List Byte :=
  Config.gcmEncrypt key iv pt ++ leBytes 16 (Config.gcmTag key iv aad (Config.gcmEncrypt key iv pt)).toNat

/-- Opening: the plaintext, none when the tag does not verify. -/
def gcmOpen (key : BitVec 256) (iv aad ct : List Byte) : Option (List Byte) :=
  let body := ct.take (ct.length - 16)
  if 16 ≤ ct.length ∧ leNat (ct.drop (ct.length - 16)) = (Config.gcmTag key iv aad body).toNat then
    some (Config.gcmDecrypt key iv body) else none

/-- A frame as it goes on the link: header, sealed payload with tag, CRC (R313, R316). HELLO and PROOF are in clear. -/
def State.wire (s : State) (p : Nat) (f : LinkFrame) : List Byte :=
  let h := linkHeader f
  let body := if f.ftype ≤ 2 then f.payload
    else gcmSeal (s.txKey p) (leBytes 4 0 ++ leBytes 8 f.ctr) h f.payload
  h ++ body ++ leBytes 4 (crc32c (h ++ body)).toNat

/-- ACK of a port: the low 16 bits of the last FRAME_CTR received in order. -/
def Port.ackNo (x : Port) : Nat := (x.rxCtr + 0xFFFF) % 65536

/-- The first frame of the data queue, when its VC has credit. A BARRIER frame stands there, behind the DATA frames queued
before it, and takes credit of VC0 (R321). -/
def Port.nextData? (x : Port) : Option (LinkFrame × Port) :=
  match x.wait1 with
  | g :: gs =>
    if g.vc = 0 then (if 0 < x.cred0 then some (g, { x with wait1 := gs, cred0 := x.cred0 - 1 }) else none)
    else if 0 < x.cred1 then some (g, { x with wait1 := gs, cred1 := x.cred1 - 1 }) else none
  | [] => none

/-- The next frame that has credit, VC0 first (R317), with the queues it leaves. -/
def Port.next? (x : Port) : Option (LinkFrame × Port) :=
  match x.wait0 with
  | f :: fs => if 0 < x.cred0 then some (f, { x with wait0 := fs, cred0 := x.cred0 - 1 }) else x.nextData?
  | [] => x.nextData?

/-- DATA payload bytes that a frame carries. -/
def dataBytes (f : LinkFrame) : Nat := if f.ftype = 0x20 then f.payload.length else 0

/-- The context of the window that a frame's address names. -/
def State.frameCtx (s : State) (p : Nat) (f : LinkFrame) : Nat :=
  match tabGet? s.olp.windows (16 * p + f.addr / 2 ^ 60) with
  | some w => w.ctx
  | none => 0

/-- Send the frames that have credit, at most `n`. -/
def State.pump (p : Nat) : Nat → State → State
  | 0, s => s
  | n + 1, s =>
    match (s.port p).next? with
    | none => s
    | some (f, x) =>
      let g := { f with ctr := x.txCtr, ack := x.ackNo, give0 := x.give0, give1 := x.give1 }
      let s1 := s.emit (.olper p (s.wire p g))
      let s2 := s1.setPort p { x with txCtr := x.txCtr + 1, give0 := 0, give1 := 0, unacked := x.unacked ++ [g] }
      let k := dataBytes f
      let s3 := (if k = 0 then s2 else
        (s2.addSat (OLP_PORT_TX_BYTES p) OLP_PORT_BYTES k).count 0x28 (s2.frameCtx p f) p k).bwAdd (14 + 2 * p) f.payload.length
      State.pump p n s3

/-- Does a port's link version carry a frame: version 1 has no HEARTBEAT, DIGEST or BARRIER (R315)? -/
def State.carries (s : State) (p : Nat) (f : LinkFrame) : Bool :=
  s.fld (OLP_PORT_STATUS p) OLP_PORT_STATUS_VERSION != 1 || f.ftype ≤ 3 || f.ftype == 0x20

/-- Queue a frame on a port that is UP, and send what has credit: in the queue of its VC, a BARRIER frame behind the DATA
frames (R321). -/
def State.sendFrame (s : State) (p : Nat) (f : LinkFrame) : State :=
  if s.portState p = portUp && s.carries p f then
    let x := s.port p
    let x1 := if f.vc = 0 && f.ftype != 0x12 then { x with wait0 := x.wait0 ++ [f] } else { x with wait1 := x.wait1 ++ [f] }
    (s.setPort p x1).pump p (x1.wait0.length + x1.wait1.length)
  else s

/-- Work uses a port's link: an OFF port is switched ON and starts its lasers (R24, R312, R348). -/
def State.wakePort (s : State) (p : Nat) : State :=
  if s.isOn (.port p) then s else (s.setOn (.port p) true).setPortState p portLocking

/-- Send a DATA frame: on a port that is not UP it waits for the training that the use of the link starts; a port that is
DOWN has lost its link, and the frame is dropped. -/
def State.sendData (s : State) (p : Nat) (f : LinkFrame) : State :=
  if s.portState p = portUp || s.portState p = portDown then s.sendFrame p f
  else
    let s1 := s.wakePort p
    s1.setPort p { s1.port p with wait1 := (s1.port p).wait1 ++ [f] }

/-- A training frame in clear (R316). -/
def State.sendClear (s : State) (p ftype : Nat) (payload : List Byte) : State :=
  (s.emit (.olper p (s.wire p { ftype := ftype, vc := 0, addr := 0, payload := payload, ack := (s.port p).ackNo }))).bwAdd (14 + 2 * p) payload.length

/-- An IDLE frame: it carries ACK and credits. -/
def State.sendIdle (s : State) (p : Nat) : State := s.sendFrame p { ftype := 0x03, vc := 0, addr := 0, payload := [] }

/-! ## An image injected here that ends early (R358, R369) -/

/-- Slots in the direction of travel see a Relay frame that this module originates; HOPS is 47 at the sender. A module whose
slot is not valid sends none (R390). -/
def State.relaySend (s : State) (up : Bool) (ftype dst : Nat) (payload : List Byte) : State :=
  if s.aon.slotInvalid then s
  else { s.emit (.relay up ftype (s.fld MGT_STATE MGT_STATE_SLOT) dst 47 payload) with
    aon := { s.aon with relaySent := s.aon.relaySent + 1 } }

/-- The image that is being injected here is abandoned: state INCOMPLETE, and IMG_END goes down the chain. -/
def State.endInject (s : State) : State :=
  match s.aon.flows.find? fun e => e.2.injected with
  | some (id, f) =>
    let s1 := { s with aon := { s.aon with flows := tabDel s.aon.flows id } }
    let s2 := if f.accepted && s1.fld MGT_UPDATE MGT_UPDATE_STATE = 1 then s1.setFld MGT_UPDATE MGT_UPDATE_STATE 3 else s1
    s2.relaySend false 0x13 0xFF (leBytes 4 id ++ leBytes 1 1)
  | none => s

/-! ## Windows (R320) -/

/-- The largest DATA payload of a port's link version (R315, R316). -/
def State.maxData (s : State) (p : Nat) : Nat := if s.fld (OLP_PORT_STATUS p) OLP_PORT_STATUS_VERSION = 1 then 256 else 512

/-- Queue the DATA frames of a range of a send window, `n` frames at most. -/
def State.sendRange (p win c base size : Nat) : Nat → State → Nat → Nat → State
  | 0, s, _, _ => s
  | n + 1, s, lo, hi =>
    if hi ≤ lo then s
    else
      let k := min size (hi - lo)
      let f : LinkFrame := { ftype := 0x20, vc := 1, addr := (win * 2 ^ 60 + (lo - base)), payload := (s.dramRead c lo k) }
      State.sendRange p win c base size n (s.sendData p f) (lo + k) hi

/-- A write of a context into a send window is carried to the peer: the 64 B lines it touched (R320). -/
def State.carry (s : State) (c addr len : Nat) : State :=
  s.olp.windows.foldl (fun t e =>
    let w := e.2
    if w.isSend && w.ctx == c && decide (0 < len) && decide (addr < w.base + w.len) && decide (w.base < addr + len) then
      let lo := max w.base (addr / 64 * 64)
      let hi := min (w.base + w.len) ((addr + len + 63) / 64 * 64)
      let size := t.maxData (e.1 / 16)
      State.sendRange (e.1 / 16) (e.1 % 16) c w.base size ((hi - lo) / size + 1) t lo hi
    else t) s

/-- Does a region overlap an open receive window, which its module's own engines may not write? -/
def State.hitsRecv (s : State) (addr len : Nat) : Bool :=
  s.olp.windows.any fun e => !e.2.isSend && decide (0 < len) && decide (0 < e.2.len) &&
    decide (addr < e.2.base + e.2.len) && decide (e.2.base < addr + len)

end Sys2Proof.Machine
end

