-- ==== Sys2Proof/Machine/Ops.lean ====
section
/-! DEFINITION. Rings, admission, completion records, interrupts, fences and the state words of ABORT
(Host Interface, Command Rings and Completions, R235 to R255). -/

namespace Sys2Proof.Machine

/-! ## Status codes (R253) -/

def stDone : Nat := 0x00
def stAborted : Nat := 0x01
def stAbortTooLate : Nat := 0x02
def stPreempted : Nat := 0x03
def stLengthLimit : Nat := 0x04
def stFormatUnsupported : Nat := 0x05
def stBadDescriptor : Nat := 0x06
def stAccessDenied : Nat := 0x07
def stMemoryUncorrectable : Nat := 0x08
def stLinkLost : Nat := 0x09
def stFailedOver : Nat := 0x0A
def stContextScrubbed : Nat := 0x0B
def stVersionMismatch : Nat := 0x0C
def stTimeout : Nat := 0x0D
def stPictureSkipped : Nat := 0x0E
def stStreamConcealed : Nat := 0x0F

/-! ## Class codes (R244, Table 5) -/

def clKernel : Nat := 0x01
def clDma : Nat := 0x02
def clSeq : Nat := 0x03
def clAttn : Nat := 0x04
def clCodec : Nat := 0x05
def clSent : Nat := 0x06
def clSort : Nat := 0x07
def clFence : Nat := 0x08
def clHint : Nat := 0x09
def clAbort : Nat := 0x0A
def clAdmin : Nat := 0x0B

/-! ## Functions and the host link (R235) -/

/-- Is the module READY for doorbells (R346, R401)? -/
def State.ready (s : State) : Bool := s.bit HIF_STATUS HIF_STATUS_READY

/-- Is the data link up? -/
def State.linkUp (s : State) : Bool := s.bit HIF_STATUS HIF_STATUS_LINK_UP

/-- Is context `c` served by its VF (R235)? -/
def State.vfServed (s : State) (c : Nat) : Bool := decide (c < s.fld HIF_STATUS HIF_STATUS_NUM_VF)

/-- The function that serves a ring: 0 for the PF, `c + 1` for the VF of context `c`. -/
def State.servingFn (s : State) (r : Nat) : Nat :=
  match ringCtx r with
  | some c => if s.vfServed c then c + 1 else 0
  | none => 0

/-- Does a context filter of the MON block pick what a function carries, because the function serves the context? DEDUCED
from Tables 3 and 5 (notes/assumptions/30.md). -/
def State.fnServes (s : State) (fn c : Nat) : Bool := (if s.vfServed c then c + 1 else 0) == fn

/-- A context that a filter matches or not by whether the function serves it. -/
def State.fnCtx (s : State) (fn c : Nat) : Nat := if s.fnServes fn c then c else 32

/-- Payload bytes of TLPs arrive from, or go to, the host through a function (R372, R375). -/
def State.tlpIn (s : State) (fn n : Nat) : State :=
  (s.countWhere (fun w => selTakes w 0x20 (s.fnCtx fn (getBits w MON_CNT_SEL_CTX)) 0) n).bwAdd 0 n
def State.tlpOut (s : State) (fn n : Nat) : State :=
  (s.countWhere (fun w => selTakes w 0x21 (s.fnCtx fn (getBits w MON_CNT_SEL_CTX)) 0) n).bwAdd 1 n

/-- A posted write to host memory through a function; discarded while the link is down (R237). -/
def State.hostWrite (s : State) (fn addr : Nat) (bytes : List Byte) : State :=
  if s.linkUp && bytes != [] then (s.emit (.hostWrite fn addr bytes)).tlpOut fn bytes.length else s

/-- A read of host memory completes (HOST_READ of R376): its duration is the host's, a free value. -/
def State.sampleHostRead (s : State) (fn : Nat) : State :=
  s.bump.sampleWhere (fun w => histTakes w 0x04 (s.fnCtx fn (getBits w MON_HIST_CFG_CTX)) 0) (s.freeWord.toNat % 2 ^ 32)

/-- A read request to host memory, under a function's requester ID (R235). A read and what it brings back are one step, so
that the request stands among what that step sends (DESIGN CHOICE, notes/assumptions/3.md). -/
def State.hostAsk (s : State) (fn addr n : Nat) : State := s.emit (.hostRead fn addr n)

/-- Bytes are asked for and arrive from the host. -/
def State.hostReceived (s : State) (fn addr n : Nat) : State :=
  ((s.hostAsk fn addr n).tlpIn fn n).sampleHostRead fn

/-- Set an error bit of HIF_ERR_STATUS; HIF_ERR_INFO names the function of the first error (R262). -/
def State.hifErr (s : State) (b : Bits) (fn : Nat) : State :=
  s.raise HIF_ERR_STATUS b HIF_ERR_INFO HIF_ERR_INFO_FUNCTION fn

/-- Set an error bit of HIF_CTX_ERR_STATUS[c]; HIF_CTX_ERR_INFO[c] names the ring of the first error. -/
def State.ctxErr (s : State) (c : Nat) (b : Bits) (ring : Nat) : State :=
  s.raise (HIF_CTX_ERR_STATUS c) b (HIF_CTX_ERR_INFO c) HIF_CTX_ERR_INFO_RING ring

/-! ## Configuration space and MSI-X (R234, R243) -/

/-- What a writable dword of configuration space holds before the host writes it: Device Control as PCI Express gives it
(PRESUMED, notes/assumptions/27.md). -/
def cfgReset (off : Nat) : W32 := if off = 0x58 then 0x2810 else 0

/-- A dword of a function's configuration space, as written. -/
def State.cfgWord (s : State) (fn off : Nat) : W32 := (tabGet? s.hif.cfg (0x1000 * fn + off)).getD (cfgReset off)

def State.setCfg (s : State) (fn off : Nat) (v : W32) : State :=
  { s with hif := { s.hif with cfg := tabSet s.hif.cfg (0x1000 * fn + off) v } }

/-- Is the function's MSI-X enabled, and not masked as a whole (Message Control at 0xB0)? -/
def State.msixOn (s : State) (fn : Nat) : Bool := (s.cfgWord fn 0xB0).getLsbD 31 && !(s.cfgWord fn 0xB0).getLsbD 30

/-- May a vector's message be sent? -/
def State.msixOpen (s : State) (fn vector : Nat) : Bool := s.msixOn fn && s.hif.unmasked.contains (fn, vector)

/-- A host read error in a function's AER registers (Table 8): Poisoned TLP Received with Advisory Non-Fatal, or Completion
Timeout. -/
def State.noteAer (s : State) (fn : Nat) : HostErr → State
  | .ep => (s.setCfg fn 0x104 (s.cfgWord fn 0x104 ||| 0x1000)).setCfg fn 0x110 (s.cfgWord fn 0x110 ||| 0x2000)
  | .cto => s.setCfg fn 0x104 (s.cfgWord fn 0x104 ||| 0x4000)
  | .ur => s
  | .ca => s

/-- Send a vector's message, or set its pending bit while it is masked. -/
def State.msixSend (s : State) (fn vector : Nat) : State :=
  if s.msixOpen fn vector then
    if s.linkUp then (s.emit (.msix fn vector)).tlpOut fn 4 else s
  else if s.hif.msixPending.contains (fn, vector) then s
  else { s with hif := { s.hif with msixPending := s.hif.msixPending ++ [(fn, vector)] } }

/-- A record that qualifies triggers its ring's interrupt; triggers during the hold-off make one message at its end. -/
def State.ringInterrupt (s : State) (r : Nat) : State :=
  let g := s.ring r
  if !g.intrEn then s
  else if g.holding then s.setRing r { g with due := true }
  else (s.msixSend (s.servingFn r) g.vector).setRing r { g with holding := decide (g.holdoffUs > 0) }

/-! ## Completion records (R242, R252) -/

/-- Bytes 0 to 27 of a record: SW_TAG, DESC_SEQ and the class words. -/
def recordHead (tag : W32) (seq words : Nat) : List Byte :=
  leBytes 4 tag.toNat ++ leBytes 4 seq ++ leBytes 20 words

/-- Bytes 28 to 31 of a record. -/
def recordTail (status cls flags : Nat) (phase : Bool) : List Byte :=
  [BitVec.ofNat 8 status, BitVec.ofNat 8 cls, BitVec.ofNat 8 flags, if phase then 0x80 else 0]

/-- PHASE of the k-th record of a ring of 2^log2 entries (R242). -/
def recordPhase (log2 k : Nat) : Bool := decide (k / 2 ^ log2 % 2 = 0)

/-- An event of a ring's descriptor: admitted, completed with a status and class, or where the ring halted (Table 7 of
Performance Counters, Histograms and Cast Capture). -/
def State.traceRing (s : State) (kind r seq : Nat) (tag : W32) (arg : Nat) : State :=
  s.trace { kind := kind, ctx := (ringCtx r).getD 0xFF, ring := r, seq := BitVec.ofNat 32 seq, tag := tag,
            arg := BitVec.ofNat 32 arg }

/-- The two posted writes of the next record of a ring, and its interrupt. `want` says that the descriptor, the status or
a halt asks for one. -/
def State.putRecord (s : State) (r : Nat) (tag : W32) (seq words status cls flags : Nat) (want : Bool) : State :=
  let g := s.ring r
  if g.mute then s else
  let k := g.records.toNat
  let addr := g.cqBase.toNat + 32 * (k % 2 ^ g.log2)
  let fn := s.servingFn r
  let s1 := (s.hostWrite fn addr (recordHead tag seq words)).hostWrite fn (addr + 28)
    (recordTail status cls flags (recordPhase g.log2 k))
  let s2 := s1.setRing r { g with records := g.records + 1 }
  let s3 := (if status = stDone then s2 else s2.count 0x23 (ringCtxD r) 0 1).traceRing 1 r seq tag (status + 256 * cls)
  if want || status != stDone then s3.ringInterrupt r else s3

/-- Does a status count as a failure under CHECK (R248)? -/
def failsCheck (status : Nat) : Bool :=
  !(status == stDone || status == stAbortTooLate || status == stPictureSkipped || status == stStreamConcealed)

/-- Does sequence number `p` come before `q`? Numbers are counted modulo 2^32; less than half the range counts as before
(notes/assumptions/19.md). -/
def seqBefore (p q : Nat) : Bool :=
  p != q && decide ((BitVec.ofNat 32 q - BitVec.ofNat 32 p).toNat < 2 ^ 31)

/-- Is a sequence number among the last 2^LOG2_ENTRIES of the ring's fetched descriptors (R254)? Counting them from HEAD is
DEDUCED (notes/assumptions/19.md). -/
def Ring.inWindow (g : Ring) (seq : Nat) : Bool := decide ((g.head - BitVec.ofNat 32 seq).toNat ≤ 2 ^ g.log2)

/-- Keep the state word of a completed descriptor for the last 2^LOG2_ENTRIES sequence numbers (R254), and the failures of the
ring. -/
def State.noteDone (s : State) (r seq : Nat) (tag : W32) (cls status : Nat) : State :=
  let g := s.ring r
  s.setRing r { g with
    words := ⟨seq, tag, cls, 4, status⟩ :: g.words.filter fun w => g.inWindow w.seq && w.seq != seq
    fails := if failsCheck status && !(g.fails.any fun q => q == seq || seqBefore q seq) then g.fails ++ [seq] else g.fails }

/-- A completed descriptor's failure reaches the fences that cover it (R248). -/
def noteFence (r seq status : Nat) (w : Work) : Work :=
  if w.cls = clFence && w.covered.contains (r, seq) && failsCheck status && w.failed.isNone
      && decide (dF w.desc 9 1 % 2 = 1) then { w with failed := some (seq, r) }
  else w

/-- Everything the completion of one descriptor does to the rings, the queue of waiting work apart. -/
def State.recordOf (s : State) (r seq : Nat) (tag : W32) (cls status flags words : Nat) (intr : Bool) : State :=
  let s1 := (s.putRecord r tag seq words status cls flags intr).noteDone r seq tag cls status
  { s1 with hif := { s1.hif with works := s1.hif.works.map (noteFence r seq status) } }

/-! ## Work -/

/-- Is this the descriptor `seq` of ring `r`? -/
def Work.is (w : Work) (r seq : Nat) : Bool := w.ring == r && w.seq == seq

/-- The admitted descriptor `seq` of ring `r`. -/
def State.work? (s : State) (r seq : Nat) : Option Work := s.hif.works.find? (·.is r seq)

/-- Replace an admitted descriptor's entry. -/
def State.setWork (s : State) (w : Work) : State :=
  { s with hif := { s.hif with works := s.hif.works.map fun v => if v.is w.ring w.seq then w else v } }

/-- Drop an admitted descriptor's entry. -/
def State.dropWork (s : State) (r seq : Nat) : State :=
  { s with hif := { s.hif with works := s.hif.works.filter fun v => !(v.is r seq) } }

/-- A descriptor is admitted: it is counted and traced (R372, R378). -/
def State.noteAdmit (s : State) (r seq : Nat) (tag : W32) : State := (s.count 0x22 (ringCtxD r) 0 1).traceRing 0 r seq tag 0

/-- Add an admitted descriptor (R246): it takes the next age. -/
def State.addWork (s : State) (w : Work) : State :=
  let s1 := s.noteAdmit w.ring w.seq w.tag
  { s1 with hif := { s1.hif with works := s1.hif.works ++
    [{ w with age := s1.hif.nextAge, at_ := s1.now, gate0 := s1.pwr.gateUs }], nextAge := s1.hif.nextAge + 1 } }

/-- The entry of a descriptor just admitted, in the phase given. -/
def mkWork (r : Nat) (f : Fetched) (op : Nat) (ph : WPhase) : Work :=
  { ring := r, seq := f.seq, cls := dF f.desc 0 1, op := op, tag := BitVec.ofNat 32 (dF f.desc 4 4),
    intr := decide (dF f.desc 1 1 % 2 = 1), version := dF f.desc 2 2, desc := f.desc, phase := ph, age := 0 }

/-- The context of a descriptor in flight (0 on the management ring, which belongs to none). -/
def Work.ctx (w : Work) : Nat := ringCtxD w.ring

/-- Class words of an ABORT's record: TARGET_STATE and TARGET_CLASS (Table 10). -/
def abortWords (st cls : Nat) : Nat := st + 256 * cls

/-- The records of the ABORTs that waited for a target's record (R255). -/
def State.abortRecords (s : State) (w : Work) : State :=
  w.aborters.foldl (fun t a =>
    match t.work? a.1 a.2.1 with
    | some v => ((t.dropWork a.1 a.2.1).recordOf a.1 a.2.1 v.tag clAbort stDone 0 (abortWords a.2.2 w.cls) v.intr)
    | none => t) s

/-- Remember that a descriptor admitted for a context failed (R248, SCOPE 1). -/
def State.noteCtxFail (s : State) (r seq status : Nat) : State :=
  match ringCtx r with
  | some c =>
    if failsCheck status && (tabGet? s.hif.ctxFail c).isNone then
      { s with hif := { s.hif with ctxFail := tabSet s.hif.ctxFail c (seq, r) } }
    else s
  | none => s

/-! ## Heads, fences and what completes by itself -/

/-- Does a FENCE of the ring wait? No later descriptor is admitted before it completes (R248). -/
def State.fenced (s : State) (r : Nat) : Bool := s.hif.works.any fun w => w.ring == r && w.cls == clFence

/-- Are there admitted descriptors of the ring that have not completed? -/
def State.busy (s : State) (r : Nat) : Bool := s.hif.works.any fun w => w.ring == r

/-- Are there admitted descriptors of the ring before a sequence number that have not completed? An ABORT may be admitted ahead
of its turn. -/
def State.busyBefore (s : State) (r seq : Nat) : Bool := s.hif.works.any fun w => w.ring == r && seqBefore w.seq seq

/-- Is the descriptor's ORDERED bit set (R246)? -/
def ordered (d : Desc) : Bool := decide (dF d 1 1 / 2 % 2 = 1)

/-- The first descriptor of the ring's queue, when the order rules let it be checked now (R246, R248). -/
def State.head? (s : State) (r : Nat) : Option Fetched :=
  match (s.ring r).queue with
  | [] => none
  | f :: _ =>
    if s.fenced r then none
    else if ordered f.desc && s.busyBefore r f.seq && !f.aborted then none
    else some f

/-- Drop the first descriptor of the ring's queue. -/
def State.popHead (s : State) (r : Nat) : State :=
  let g := s.ring r
  s.setRing r { g with queue := g.queue.tail }

/-- Drop a descriptor of the ring's queue. -/
def State.popSeq (s : State) (r seq : Nat) : State :=
  let g := s.ring r
  s.setRing r { g with queue := g.queue.filter fun f => f.seq != seq }

/-- Complete a descriptor of the queue without admitting it. -/
def State.finishHead (s : State) (r : Nat) (f : Fetched) (status flags words : Nat) : State :=
  (s.popSeq r f.seq).recordOf r f.seq (BitVec.ofNat 32 (dF f.desc 4 4)) (dF f.desc 0 1) status flags words
    (decide (dF f.desc 1 1 % 2 = 1))

/-- Class words of a FENCE's record: COVERED, FAILED_SEQ, FAILED_RING (Table 10). -/
def fenceWords (w : Work) : Nat :=
  w.coveredCount + 2 ^ 32 * (match w.failed with | some f => f.1 | none => 0xFFFFFFFF) +
    2 ^ 64 * (match w.failed with | some f => f.2 % 128 | none => 0)

/-- f of R222 of an encode stream that a CODEC descriptor of the ring names. -/
def State.fullness (s : State) (r : Nat) (d : Desc) : Nat :=
  match tabGet? s.vcd.streams (dF d 9 1) with
  | some x => if ringCtx r = some x.ctx && x.encode then x.f % 2 ^ 32 else 0
  | none => 0

/-- Class words of a descriptor that did nothing: Table 10 gives a FENCE without a failure FAILED_SEQ 0xFFFF_FFFF, R210 gives a
SENT without a failing channel FIRST_BAD 0xFFF, and R230 gives a DECODE or FLUSH without a slot DEC_SLOT 0x1F and an ENCODE its
stream's fullness. -/
def State.idleWords (s : State) (r : Nat) (d : Desc) : Nat :=
  let cls := dF d 0 1
  if cls = clFence then 0xFFFFFFFF * 2 ^ 32 else if cls = clSent then 0xFFF * 2 ^ 16
  else if cls = clCodec then
    (if dF d 8 1 = 2 || dF d 8 1 = 4 then 0x1F else if dF d 8 1 = 3 then 2 ^ 32 * s.fullness r d else 0)
  else 0

/-- A FENCE whose condition is met completes: the signal, then the record (R248). -/
def State.finishFence (s : State) (w : Work) : State :=
  let s1 := s.dropWork w.ring w.seq
  match w.failed with
  | some _ => ((s1.recordOf w.ring w.seq w.tag clFence stAborted 0 (fenceWords w) w.intr).noteCtxFail w.ring w.seq
      stAborted).abortRecords w
  | none =>
    let s2 := if dF w.desc 9 1 / 2 % 2 = 1 then
        s1.hostWrite (s1.servingFn w.ring) (dF w.desc 16 8) (leBytes 8 (dF w.desc 24 8)) else s1
    (s2.recordOf w.ring w.seq w.tag clFence stDone 0 (fenceWords w) w.intr).abortRecords w

/-- Is every descriptor that a FENCE covers complete? -/
def State.fenceReady (s : State) (w : Work) : Bool :=
  w.cls == clFence && !(s.hif.works.any fun v => w.covered.contains (v.ring, v.seq))

/-- TIMEOUT_MS of a descriptor in microseconds: 0 stands for 10,000 ms. -/
def timeoutUs (ms : Nat) : Nat := 1000 * (if ms = 0 then 10000 else ms)

/-- Has TIMEOUT_MS passed at a time, since the work's start? -/
def Work.late (w : Work) (now ms : Nat) : Bool := decide (w.startAt + timeoutUs ms ≤ now)

/-- The same for a picture, whose TIMEOUT_MS of 0 stands for 1,000 ms (R227). -/
def Work.pictureLate (w : Work) (now : Nat) : Bool :=
  decide (w.startAt + 1000 * (if dF w.desc 14 2 = 0 then 1000 else dF w.desc 14 2) ≤ now)

/-- Is the work gate closed? -/
def State.gateClosed (s : State) : Bool := s.bit PWR_STATUS PWR_STATUS_GATE

/-- Is the work of a class that claims tiles? -/
def Work.claims (w : Work) : Bool :=
  w.cls == clKernel || (w.cls == clAttn && w.op != 3) || w.cls == clSort

/-- The banks that a DMA holds (R250). -/
def State.heldBanks (s : State) : List Nat :=
  s.hif.works.flatMap fun w => if w.cls = clDma && w.phase != .waiting then w.banks else []

/-- The banks that running claims include. -/
def State.claimedBanks (s : State) : List Nat :=
  s.hif.works.flatMap fun w => if w.claims && w.stage != .claimWait then w.banks else []

/-- A DMA that waits for the work gate or for banks that a claim includes may start (R250, R289). -/
def State.dmaReady (s : State) (w : Work) : Bool :=
  w.cls == clDma && w.phase == .waiting && !s.gateClosed && !(w.banks.any s.claimedBanks.contains)

/-- A queue head that completes without its class's checks: one that an ABORT reached before admission, or one whose
header failed (R245, R255). -/
def State.drainable (s : State) (r : Nat) : Option (Fetched × Nat) :=
  match s.head? r with
  | some f =>
    if f.aborted then some (f, stAborted)
    else match f.header with
      | some st => some (f, st)
      | none => none
  | none => none

/-- A ring whose fetching was stopped reads disabled once its admitted work has completed (R237, R262); a RING_DELETE
completes after the last record of its ring (R257). -/
def State.settleRing (s : State) (r : Nat) : State :=
  let g := s.ring r
  if g.closing && !s.busy r then
    match g.deleting with
    | some d =>
      let s1 := s.setRing r {}
      match s1.work? d.1 d.2 with
      | some w => (s1.dropWork d.1 d.2).recordOf d.1 d.2 w.tag clAdmin stDone 0 0 w.intr
      | none => s1
    | none => s.setRing r { g with enabled := false, closing := false, queue := [] }
  else s

/-- One thing that completes or starts by itself, if there is one. -/
def State.settleOne (s : State) : Option State :=
  match s.hif.works.find? s.fenceReady with
  | some w => some (s.finishFence w)
  | none =>
  match s.hif.works.find? s.dmaReady with
  | some w => some (s.setWork { w with phase := .running, startAt := s.now })
  | none =>
    match s.hif.rings.findSome? (fun p => (s.drainable p.1).map fun x => (p.1, x)) with
    | some (r, f, st) => some (s.finishHead r f st 0 (s.idleWords r f.desc))
    | none =>
      match s.hif.rings.find? (fun p => p.2.closing && !s.busy p.1) with
      | some p => some (s.settleRing p.1)
      | none => none

/-- Everything that completes by itself, at most `n` things. -/
def State.settleN : Nat → State → State
  | 0, s => s
  | n + 1, s =>
    match s.settleOne with
    | some t => State.settleN n t
    | none => s

/-- Everything that completes by itself. -/
def State.settle (s : State) : State :=
  s.settleN (2 * s.hif.works.length + s.hif.rings.length + (s.hif.rings.map fun p => p.2.queue.length).sum)

/-- Complete an admitted descriptor: its record, the records of the ABORTs that wait for it, and what that lets
complete. What the work held has been released before. -/
def State.complete (s : State) (w : Work) (status flags words : Nat) : State :=
  let s1 := (s.dropWork w.ring w.seq).recordOf w.ring w.seq w.tag w.cls status flags words w.intr
  ((s1.noteCtxFail w.ring w.seq status).abortRecords w).settle

/-- Complete a descriptor that failed a check (R246). -/
def State.reject (s : State) (r : Nat) (f : Fetched) (status : Nat) : State :=
  (s.finishHead r f status 0 (s.idleWords r f.desc)).settle

/-- The same with class words of its own. -/
def State.rejectWith (s : State) (r : Nat) (f : Fetched) (status words : Nat) : State := (s.finishHead r f status 0 words).settle

/-- Complete a descriptor that did its work at its admission. -/
def State.finishNow (s : State) (r : Nat) (f : Fetched) (status flags words : Nat) : State :=
  let s1 := if status = stDone then s.noteAdmit r f.seq (BitVec.ofNat 32 (dF f.desc 4 4)) else s
  (((s1.finishHead r f status flags words)).noteCtxFail r f.seq status).settle

/-! ## Roles and the Sentinel context (R189, R327, R338) -/

/-- Roles of Table 4 of Olper Links, Cascades and Hot-Standby Pairs. -/
def roleSolo : Nat := 0
def roleActive : Nat := 1
def roleStandby : Nat := 2
def roleIsolated : Nat := 4
def roleSwapping : Nat := 3

/-- The module's role. -/
def State.role (s : State) : Nat := s.fld OLP_ROLE OLP_ROLE_ROLE

/-- The Sentinel context while the Sentinel is enabled (R189). -/
def State.sentCtx (s : State) : Option Nat :=
  if s.bit STN_CTRL STN_CTRL_ENABLE then some (s.fld STN_CTRL STN_CTRL_CTX) else none

/-- Classes that the role gate concerns (R328). -/
def gatedClass (cls : Nat) : Bool := cls == clKernel || cls == clAttn || cls == clSort || cls == clCodec

/-- While SWAP_DUE is set, the role gate is closed for new work of those classes, which waits and does not fail (R338). -/
def State.swapHolds (s : State) (r cls : Nat) : Bool :=
  s.bit OLP_ROLE OLP_ROLE_SWAP_DUE && s.bit OLP_PAIR OLP_PAIR_ROLE_GATE && gatedClass cls && s.sentCtx != ringCtx r

/-- Classes that run in every role except ISOLATED beside the gated ones (R328). DESIGN CHOICE (notes/assumptions/29.md): in that
role their descriptors complete with FAILED_OVER before their other checks; FENCE, ABORT and ADMIN, which ends the role, run on. -/
def isolatedClass (cls : Nat) : Bool := cls == clDma || cls == clSeq || cls == clSent || cls == clHint

/-- Does the ISOLATED role keep a class from running? -/
def State.isolates (s : State) (cls : Nat) : Bool := s.role == roleIsolated && isolatedClass cls

/-- The head of a ring's queue when it is of class `cls`, its header has passed and the order rules let it be checked. -/
def State.headOf (s : State) (r cls : Nat) : Option Fetched :=
  match s.head? r with
  | some f => if dF f.desc 0 1 = cls && f.header.isNone && !f.aborted && !(s.swapHolds r cls) then some f else none
  | none => none

/-- Run a class's command on the head of its ring; where the head is not one, nothing happens (notes/assumptions/1.md). -/
def State.withHead (s : State) (r cls op : Nat) (k : Fetched → State) : State :=
  match s.headOf r cls with
  | some f => if dF f.desc 8 1 = op then (if s.isolates cls then s.reject r f stFailedOver else k f) else s
  | none => s

/-- The same for a class whose body has no OP byte. -/
def State.withHeadAny (s : State) (r cls : Nat) (k : Fetched → State) : State :=
  match s.headOf r cls with
  | some f => if s.isolates cls then s.reject r f stFailedOver else k f
  | none => s

/-- The first check of a list that fails gives the status (R57, R114, R157, R179). -/
def firstFail : List (Bool × Nat) → Option Nat
  | [] => none
  | (ok, st) :: cs => if ok then firstFail cs else some st

/-- Is the ring one where ADMIN operations of the management ring are admitted? -/
def onMgmt (r : Nat) : Bool := r == mgmtRing

/-- Is it ring 0 of a context? -/
def onRing0 (r : Nat) : Bool := decide (r < 4096) && decide (r % 128 = 0)

/-- An ADMIN operation: on a ring that does not admit it, ACCESS_DENIED (R256). -/
def State.withAdmin (s : State) (r op : Nat) (admitted : Bool) (k : Fetched → State) : State :=
  s.withHead r clAdmin op fun f => if admitted then k f else s.reject r f stAccessDenied

end Sys2Proof.Machine
end

