-- ==== Sys2Proof/Machine/Memory.lean ====
section
/-! DEFINITION. Module DRAM as work sees it: grants and protected regions, the memory-side cache, the write watch of
the verified-object caches, and memory errors (R17, R19, R58, R259, R269, R270, R272). -/

namespace Sys2Proof.Machine

/-! ## Grants and protected regions (R269, R270) -/

/-- Do two regions overlap? -/
def overlaps (a la b lb : Nat) : Bool := decide (0 < la) && decide (0 < lb) && decide (a < b + lb) && decide (b < a + la)

/-- Walk forward through the grants from `a`; is `hi` reached? -/
def coveredBy (gs : Tab (Nat × Nat)) (hi : Nat) : Nat → Nat → Bool
  | 0, a => decide (hi ≤ a)
  | n + 1, a =>
    if hi ≤ a then true
    else match gs.find? (fun g => decide (g.2.1 ≤ a) && decide (a < g.2.1 + g.2.2)) with
      | some g => coveredBy gs hi n (g.2.1 + g.2.2)
      | none => false

/-- Does a region lie within context `c`'s DRAM grant (R269)? -/
def State.inGrant (s : State) (c addr len : Nat) : Bool := coveredBy (s.ctx c).grants (addr + len) 17 addr

/-- Does a region overlap a protected region of context `c` (R270)? -/
def State.hitsProt (s : State) (c addr len : Nat) : Bool :=
  (s.ctx c).prots.any fun p => overlaps addr len p.2.base p.2.len

/-- A protected region that the region overlaps and that `keyId` does not open (R270, R271). -/
def State.hitsProtNotKey (s : State) (c addr len : Nat) (keyId : Option W32) : Bool :=
  (s.ctx c).prots.any fun p =>
    overlaps addr len p.2.base p.2.len &&
      !(match tabGet? (s.ctx c).keys p.2.slot with
        | some k => (k.keyId == p.2.keyId) && (some p.2.keyId == keyId)
        | none => false)

/-- Set an error bit of SEC_ERR_STATUS; SEC_ERR_INFO names the context of the first error (R282). -/
def State.secErr (s : State) (b : Bits) (c : Nat) : State :=
  s.raise SEC_ERR_STATUS b SEC_ERR_INFO SEC_ERR_INFO_CTX c

/-- An access to a protected region is refused: PROTECTED_ACCESS. -/
def State.protErr (s : State) (c : Nat) : State := s.secErr SEC_ERR_STATUS_PROTECTED_ACCESS c

/-! ## The memory-side cache (R19) -/

/-- The directory set of a DRAM line: channel and set number of its channel-local line. DESIGN CHOICE
(notes/assumptions/22.md): R19 gives 4,096 sets and no index; the set is the channel-local line number modulo 4,096. -/
def cacheSet (line : Nat) : Nat :=
  let a := line * 64
  dramChannel a * 4096 + channelLocal a / 64 % 4096

/-- Is the line here under this context's tag? -/
def hasLine (line c : Nat) (e : Nat × Nat × Bool) : Bool := e.1 == line && e.2.1 == c

/-- A channel domain switches ON and accepts accesses (R25); its patrol runs as enabled. -/
def State.memOn (s : State) (m : Nat) : State :=
  (s.setOn (.mem m) true).setBit (MEM_STATUS m) MEM_STATUS_PATROL_RUN (s.bit (MEM_PATROL m) MEM_PATROL_ENABLE)

/-- An access to a channel that is OFF wakes it (R24), once it has trained (R20). -/
def State.wakeMem (s : State) (m : Nat) : State :=
  if s.isOn (.mem m) || !(s.bit (MEM_STATUS m) MEM_STATUS_TRAINED) then s else s.memOn m

/-- One access to a line for a context: a hit moves it to the front, a miss fills it in place of the least recently used
of 16; a dirty line that leaves is written to the device. -/
def State.touchLine (s0 : State) (c line : Nat) (write : Bool) : State :=
  let k := cacheSet line
  let m := dramChannel (line * 64)
  let s := s0.wakeMem m
  let ways := tabGetD s.mem.lines k []
  match ways.find? (hasLine line c) with
  | some e =>
    let ws := (line, c, e.2.2 || write) :: ways.filter fun x => !(hasLine line c x)
    { s.count 0x10 c m 1 with mem := { s.mem with lines := tabSet s.mem.lines k ws } }
  | none =>
    let ws := (line, c, write) :: ways
    let gone := ws.drop 16
    let s1 := s.count 0x11 c m 1
    let s2 := if write then s1 else (s1.count 0x12 c m 1).bwAdd (2 + m) 64
    let s3 := gone.foldl (fun t e => if e.2.2 then (t.count 0x13 e.2.1 m 1).bwAdd (2 + m) 64 else t) s2
    { s3 with mem := { s3.mem with lines := tabSet s3.mem.lines k (ws.take 16) } }

/-- The lines of a region. -/
def linesOf (addr len : Nat) : List Nat :=
  if len = 0 then [] else (List.range ((addr + len - 1) / 64 + 1 - addr / 64)).map (addr / 64 + ·)

/-- Every line of a region is accessed for a context. -/
def State.touch (s : State) (c addr len : Nat) (write : Bool) : State :=
  (linesOf addr len).foldl (fun t l => t.touchLine c l write) s

/-- Write back and drop the lines that `gone` picks (a purge of R268, or a channel's OFF sequence of R25). -/
def State.purge (s : State) (gone : Nat × Nat × Bool → Bool) : State :=
  let dirty := s.mem.lines.flatMap fun e => e.2.filter fun x => gone x && x.2.2
  let s1 := dirty.foldl (fun t x =>
    let m := dramChannel (x.1 * 64)
    (t.count 0x13 x.2.1 m 1).bwAdd (2 + m) 64) s
  { s1 with mem := { s1.mem with
      lines := (s1.mem.lines.map fun e => (e.1, e.2.filter fun x => !(gone x))).filter fun e => e.2 != [] } }

/-! ## The verified-object cache and its write watch (R58) -/

/-- Evict every cached object whose DRAM range a write overlaps, in every context. -/
def State.evictObjects (s : State) (addr len : Nat) : State :=
  { s with sec := { s.sec with
      ctxs := s.sec.ctxs.map fun e => (e.1, { e.2 with cache := e.2.cache.filter fun o => !(overlaps addr len o.addr o.len) }) } }

/-- Does a write overlap the object of a kernel between steps 6 and 10 of its launch? It is refused (R58). -/
def State.objectBusy (s : State) (addr len : Nat) : Bool :=
  s.hif.works.any fun w =>
    w.kern.isSome && (w.stage == .running || w.stage == .finishing) &&
      overlaps addr len (dF w.desc 8 5) (dF w.desc 16 4)

/-- A whole-line write removes the line's error (R259). -/
def State.heal (s : State) (addr len : Nat) : State :=
  { s with mem := { s.mem with bad := s.mem.bad.filter fun l => !(decide (addr ≤ 64 * l) && decide (64 * l + 64 ≤ addr + len)) } }

/-- A DRAM write on behalf of a context: the write watch first, then the cache and the contents. -/
def State.dramWrite (s : State) (c addr : Nat) (bs : List Byte) : State :=
  ((((s.evictObjects addr bs.length).touch c addr bs.length true).heal addr bs.length).dramPut c addr bs).carry c addr bs.length

/-- A DRAM region that a stop left undefined: free values under the context's key. What wrote it was seen by the write
watch when it was written. -/
def State.dramUndef (s : State) (c addr len : Nat) : State :=
  let s1 := (s.evictObjects addr len).dramPut c addr (freeBytes s.free len)
  { s1 with free := s1.free + len }

/-- A bank region that a stop left undefined. -/
def State.bankUndef (s : State) (addr len : Nat) : State :=
  let s1 := s.bankPut addr (freeBytes s.free len)
  { s1 with free := s1.free + len }

/-! ## Region checks of descriptors -/

/-- The check that a descriptor's DRAM region lies within module DRAM, within the grant, and off every protected region
(R17, R269, R270). -/
def State.dramOk (s : State) (c addr len : Nat) : Bool :=
  inDram addr len && s.inGrant c addr len && !(s.hitsProt c addr len)

/-- The check of a DRAM region that a descriptor writes: an open receive window is read-only too (R320). -/
def State.dramOkW (s : State) (c addr len : Nat) : Bool := s.dramOk c addr len && !(s.hitsRecv addr len)

/-- PROTECTED_ACCESS, when that is why the region failed. -/
def State.noteProt (s : State) (c addr len : Nat) : State :=
  if inDram addr len && s.inGrant c addr len && s.hitsProt c addr len then s.protErr c else s

/-- The same for a region that is written. -/
def State.noteProtW (s : State) (c addr len : Nat) : State :=
  if inDram addr len && s.inGrant c addr len && (s.hitsProt c addr len || s.hitsRecv addr len) then s.protErr c else s

/-! ## DRAM errors (R259) -/

/-- A corrected beat on channel `m`. -/
def State.eccCorrected (s : State) (m : Nat) : State :=
  (s.addSat (MEM_ECC_COUNT m) MEM_ECC_COUNT_CORRECTED 1).count 0x14 0 m 1

/-- Record an uncorrectable read in MEM_UE_ADDR[m], unless a record is held. -/
def State.ueRecord (s : State) (m loc c : Nat) (patrol : Bool) : State :=
  if s.bit (MEM_UE_ADDR m) MEM_UE_ADDR_VALID then s
  else
    (((s.setBit (MEM_UE_ADDR m) MEM_UE_ADDR_VALID true).setBit (MEM_UE_ADDR m) MEM_UE_ADDR_FROM_PATROL patrol).setFld
      (MEM_UE_ADDR m) MEM_UE_ADDR_CTX (if patrol then 0 else c)).setFld (MEM_UE_ADDR m) MEM_UE_ADDR_LOCAL_ADDR (loc / 64 * 64)

/-- A line is found uncorrectable: it stays so until it is written whole (R259). -/
def State.spoil (s : State) (line : Nat) : State :=
  if s.mem.bad.contains line then s else { s with mem := { s.mem with bad := s.mem.bad ++ [line] } }

/-- A demand read of channel `m` was uncorrectable: counted and recorded, and its time kept for UE_LIMIT. -/
def State.ueDemand (s : State) (addr c : Nat) : State :=
  let m := dramChannel addr
  let s0 := s.spoil (addr / 64)
  let s1 := (s0.addSat (MEM_UE_COUNT m) MEM_UE_COUNT_DEMAND 1).ueRecord m (channelLocal addr) c false
  let times := (s1.hif.ueTimes.filter fun t => decide (s1.now < t + 3600000000)) ++ [s1.now]
  ({ s1 with hif := { s1.hif with ueTimes := times } }).report evMemory m

/-- Does the region hold a line found uncorrectable? -/
def State.badLine (s : State) (addr len : Nat) : Option Nat := s.mem.bad.find? fun l => overlaps addr len (64 * l) 64

/-- A read of DRAM regions meets an uncorrectable line: it is counted, and the work that reads fails (R259); none when every
read is good. -/
def State.readFails (s : State) (c : Nat) (rs : List (Nat × Nat)) : Option State :=
  (rs.findSome? fun r => s.badLine r.1 r.2).map fun l => s.ueDemand (64 * l) c

/-- Have the demand errors of the last hour reached UE_LIMIT? A limit of 0 disables this. -/
def State.ueLimitReached (s : State) : Bool :=
  let l := s.fld HIF_CTRL HIF_CTRL_UE_LIMIT
  decide (0 < l) && decide (l ≤ s.hif.ueTimes.length)

end Sys2Proof.Machine
end

