-- ==== Sys2Proof/Machine/Domains.lean ====
section
/-! DEFINITION. Power domains switching ON and OFF and what each loses, the clocks that run, bank ownership and bank
power states as shared operations (Module and Die Organisation R21 to R27; Stacked Scratchpad Banks R86 to R94). -/

namespace Sys2Proof.Machine

/-! ## Bank registers by global bank number -/

def bankOwner (g : Nat) : Nat := BANK_OWNER (g / 8) (g % 8)
def bankState (g : Nat) : Nat := BANK_STATE (g / 8) (g % 8)

/-- Bank power states (R90): the codes of PWR_STATE. -/
def pwrOff : Nat := 0
def pwrRet : Nat := 1
def pwrOn : Nat := 2

def State.bankPwr (s : State) (g : Nat) : Nat := s.fld (bankState g) BANK_STATE_PWR_STATE
def State.bankValid (s : State) (g : Nat) : Bool := s.bit (bankOwner g) BANK_OWNER_VALID
def State.bankCtx (s : State) (g : Nat) : Nat := s.fld (bankOwner g) BANK_OWNER_CTX
def State.bankHandover (s : State) (g : Nat) : Bool := s.bit (bankOwner g) BANK_OWNER_HANDOVER
def State.bankClean (s : State) (g : Nat) : Bool := s.bit (bankOwner g) BANK_OWNER_CLEAN
def State.bankClearing (s : State) (g : Nat) : Bool := s.bit (bankState g) BANK_STATE_CLEARING

/-- Does context `c` own the bank? -/
def State.ownsBank (s : State) (c g : Nat) : Bool := s.bankValid g && s.bankCtx g == c

/-- The owner that an admission check sees: the pending one while a handover runs (R87). -/
def State.bankOwnerSeen (s : State) (g : Nat) : Option Nat :=
  if s.bankHandover g then
    if s.bit (bankOwner g) BANK_OWNER_PEND_VALID then some (s.fld (bankOwner g) BANK_OWNER_PEND_CTX) else none
  else if s.bankValid g then some (s.bankCtx g) else none

/-- Contents of a bank become zero. -/
def State.bankZero (s : State) (g : Nat) : State :=
  { s with mem := { s.mem with bank := memZero s.mem.bank (g * 0x100000) ((g + 1) * 0x100000) } }

/-- A hardware clear starts (R93). -/
def State.startClear (s : State) (g : Nat) : State :=
  let s1 := (s.setBit (bankState g) BANK_STATE_CLEARING true).setFld (bankState g) BANK_STATE_CLEAR_LEFT 16384
  s1.setBank g { s1.bankSt g with clearAt := s1.now }

/-- A hardware clear ends: zero contents, CLEAN, and no bad group is left (R80, R88, R93). -/
def State.endClear (s : State) (g : Nat) : State :=
  let s1 := (((s.bankZero g).setBit (bankState g) BANK_STATE_CLEARING false).setFld (bankState g) BANK_STATE_CLEAR_LEFT
    0).setBit (bankOwner g) BANK_OWNER_CLEAN true
  s1.setBank g { s1.bankSt g with bad := [] }

/-- A bank goes OFF: its contents are lost. They are never seen again, because every exit from OFF clears (R91), so they
are dropped here. -/
def State.bankOff (s : State) (g : Nat) : State :=
  ((s.bankZero g).setFld (bankState g) BANK_STATE_PWR_STATE pwrOff).setBit (bankState g) BANK_STATE_WAKING false

/-- A bank goes to RET. -/
def State.bankRet (s : State) (g : Nat) : State := s.setFld (bankState g) BANK_STATE_PWR_STATE pwrRet

/-- What R91 does with a bank that has no owner: OFF under FREE_OFF, RET otherwise; an OFF bank stays OFF. -/
def State.freeBank (s : State) (g : Nat) : State :=
  if s.bankPwr g = pwrOff then s
  else if s.bit (BANK_PWR_POLICY (g / 8)) BANK_PWR_POLICY_FREE_OFF then s.bankOff g
  else s.bankRet g

/-! ## Domains ON and OFF (R22 to R27) -/

/-- The cluster of a tile. -/
def tileCluster (t : Nat) : Nat := t / 8

/-- The arithmetic clock that a cluster starts at: 320 MHz nominal, 80 MHz steps being the voltage loop's business
(R21, R292). -/
def nominalMhz : Nat := 320

/-- A domain's power switch closes and it accepts accesses (R25). -/
def State.powerOn (s : State) (d : Domain) : State :=
  match d with
  | .hub c => (s.setOn d true).setFld (GLB_CLU_FREQ c) GLB_CLU_FREQ_MHZ nominalMhz
  | .mem m => s.memOn m
  | _ => s.setOn d true

/-- What each domain loses at OFF (Table 6 of Module and Die Organisation). The bank registers of a tile's window stay:
bank arrays stand on their own rail and their ownership outlives the tile domain (R27, R95). -/
def State.loseDomain (s : State) (d : Domain) : State :=
  match d with
  | .tile t =>
    let lo := 0x1000000 + t * 0x40000
    let s1 := ((s.clearRange lo (lo + 0x20000)).clearRange (lo + 0x30000) (lo + 0x40000)).setTile t {}
    s1.each (tileBanks t) fun u g => if u.bankPwr g = pwrOn then u.bankRet g else u
  | .hub c =>
    let s1 := s.setHub c { (s.hub c) with buffer := [], setQueue := [], setRunning := none, waves := [] }
    ((s1.clearReg (SET_STATUS c)).setFld (WALK_STATUS c) WALK_STATUS_VALID 0).setFld (GLB_CLU_FREQ c) GLB_CLU_FREQ_MHZ 0
  | .mem m => s.purge fun x => dramChannel (x.1 * 64) == m
  | .codec v => if v = 0 then s.clearRange 0x80000 0x81000 else s
  | .port p => s.setFld (OLP_PORT_STATUS p) OLP_PORT_STATUS_STATE 0
  | .hcx => s

/-- The power switch opens; the status bit clears. -/
def State.powerOff (s : State) (d : Domain) : State := (s.loseDomain d).setOn d false

/-- Is any tile of the cluster ON? -/
def State.anyTileOn (s : State) (c : Nat) : Bool := (clusterTiles c).any fun t => s.isOn (.tile t)

/-- Wake a tile for work: its hub first (R23, R24, R348). -/
def State.wakeTile (s : State) (t : Nat) : State :=
  let s1 := if s.isOn (.hub (tileCluster t)) then s else s.powerOn (.hub (tileCluster t))
  if s1.isOn (.tile t) then s1 else s1.powerOn (.tile t)

/-- Wake the codec cores for a picture (R24, R348). -/
def State.wakeCodec (s : State) : State :=
  s.each (List.range 8) fun t v => if t.isOn (.codec v) then t else t.powerOn (.codec v)

/-- Is DDR4 training under way: step 5 of the start sequence, until DDR_TRAINING gives its outcome (R20)? Phase 2 is
STARTING. -/
def State.ddrTrains (s : State) : Bool :=
  s.fld MGT_STATE MGT_STATE_PHASE == 2 && s.isOn .hcx && s.aon.secDone && s.aon.trained == 0

/-- Does clock domain `d` of Table 5 run (R21)? FUSE runs only during the fuse sense of a reset, which is over before any
register can be read. DESIGN CHOICE (notes/assumptions/22.md): the I3C bus counts as active while the port has a dynamic
address, TCK as driven in the microsecond of a TAP command, and the PCIe link as training while PERST_N is high. -/
def State.clockRuns (s : State) (d : Nat) : Bool :=
  let hcx := s.isOn .hcx
  let ped := s.aon.rails && !(s.aon.level == .off)
  if d = 1 || d = 2 || d = 38 then s.aon.rails
  else if 3 ≤ d && d ≤ 10 then s.isOn (.hub (d - 3)) && s.anyTileOn (d - 3)
  else if d = 11 || d = 36 || d = 39 || d = 59 || d = 60 then hcx
  else if 12 ≤ d && d ≤ 23 then s.isOn (.mem (d - 12))
  else if 24 ≤ d && d ≤ 35 then s.isOn (.mem (d - 24))
  else if d = 37 then hcx && (s.linkUp || !s.hif.perstLow)
  else if d = 40 then (List.range 8).any fun v => s.isOn (.codec v)
  else if 41 ≤ d && d ≤ 46 then s.isOn (.port ((d - 41) / 2))
  else if d = 47 || d = 57 then (List.range 3).any fun p => s.isOn (.port p)
  else if d = 48 || d = 49 || d = 50 || d = 55 then ped
  else if d = 51 then s.aon.i3cAddr.isSome
  else if d = 52 then s.aon.cast.tckAt == some s.now
  else if d = 53 then hcx && s.bit MON_TRACE_CTRL MON_TRACE_CTRL_ENABLE
  else if d = 54 then (List.range 8).any fun c => s.isOn (.hub c)
  else if d = 58 then s.ddrTrains
  else false

/-- The word of running clocks, domains `lo + 1` to `lo + n`. -/
def State.clockWord (s : State) (lo n : Nat) : Nat :=
  ((List.range n).map fun i => if s.clockRuns (lo + i + 1) then 2 ^ i else 0).sum

/-! ## Bank handover (R86 to R89) -/

/-- The last step of a handover: CTX and VALID take the pending values (Table 4, step 5). -/
def State.handoverDone (s : State) (g : Nat) : State :=
  let o := bankOwner g
  let pv := s.bit o BANK_OWNER_PEND_VALID
  let s1 := (((s.setFld o BANK_OWNER_CTX (if pv then s.fld o BANK_OWNER_PEND_CTX else s.fld o BANK_OWNER_CTX)).setBit o
    BANK_OWNER_VALID pv).setBit o BANK_OWNER_HANDOVER false).setBit o BANK_OWNER_PEND_VALID false
  if pv then s1.setBank g { s1.bankSt g with lastAccess := s1.now } else s1.freeBank g

/-- Does a handover to context `x` need the clear (R88)? -/
def State.needsClear (s : State) (g x : Nat) : Bool :=
  !(s.bankClean g) && !(s.fld (bankOwner g) BANK_OWNER_LAST_CTX == x)

/-- Have the accesses that passed the check, and the fills reserved, completed (R87: the outstanding count is zero)? -/
def BankSt.quiet (b : BankSt) : Bool := b.outstanding == 0 && !(b.waiting.any (·.passed))

/-- Go on with a handover as far as it can go now (Table 4): it waits for outstanding accesses, for a wake, and for a
clear. -/
def State.advanceHandover (s : State) (g : Nat) : State :=
  let o := bankOwner g
  if !(s.bankHandover g) then s
  else if !(s.bankSt g).quiet then s
  else if !(s.bit o BANK_OWNER_PEND_VALID) then s.handoverDone g
  else if s.bankPwr g ≠ pwrOn then (s.wakeTile (g / 8)).setBit (bankState g) BANK_STATE_WAKING true
  else if s.bankClearing g then s
  else if s.needsClear g (s.fld o BANK_OWNER_PEND_CTX) then s.startClear g
  else s.handoverDone g

/-- A write of the owner through the internal port (R86, R87): refused while HANDOVER is set. -/
def State.writeOwner (s : State) (g : Nat) (owner : Option Nat) : State :=
  let o := bankOwner g
  if s.bankHandover g then s
  else
    (((s.setBit o BANK_OWNER_HANDOVER true).setBit o BANK_OWNER_PEND_VALID owner.isSome).setFld o BANK_OWNER_PEND_CTX
      (owner.getD 0)).advanceHandover g

/-- Hand a bank to a context for a launch, when it does not own it or the bank is not ON (Table 6 of Tiles, Matrix
Engines and Kernel Execution, step 5; R91). -/
def State.handTo (s : State) (c g : Nat) : State :=
  if s.ownsBank c g && s.bankPwr g = pwrOn && !(s.bankHandover g) && !(s.bankClearing g) then s
  else if s.bankHandover g then s.advanceHandover g
  else s.writeOwner g (some c)

/-- Is a bank the context's, ON and at rest? -/
def State.bankReadyFor (s : State) (c g : Nat) : Bool :=
  s.ownsBank c g && s.bankPwr g == pwrOn && !(s.bankHandover g) && !(s.bankClearing g)

/-- A bank's wake to ON ends (R90, R91): a bank that was OFF is then cleared. -/
def State.wakeDone (s : State) (g : Nat) : State :=
  let was := s.bankPwr g
  let s1 := (s.setFld (bankState g) BANK_STATE_PWR_STATE pwrOn).setBit (bankState g) BANK_STATE_WAKING false
  if was = pwrOff then s1.startClear g else s1.advanceHandover g

/-- The 8 B groups of a bank-space range that it covers whole. -/
def wholeGroups (a n : Nat) : List Nat := (List.range ((a + n) / 8 - (a + 7) / 8)).map ((a + 7) / 8 + ·)

/-- The first group of a bank-space range that was found uncorrectable and not rewritten since (R80). -/
def State.badGroup (s : State) (a n : Nat) : Option Nat :=
  (s.bankSt (bankOf a)).bad.find? fun x => decide (a < 8 * x + 8) && decide (8 * x < a + n)

/-- A corrected single-bit error is counted (R80). -/
def State.bankCorrected (s : State) (g : Nat) : State := s.addSat (BANK_ECC (g / 8) (g % 8)) BANK_ECC_CORRECTED 1

/-- An uncorrectable group of bank `g` is counted and recorded (R80), and stays so until it is rewritten. -/
def State.bankUncorrected (s : State) (g group : Nat) : State :=
  let e := BANK_ECC (g / 8) (g % 8)
  let s1 := if s.fld e BANK_ECC_UNCORRECTED = 0 then
      s.setFld (BANK_ECC_ADDR (g / 8) (g % 8)) BANK_ECC_ADDR_OFFSET (group * 8 % 0x100000 / 64 * 64) else s
  let b := s1.bankSt g
  (s1.setBank g { b with bad := if b.bad.contains group then b.bad else b.bad ++ [group] }).addSat e BANK_ECC_UNCORRECTED 1

/-- A read of bank-space pieces meets an uncorrectable group: it is counted, and the work that reads fails (R80). -/
def State.bankFails (s : State) (ps : List (Nat × Nat)) : Option State :=
  (ps.findSome? fun p => s.badGroup p.1 p.2).map fun x => s.bankUncorrected (bankOf (8 * x)) x

/-- A write of pieces meets an uncorrectable group that it covers in part, whose read phase fails (R80). -/
def State.bankPartFails (s : State) (ps : List (Nat × Nat)) : Option State :=
  (ps.findSome? fun p => (s.bankSt (bankOf p.1)).bad.find? fun x => decide (p.1 < 8 * x + 8) && decide (8 * x < p.1 + p.2) &&
    !(decide (p.1 ≤ 8 * x) && decide (8 * x + 8 ≤ p.1 + p.2))).map fun x => s.bankUncorrected (bankOf (8 * x)) x

/-- A request to a bank in RET wakes it (R91). -/
def State.wakeForReq (s : State) (g : Nat) : State :=
  if s.bankPwr g = pwrRet then (s.wakeTile (g / 8)).setBit (bankState g) BANK_STATE_WAKING true else s

/-- A bank write was served: CLEAN clears and LAST_CTX names the owner (R88). -/
def State.bankDirty (s : State) (g : Nat) : State :=
  (s.setBit (bankOwner g) BANK_OWNER_CLEAN false).setFld (bankOwner g) BANK_OWNER_LAST_CTX (s.bankCtx g)

/-- Bytes are written to banks by work of the owner; a whole group written is good again (R80). -/
def State.bankWrite (s : State) (a : Nat) (bs : List Byte) : State :=
  let s1 := (s.bankPut a bs).bankDirty (bankOf a)
  let b := s1.bankSt (bankOf a)
  s1.setBank (bankOf a) { b with
    lastAccess := s1.now, bad := b.bad.filter fun x => !((wholeGroups a bs.length).contains x) }

end Sys2Proof.Machine
end

