-- ==== Sys2Proof/Machine/Claims.lean ====
section
/-! DEFINITION. Partitions as admission sees them, the gates, placement and claims, their release, and how work stops
(Tiles, Matrix Engines and Kernel Execution, R59 to R66; R189, R250, R266, R267, R289, R291, R328). -/

namespace Sys2Proof.Machine

/-! ## Partitions and the Sentinel (R189, R265 to R267) -/

/-- The clusters of a partition. -/
def State.partClusters (s : State) (p : Nat) : List Nat := bits8 (s.part p).clusters.toNat

/-- Is a context in a partition's schedule? -/
def Part.schedules (p : Part) (c : Nat) : Bool := p.ctxMask.getLsbD c

/-- The partition that a context holds, if any (R267, "holds a partition"). -/
def State.partOf (s : State) (c : Nat) : Option Nat :=
  (List.range 8).find? fun p => (s.part p).clusters != 0 && (s.part p).schedules c

/-- The partition to which a cluster belongs. -/
def State.clusterPart (s : State) (cl : Nat) : Option Nat := (List.range 8).find? fun p => (s.part p).clusters.getLsbD cl

/-- Does the Sentinel run on the partition? -/
def State.sentPart (s : State) (p : Nat) : Bool :=
  s.bit STN_CTRL STN_CTRL_ENABLE && (s.part p).clusters.getLsbD (s.fld STN_CTRL STN_CTRL_CLUSTER)

/-- The partition that a context holds for KERNEL, ATTN and SORT work: none when it is a Sentinel partition. -/
def State.workPart (s : State) (c : Nat) : Option Nat := (s.partOf c).filter fun p => !(s.sentPart p)

/-! ## Gates (R289, R291, R328) -/

/-- Does the role gate close the module to a context's KERNEL, ATTN, SORT and CODEC work (R328)? ISOLATED closes it to the
Sentinel context too, whose work runs in every other role. -/
def State.roleGated (s : State) (c : Nat) : Bool :=
  s.role == roleIsolated || (s.bit OLP_PAIR OLP_PAIR_ROLE_GATE && (s.role == roleStandby || s.role == roleSwapping) &&
    s.sentCtx != some c)

/-! ## Claims (R59 to R62, R141, R114) -/

/-- SPACE of an ADDR field. -/
def addrSpace (d : Desc) (i : Nat) : Nat := dF d i 8 / 2 ^ 62

/-- The address in an ADDR field. -/
def addrOf (d : Desc) (i : Nat) : Nat := if addrSpace d i = 0 then dF d i 8 % 2 ^ 40 else dF d i 8 % 2 ^ 29

/-- What a class's descriptor asks for. -/
structure ClaimShape where
  count : Nat
  bankMask : Nat
  meMask : Nat
  hub : Bool
  key : Nat
  sort : Bool
  /-- logical tile that a SORT's region under a key lies in: it claims that tile's cluster -/
  tileIdx : Nat
  deriving DecidableEq, Repr

/-- The claim of a KERNEL, ATTN or SORT. -/
def Work.shape (w : Work) : ClaimShape :=
  if w.cls = clKernel then
    { count := dF w.desc 22 1, bankMask := dF w.desc 23 1, meMask := dF w.desc 24 1, hub := dF w.desc 26 1 / 2 % 2 == 1
      key := if w.version = 1 then 0 else dF w.desc 25 1 % 8, sort := false, tileIdx := 0 }
  else if w.cls = clAttn then
    { count := dF w.desc 13 1, bankMask := 0xFF, meMask := 0xF, hub := false, key := dF w.desc 14 1 % 8, sort := false, tileIdx := 0 }
  else { count := 8, bankMask := 0xFF, meMask := 0, hub := true, key := dF w.desc 12 1 % 8, sort := true
         tileIdx := match [32, 40, 48].find? (fun i => addrSpace w.desc i == 1) with
           | some i => addrOf w.desc i / 0x800000
           | none => 0 }

/-- The tiles that a context holds under a placement key, in logical order (R62). -/
def State.keyTiles (s : State) (c key : Nat) : List Nat :=
  if key = 0 then []
  else (List.range 64).filter fun t =>
    s.fld (TILE_STATUS t) TILE_STATUS_PLACE_KEY == key && s.fld (TILE_STATUS t) TILE_STATUS_OWNER_CTX == c

/-- Banks of tiles under a mask. -/
def banksOf (tiles : List Nat) (mask : Nat) : List Nat := tiles.flatMap fun t => (bits8 mask).map (8 * t + ·)

/-- Is a group of tiles free for a claim now? -/
def State.groupFree (s : State) (x : ClaimShape) (g : List Nat) : Bool :=
  g.all (fun t => (s.tile t).claim.isNone && !(s.pwr.toChange.contains (t / 8))) &&
  !((banksOf g x.bankMask).any s.heldBanks.contains) &&
  (!x.hub || g.all fun t => (s.hub (t / 8)).claim.isNone)

/-- The groups on which a claim could be placed, busy or not (R59, R62). DESIGN CHOICE (notes/assumptions/24.md): a kernel whose
key was free at check 12 and has been fixed since with another TILE_COUNT has no possible placement, and waits until the key is
free. -/
def State.candidates (s : State) (p c : Nat) (x : ClaimShape) : List (List Nat) :=
  let held := s.keyTiles c x.key
  if x.sort && x.key ≠ 0 then
    (match held[x.tileIdx]? with | some t => [held.filter fun u => u / 8 == t / 8] | none => [])
  else if held ≠ [] then (if held.length = x.count then [held] else [])
  else
    let unit := min x.count 8
    let gs := (s.partClusters p).flatMap fun cl => (List.range (8 / max unit 1)).map fun i =>
      (List.range unit).map fun j => 8 * cl + unit * i + j
    gs.filter fun g => g.all fun t => s.fld (TILE_STATUS t) TILE_STATUS_PLACE_KEY == 0

/-- The placement that a claim would take now, if there is one: the lowest-numbered free group, or the lowest-numbered
free clusters (R59). -/
def State.place (s : State) (p c : Nat) (x : ClaimShape) : Option (List Nat) :=
  let gs := s.candidates p c x
  let free := gs.filter (s.groupFree x)
  if s.keyTiles c x.key ≠ [] then (match free with | g :: _ => if g = [] then none else some g | [] => none)
  else
    let need := max 1 (x.count / 8)
    if need ≤ free.length && !(x.sort && x.key != 0) then some (free.take need).flatten else none

/-- What a placement takes: its tiles, and its hubs numbered from 64. -/
def resources (x : ClaimShape) (tiles : List Nat) : List Nat :=
  tiles ++ (if x.hub then tiles.map fun t => 64 + t / 8 else [])

/-- Does an earlier KERNEL or ATTN of the ring hold this one back (R61, R156)? -/
def State.ringOrderWait (s : State) (w : Work) : Bool :=
  (w.cls == clKernel || w.cls == clAttn) &&
    s.hif.works.any fun v => v.ring == w.ring && (v.cls == clKernel || v.cls == clAttn) && decide (v.age < w.age)

/-- Does an ACCEPT admitted before it hold an ATTN back (R155)? -/
def State.acceptWait (s : State) (w : Work) : Bool :=
  w.cls == clAttn && s.hif.works.any fun v => v.cls == clAttn && v.op == 3 && decide (v.age < w.age) &&
    dF v.desc 20 2 == dF w.desc 20 2

/-- The waiting claims of a context, oldest first; those that wait for their ring's order, or for an ACCEPT, take no part
(R60, R61, R155). -/
def State.waitingClaims (s : State) (c : Nat) : List Work :=
  s.hif.works.filter fun w => w.claims && w.phase == .waiting && w.stage == .claimWait && ringCtx w.ring == some c &&
    !(s.ringOrderWait w) && !(s.acceptWait w)

/-- The first waiting claim that can be granted: none may overlap an older waiting one's possible placement (R60). -/
def State.firstGrant (s : State) (p c : Nat) : List Nat → List Work → Option (Work × List Nat)
  | _, [] => none
  | blocked, w :: ws =>
    let x := w.shape
    match s.place p c x with
    | some g =>
      if (resources x g).any blocked.contains then
        s.firstGrant p c (blocked ++ resources x (s.candidates p c x).flatten) ws
      else some (w, g)
    | none => s.firstGrant p c (blocked ++ resources x (s.candidates p c x).flatten) ws

/-- The clusters that a partition's current context leaves at its switch: those of the partition, and those that a
PART_DEFINE took from it since. -/
def Part.leaves (p : Part) : BitVec 8 := p.clusters ||| p.owed

/-- The work of a claim that holds a tile, or a bank hold, for a context on a partition (R267). -/
def State.partBusy (s : State) (p c : Nat) : Bool :=
  s.hif.works.any fun w => ringCtx w.ring == some c &&
    ((w.claims && w.stage != .claimWait && w.tiles.any fun t => (s.part p).leaves.getLsbD (t / 8)) ||
     (w.cls == clDma && w.phase != .waiting && w.banks.any fun g => (s.part p).leaves.getLsbD (g / 64)))

/-! ## Granting and releasing -/

/-- The tile registers of a granted claim (Tables 10 and 11). -/
def State.claimTile (s : State) (w : Work) (x : ClaimShape) (l t : Nat) : State :=
  let o := TILE_STATUS t
  let s1 := (((s.setBit o TILE_STATUS_CLAIMED true).setFld o TILE_STATUS_OWNER_CTX w.ctx).setFld o TILE_STATUS_ME_CLAIMED
    x.meMask).setFld o TILE_STATUS_LOGICAL_TILE l
  let s2 := if x.key = 0 then s1 else s1.setFld o TILE_STATUS_PLACE_KEY x.key
  let s3 := (s2.setFld (TILE_KERNEL_TAG t) TILE_KERNEL_TAG_RING w.ring).setFld (TILE_KERNEL_TAG t) TILE_KERNEL_TAG_SW_TAG
    w.tag.toNat
  s3.setTile t { s3.tile t with claim := some (w.ring, w.seq) }

/-- The hub registers of a granted claim (R117). -/
def State.claimHub (s : State) (w : Work) (x : ClaimShape) (c : Nat) : State :=
  let o := SET_STATUS c
  let s1 := ((s.setBit o SET_STATUS_CLAIMED true).setBit o SET_STATUS_BY_SORT x.sort).setFld o SET_STATUS_OWNER_CTX w.ctx
  s1.setHub c { s1.hub c with claim := some (w.ring, w.seq) }

/-- Number a list from `n`. -/
def enumFrom' (n : Nat) : List Nat → List (Nat × Nat)
  | [] => []
  | t :: ts => (n, t) :: enumFrom' (n + 1) ts

/-- A claim is granted: the tiles, hubs and banks become the work's, sleeping domains wake, and the banks are handed
over (R59, R60, R63, steps 4 and 5 of Table 6). -/
def State.grantClaim (s : State) (w : Work) (tiles : List Nat) : State :=
  let x := w.shape
  let hubs := if x.hub then (tiles.map (· / 8)).eraseDups else []
  let banks := banksOf tiles x.bankMask
  let w1 := { w with stage := .launching, tiles := tiles, hubs := hubs, banks := banks }
  let s1 := (enumFrom' 0 tiles).foldl (fun t p => t.claimTile w1 x p.1 p.2) s
  let s2 := hubs.foldl (fun t c => t.claimHub w1 x c) s1
  let s3 := s2.each tiles fun t i => t.wakeTile i
  let s4 := s3.each banks fun t g => t.handTo w.ctx g
  let waited := s4.now - w.at_ - (s4.pwr.gateUs - w.gate0)
  (s4.setWork w1).sample 0x06 w.ctx 0 waited

/-- A tile leaves its claim. -/
def State.releaseTile (s : State) (w : Work) (t : Nat) : State :=
  if (s.tile t).claim = some (w.ring, w.seq) then
    let o := TILE_STATUS t
    let s1 := ((((s.setBit o TILE_STATUS_CLAIMED false).setBit o TILE_STATUS_RUNNING false).setBit o TILE_STATUS_AT_BARRIER
      false).setFld o TILE_STATUS_ME_CLAIMED 0).setFld o TILE_STATUS_ME_BUSY 0
    s1.setTile t { s1.tile t with claim := none, lines := [] }
  else s

/-- Does a request read its granule? -/
def PeUse.reads : PeUse → Bool
  | .store _ => false
  | .fill => true
  | .index _ _ _ => true
  | .page _ _ _ => true

/-- A granule's write is accepted by its cache slice and takes effect; reads of it that the same engine issued before keep
the bytes from before it (R98, R100). -/
def State.acceptStore (s : State) (c t : Nat) (r : PeOut) (bytes : List Byte) : State :=
  let old := s.dramRead c r.addr 64
  let x := s.tile t
  let older := (x.inFlight.takeWhile fun e => e != r).map fun e =>
    if e.addr = r.addr && e.use.reads && e.before.isNone then { e with before := some old } else e
  let rest := older ++ (x.inFlight.dropWhile fun e => e != r).tail
  ((s.setTile t { x with inFlight := rest }).dramWrite c r.addr bytes).setFld (PE_STATUS t) PE_STATUS_OUTSTANDING rest.length

/-- Every outstanding write of a tile's engine is accepted, in issue order: it becomes visible at a barrier (R67), at the
finish (Table 6, step 9) and at a stop (R66). -/
def State.drainStores (s : State) (c t : Nat) : State :=
  (s.tile t).inFlight.foldl (fun u r =>
    match r.use with
    | .store bs => u.acceptStore c t r bs
    | _ => u) s

/-- Is the request one of the claimed work's own: not a DMA's, not the Sentinel's, not a write-back? -/
def BankWait.ofClaim (b : BankWait) : Bool :=
  !(b.req.who == .dma || b.req.who == .sentinel || b.req.who == .eccWriteBack)

/-- The requests of a work's engines at one of its banks end: writes already issued take effect, reads and fills are
discarded, and the bank's reservations are given back (R66, R87). -/
def State.endRequests (s : State) (g : Nat) : State :=
  let b := s.bankSt g
  let mine := b.waiting.filter fun v => v.ofClaim && v.passed && v.fill.isNone
  if decide (512 ≤ g) || (b.outstanding == 0 && !(b.waiting.any BankWait.ofClaim)) then s
  else
    let s1 := mine.foldl (fun u v => match v.req.write with
      | some bs => u.bankWrite v.req.addr bs
      | none => u) s
    (s1.setBank g { s1.bankSt g with outstanding := 0, waiting := b.waiting.filter fun v => !v.ofClaim }).advanceHandover g

/-- What the work has issued completes: its DRAM writes and its bank writes. -/
def State.drainWork (s : State) (w : Work) : State :=
  (s.each w.tiles fun t i => t.drainStores w.ctx i).each w.banks fun t g => t.endRequests g

/-- The Pointing Engine of a tile has nothing in flight any more. -/
def State.dropFills (s : State) (t : Nat) : State :=
  (s.setTile t { s.tile t with inFlight := [], queues := [] }).setFld (PE_STATUS t) PE_STATUS_OUTSTANDING 0

/-- Clusters of a list of tiles. -/
def clustersOf (tiles : List Nat) : List Nat := (tiles.map (· / 8)).eraseDups

/-- Is barrier `n` of a kernel armed on a cluster: arrivals, not released? A CLUSTER barrier is one barrier per cluster;
the others are armed on every cluster of the kernel (R67, Table 16). -/
def Work.arms (w : Work) (c n : Nat) : Bool :=
  match w.kern with
  | some k => w.tiles.any (fun t => t / 8 == c) && k.barriers.any fun b => b.bar == n && b.arrived != [] &&
      (k.entry.barriers[n]? != some .cluster || b.arrived.any fun t => t.1 / 8 == c)
  | none => false

/-- HUB_BARRIER_ARMED of a cluster, from the barriers of the listed works. -/
def armedWord (ws : List Work) (c : Nat) : Nat :=
  (List.range 16).foldl (fun m n => if ws.any (fun w => w.arms c n) then m + 2 ^ n else m) 0

/-- Drop the waves and queued Set Engine commands of a work in a hub, its claim of the hub, and its armed barriers. -/
def State.releaseHub (s : State) (w : Work) (c : Nat) : State :=
  let h := s.hub c
  let mine := fun q : SetQueued => q.owner == (w.ring, w.seq)
  let q := h.setQueue.filter fun x => !(mine x)
  let run := h.setRunning.filter fun x => !(mine x)
  let waves := (h.waves.map fun v => v.filter fun e => !(w.tiles.contains e.1)).filter fun v => v != []
  let own := h.claim == some (w.ring, w.seq)
  let s1 := s.setHub c { h with setQueue := q, setRunning := run, waves := waves, claim := if own then none else h.claim }
  let s2 := (s1.setFld (SET_STATUS c) SET_STATUS_QUEUED q.length).setBit (SET_STATUS c) SET_STATUS_BUSY run.isSome
  let s3 := if own then (s2.setBit (SET_STATUS c) SET_STATUS_CLAIMED false).setBit (SET_STATUS c) SET_STATUS_BY_SORT false
    else s2
  s3.setFld (HUB_BARRIER_ARMED c) HUB_BARRIER_ARMED_ARMED
    (armedWord (s.hif.works.filter fun v => !(v.is w.ring w.seq)) c)

/-- A placement key of a context is free again (R62). -/
def State.freeKey (s : State) (c key : Nat) : State :=
  s.each (s.keyTiles c key) fun t i => t.setFld (TILE_STATUS i) TILE_STATUS_PLACE_KEY 0

/-- Every claim of a work is released; the key too when `freeKey`, whether or not the claim was granted (R62, step 10 of
Table 6). -/
def State.releaseClaim (s : State) (w : Work) (freeKey : Bool) : State :=
  let s0 := if freeKey then s.freeKey w.ctx w.shape.key else s
  let s1 := (s0.drainWork w).each w.tiles fun t i => (t.dropFills i).releaseTile w i
  s1.each (clustersOf w.tiles ++ w.hubs).eraseDups fun t c => t.releaseHub w c

/-- The sequences that a work held are let go; the one whose last hold ends becomes idle (R177, R182). -/
def State.releaseHolds (s : State) (w : Work) : State :=
  w.holds.foldl (fun t h =>
    let q := t.seq h.1
    if q.regNo = h.2 && q.holds > 0 then
      t.setSeq h.1 { q with holds := q.holds - 1, idleSince := if q.holds = 1 then t.now else q.idleSince }
    else t) s

/-- Does the kernel's descriptor release its placement key at its completion (R62)? -/
def Work.freesKey (w : Work) : Bool := w.cls == clKernel && dF w.desc 26 1 % 2 == 1 && w.shape.key != 0

/-! ## Undefined regions after a stop (R66, R115, R250) -/

/-- The bank-space pieces of a logical bank region under a placement (R56): per bank, address and length. -/
def logicalPieces (tiles : List Nat) (addr len : Nat) : List (Nat × Nat) :=
  if len = 0 then []
  else
    let first := addr / 0x100000
    let last := (addr + len - 1) / 0x100000
    (List.range (last + 1 - first)).filterMap fun k =>
      let lb := first + k
      let lo := max addr (lb * 0x100000)
      let hi := min (addr + len) ((lb + 1) * 0x100000)
      match tiles[lb / 8]? with
      | some t => some ((8 * t + lb % 8) * 0x100000 + lo % 0x100000, hi - lo)
      | none => none

/-- The physical bank-space address of a logical one (R56). -/
def physBank (tiles : List Nat) (a : Nat) : Nat :=
  match tiles[a / 0x100000 / 8]? with
  | some t => (8 * t + a / 0x100000 % 8) * 0x100000 + a % 0x100000
  | none => a

/-- A DRAM region of a context becomes undefined, where the context may write it. -/
def State.dramUndefOwn (s : State) (c addr len : Nat) : State :=
  (linesOf addr len).foldl (fun t l =>
    let lo := max addr (l * 64)
    let n := min (addr + len) (l * 64 + 64) - lo
    if t.dramOk c lo n then t.dramUndef c lo n else t) s

/-- A region in the form of an argument slot's ADDR becomes undefined. -/
def State.slotUndef (s : State) (c : Nat) (tiles : List Nat) (space addr len : Nat) : State :=
  if space = 0 then s.dramUndefOwn c addr len
  else if space = 1 then
    (logicalPieces tiles addr len).foldl (fun t p => if t.ownsBank c (bankOf p.1) then
      (t.bankUndef p.1 p.2).bankDirty (bankOf p.1) else t) s
  else s

/-- Every write region of a kernel becomes undefined. -/
def State.argsUndef (s : State) (w : Work) : State :=
  match w.kern with
  | some k => k.args.foldl (fun t a =>
      if a.dir / 2 % 2 = 1 then t.slotUndef w.ctx w.tiles a.space a.addr a.len else t) s
  | none => s

/-! ## Stopping a KERNEL (R66) -/

/-- The arithmetic flags of a record: bit 7 is written as zero. -/
def freeFlags (n : Nat) : Nat := (Config.freeByte n).toNat % 128

/-- Set an error bit on every tile of a kernel. -/
def State.tilesErr (s : State) (w : Work) (b : Bits) : State :=
  s.each w.tiles fun t i => t.setBit (TILE_ERR_STATUS i) b true

/-- The tiles of claimed work that ran stop for an abort (Table 13). -/
def State.tilesAborted (s : State) (w : Work) (ran : Bool) (status : Nat) : State :=
  if ran && status == stAborted then s.tilesErr w TILE_ERR_STATUS_ABORT else s

/-- STALL_CLOCKS of R65: the largest TILE_STALL_QUEUE plus TILE_STALL_BANK of any placed tile. -/
def State.stallClocks (s : State) (w : Work) : Nat :=
  min 0xFFFFFFFF (w.tiles.foldl (fun m t =>
    max m (s.fld (TILE_STALL_QUEUE t) TILE_STALL_QUEUE_CLOCKS + s.fld (TILE_STALL_BANK t) TILE_STALL_BANK_CLOCKS)) 0)

/-- A kernel ends early: what it issued completes, its tiles stop, its write regions hold undefined data, its claims are
released, and it completes with the status. Flags and cycles of a kernel that ran are what it had done by then, which no rule
gives. -/
def State.stopKernel (s : State) (w : Work) (status : Nat) : State :=
  let ran := w.stage == .running || w.stage == .finishing
  let s0 := s.drainWork w
  let s1 := (if ran then s0.argsUndef w else s0).tilesAborted w ran status
  let s2 := ((s1.releaseClaim w w.freesKey).releaseHolds w)
  if ran then
    ({ s2 with free := s2.free + 2 }).complete w status (freeFlags s2.free)
      ((Config.freeWord (s2.free + 1)).toNat % 2 ^ 32 + 2 ^ 32 * s.stallClocks w)
  else s2.complete w status 0 0

/-- The work whose claim includes a tile. -/
def State.tileWork (s : State) (t : Nat) : Option Work :=
  match (s.tile t).claim with
  | some p => s.work? p.1 p.2
  | none => none

/-- A denied bank access of a tile is recorded (R79, Table 13). -/
def State.bankDenied (s : State) (t addr : Nat) : State :=
  let s1 := if s.bit (TILE_ERR_STATUS t) TILE_ERR_STATUS_BANK_DENIED then s
    else s.setFld (TILE_ERR_INFO t) TILE_ERR_INFO_BANK_ADDR addr
  s1.setBit (TILE_ERR_STATUS t) TILE_ERR_STATUS_BANK_DENIED true

/-- An ATTN ends early: its outputs stay unchanged (R159). -/
def State.stopAttn (s : State) (w : Work) (status : Nat) : State :=
  let ran := w.stage == .running || w.stage == .finishing
  let s0 := (s.each w.tiles fun t i => t.setBit (ATTN_STATUS i) ⟨31, 30⟩ false).tilesAborted w ran status
  let s1 := (s0.releaseClaim w false).releaseHolds w
  if ran then
    ({ s1 with free := s1.free + 3 }).complete w status (freeFlags s1.free)
      ((Config.freeWord (s1.free + 1)).toNat % 2 ^ 24 + 2 ^ 32 * ((Config.freeWord (s1.free + 2)).toNat) +
        2 ^ 96 * ((Config.freeWord s1.free).toNat % 2 ^ 32))
  else s1.complete w status 0 0

/-- Bytes of a SORT's results (Table 3 of Pointing Engines, Graphs and Set Operators). -/
def sortDstBytes (d : Desc) : Nat :=
  let n := dF d 16 4
  match dF d 8 1 with
  | 1 => 8 * n
  | 2 => 8 * dF d 24 4
  | 3 => 8 * (n + dF d 20 4)
  | 4 => 8 * n
  | _ => 4 * dF d 20 4

/-- Bytes of a SORT's scratch region, 0 where SRC_B is no scratch. -/
def sortScratchBytes (d : Desc) : Nat :=
  if dF d 8 1 = 1 then 8 * dF d 16 4
  else if dF d 8 1 = 2 && decide (dF d 24 4 > 256) then 16 * dF d 24 4
  else 0

/-- A SORT stops: DST and the scratch hold undefined data (R114, R115). -/
def State.stopSort (s : State) (w : Work) (status : Nat) : State :=
  let tiles := s.keyTiles w.ctx w.shape.key
  let ran := w.stage == .running || w.stage == .finishing
  let s1 := if ran then
      (s.slotUndef w.ctx tiles (addrSpace w.desc 48) (addrOf w.desc 48) (sortDstBytes w.desc)).slotUndef w.ctx tiles
        (addrSpace w.desc 40) (addrOf w.desc 40) (sortScratchBytes w.desc)
    else s
  (s1.releaseClaim w false).complete w status 0 0

end Sys2Proof.Machine
end

