-- ==== Sys2Proof/Machine/Relief.lean ====
section
/-! DEFINITION. The Relief codec (Convolution, Resampling and Relief Compression, R132 to R138): keys, group words,
blocks and compressed granules. -/

namespace Sys2Proof.Machine

/-- Residual bits of a ratio: 3 at 2:1 (`relief = 1`), 1 at 4:1 (R132). -/
def reliefQ (relief : Nat) : Nat := if relief = 1 then 3 else 1

/-- Source granules per compressed granule. -/
def reliefRatio (relief : Nat) : Nat := if relief = 1 then 2 else if relief = 2 then 4 else 1

/-- Bytes of a compressed group. -/
def reliefGroupBytes (relief : Nat) : Nat := if relief = 1 then 8 else 4

/-- Is the code a NaN or an infinity of the format (R34)? -/
def fp8Special (f : Fmt) (code : Nat) : Bool :=
  match f with
  | .e4m3 => decide (code % 128 = 127)
  | .e5m2 => decide (code % 128 ≥ 124)
  | _ => false

/-- The key of an element (R134). -/
def reliefKey (f : Fmt) (code : Nat) : Int :=
  match f with
  | .int8 => signedOf 8 code
  | _ => if code < 128 then (code : Int) else -((code : Int) - 128)

/-- The code of a key (R135). -/
def reliefCode (f : Fmt) (k : Int) : Nat :=
  match f with
  | .int8 => (k % 256).toNat
  | _ => if k ≥ 0 then k.toNat else 128 + (-k).toNat

/-- The key range of a format (R135). -/
def reliefRange (f : Fmt) : Int × Int :=
  match f with
  | .int8 => (-128, 127)
  | .e4m3 => (-126, 126)
  | _ => (-123, 123)

/-- The smallest key of a group. -/
def minKey : List Int → Int
  | [] => 0
  | [k] => k
  | k :: ks => min k (minKey ks)

/-- The largest key of a group. -/
def maxKey : List Int → Int
  | [] => 0
  | [k] => k
  | k :: ks => max k (maxKey ks)

/-- The smallest shift of at least `s` with `r < 2^q · 2^s`, searched over `n` steps. -/
def reliefShift (q r : Nat) : Nat → Nat → Nat
  | 0, s => s
  | n + 1, s => if r < 2 ^ q * 2 ^ s then s else reliefShift q r n (s + 1)

/-- Residuals packed `q` bits each from bit 0 up. -/
def packResid (q : Nat) : List Nat → Nat
  | [] => 0
  | r :: rs => r + 2 ^ q * packResid q rs

/-- The word of a group of 16 codes, and whether it is a special group (R134). -/
def reliefEncode (f : Fmt) (relief : Nat) (codes : List Nat) : Nat × Bool :=
  if codes.any (fp8Special f) then (0xF00, true)
  else
    let q := reliefQ relief
    let ks := codes.map (reliefKey f)
    let m := minKey ks
    let s := reliefShift q (maxKey ks - m).toNat 9 0
    let rs := ks.map fun k => (k - m).toNat / 2 ^ s
    ((m % 256).toNat + 256 * s + 65536 * packResid q rs, false)

/-- The key of residual `r` (R135). -/
def reliefDecodeKey (f : Fmt) (base : Int) (s r : Nat) : Int :=
  let h : Int := if s = 0 then 0 else 2 ^ (s - 1)
  let k := base + (r * 2 ^ s : Nat) + h
  max (reliefRange f).1 (min (reliefRange f).2 k)

/-- The canonical NaN of R35. -/
def fp8Nan (f : Fmt) : Nat := if f = .e4m3 then 0x7F else 0x7E

/-- The 16 codes of a group word, and whether the group is special and odd (R135, R136). -/
def reliefDecode (f : Fmt) (relief : Nat) (w : Nat) : List Nat × Bool × Bool :=
  let q := reliefQ relief
  let sh := w / 256 % 16
  let odd := decide (w / 4096 % 16 ≠ 0) || decide (9 ≤ sh ∧ sh ≤ 14) || (decide (sh = 15) && f == .int8)
  if sh = 15 && f != .int8 then ((List.range 16).map fun _ => fp8Nan f, true, odd)
  else
    let s := if sh ≤ 8 then sh else 8
    let base := signedOf 8 w
    ((List.range 16).map fun i => reliefCode f (reliefDecodeKey f base s (w / 2 ^ (16 + q * i) % 2 ^ q)), false, odd)

/-- The compressed bytes of a 64 B source block and how many of its groups are special (R132, R133). -/
def reliefEncodeBlock (f : Fmt) (relief : Nat) (block : List Byte) : List Byte × Nat :=
  let gs := (List.range 4).map fun j => reliefEncode f relief (((block.drop (16 * j)).take 16).map (·.toNat))
  (gs.flatMap fun g => leBytes (reliefGroupBytes relief) g.1, (gs.filter (·.2)).length)

/-- The source block of compressed bytes, and how many of its groups are special and odd. -/
def reliefDecodeBlock (f : Fmt) (relief : Nat) (bytes : List Byte) : List Byte × Nat × Nat :=
  let n := reliefGroupBytes relief
  let gs := (List.range 4).map fun j => reliefDecode f relief (leNat ((bytes.drop (n * j)).take n))
  (gs.flatMap fun g => g.1.map (BitVec.ofNat 8), (gs.filter (·.2.1)).length, (gs.filter (·.2.2)).length)

/-- Bytes of a compressed block. -/
def reliefBlockBytes (relief : Nat) : Nat := 4 * reliefGroupBytes relief

/-- Granules that a compressed map occupies (R137). -/
def reliefGranules (relief bytes : Nat) : Nat :=
  (bytes + reliefRatio relief * 64 - 1) / (reliefRatio relief * 64)

/-- The source bytes of a compressed map: its blocks decoded in order. -/
def reliefExpand (f : Fmt) (relief : Nat) : Nat → List Byte → List Byte
  | 0, _ => []
  | n + 1, bs => (reliefDecodeBlock f relief bs).1 ++ reliefExpand f relief n (bs.drop (reliefBlockBytes relief))

/-- The compressed bytes of source bytes, `n` blocks. -/
def reliefCompress (f : Fmt) (relief : Nat) : Nat → List Byte → List Byte
  | 0, _ => []
  | n + 1, bs =>
    (reliefEncodeBlock f relief ((bs ++ List.replicate 64 0).take 64)).1 ++ reliefCompress f relief n (bs.drop 64)

end Sys2Proof.Machine
end

