-- ==== Sys2Proof/Machine/Conv.lean ====
section
/-! DEFINITION. Convolution entries: the layer record, its limits, and the exact arithmetic of every operator
(Convolution, Resampling and Relief Compression, R118 to R131). -/

namespace Sys2Proof.Machine

/-- The `n`-byte little-endian field at byte `i` of a list. -/
def bf (b : List Byte) (i n : Nat) : Nat := leNat ((b.drop i).take n)

/-- The layer record (R119, Table 2). -/
structure Layer where
  op : Nat
  flags : Nat
  inRelief : Nat
  outRelief : Nat
  n : Nat
  hIn : Nat
  wIn : Nat
  cIn : Nat
  cOut : Nat
  g : Nat
  kh : Nat
  kw : Nat
  sh : Nat
  sw : Nat
  dh : Nat
  dw : Nat
  pt : Nat
  pb : Nat
  pl : Nat
  pr : Nat
  oph : Nat
  opw : Nat
  factor : Nat
  s2d : Nat
  scale : Nat
  deriving DecidableEq, Repr

/-- The record in 64 bytes. -/
def Layer.ofBytes (b : List Byte) : Layer :=
  { op := bf b 0 1, flags := bf b 1 1, inRelief := bf b 2 1, outRelief := bf b 3 1, n := bf b 4 2, hIn := bf b 6 2,
    wIn := bf b 8 2, cIn := bf b 10 2, cOut := bf b 12 2, g := bf b 14 2, kh := bf b 16 1, kw := bf b 17 1,
    sh := bf b 18 1, sw := bf b 19 1, dh := bf b 20 1, dw := bf b 21 1, pt := bf b 22 1, pb := bf b 23 1,
    pl := bf b 24 1, pr := bf b 25 1, oph := bf b 26 1, opw := bf b 27 1, factor := bf b 28 1, s2d := bf b 29 1,
    scale := bf b 32 4 }

def Layer.conv (l : Layer) : Bool := l.op == 1
def Layer.convT (l : Layer) : Bool := l.op == 2
def Layer.pool (l : Layer) : Bool := l.op == 3 || l.op == 4
def Layer.resize (l : Layer) : Bool := l.op == 5 || l.op == 6
def Layer.s2dOp (l : Layer) : Bool := l.op == 7
def Layer.d2sOp (l : Layer) : Bool := l.op == 8
def Layer.weights (l : Layer) : Bool := l.conv || l.convT
/-- RESIZE_NEAREST, S2D and D2S copy bit for bit (R131). -/
def Layer.copies (l : Layer) : Bool := l.op == 5 || l.s2dOp || l.d2sOp
def Layer.bias (l : Layer) : Bool := l.flags % 2 == 1
def Layer.relu (l : Layer) : Bool := l.flags / 2 % 2 == 1
def Layer.countPad (l : Layer) : Bool := l.flags / 4 % 2 == 1
def Layer.wResident (l : Layer) : Bool := l.flags / 8 % 2 == 1

/-- Output height (R122), before its range check. -/
def Layer.hOutI (l : Layer) : Int :=
  if l.conv || l.pool then
    ((l.hIn + l.pt + l.pb : Nat) - (l.dh * (l.kh - 1) : Nat) - 1 : Int) / (l.sh : Int) + 1
  else if l.convT then ((l.hIn - 1) * l.sh : Nat) - (l.pt : Int) - l.pb + l.kh + l.oph
  else if l.s2dOp then ((l.hIn / l.factor : Nat) : Int)
  else ((l.factor * l.hIn : Nat) : Int)

/-- Output width (R122), before its range check. -/
def Layer.wOutI (l : Layer) : Int :=
  if l.conv || l.pool then
    ((l.wIn + l.pl + l.pr : Nat) - (l.dw * (l.kw - 1) : Nat) - 1 : Int) / (l.sw : Int) + 1
  else if l.convT then ((l.wIn - 1) * l.sw : Nat) - (l.pl : Int) - l.pr + l.kw + l.opw
  else if l.s2dOp then ((l.wIn / l.factor : Nat) : Int)
  else ((l.factor * l.wIn : Nat) : Int)

def Layer.hOut (l : Layer) : Nat := l.hOutI.toNat
def Layer.wOut (l : Layer) : Nat := l.wOutI.toNat

/-- Does a value lie in a range? -/
def inR (lo hi v : Nat) : Bool := decide (lo ≤ v) && decide (v ≤ hi)

/-- The limits of Table 3 for CONV; with S2D_IN its own conditions take the place of the stride limit (R125, R120). -/
def Layer.convLimits (l : Layer) : Bool :=
  inR 1 31 l.kh && inR 1 31 l.kw &&
  (if l.s2d = 0 then inR 1 4 l.sh && inR 1 4 l.sw
   else (l.s2d == 2 || l.s2d == 4 || l.s2d == 8) && l.kh == l.s2d && l.kw == l.s2d && l.sh == l.s2d && l.sw == l.s2d &&
     l.dh == 1 && l.dw == 1 && l.pt == 0 && l.pb == 0 && l.pl == 0 && l.pr == 0 && l.g == 1) &&
  (if l.kh ≤ 7 && l.kw ≤ 7 then inR 1 8 l.dh && inR 1 8 l.dw else l.dh == 1 && l.dw == 1) &&
  inR 0 (l.dh * (l.kh - 1)) l.pt && inR 0 (l.dh * (l.kh - 1)) l.pb &&
  inR 0 (l.dw * (l.kw - 1)) l.pl && inR 0 (l.dw * (l.kw - 1)) l.pr &&
  l.oph == 0 && l.opw == 0 && l.factor == 0 && !l.countPad

/-- The limits of Table 3 for CONV_T. -/
def Layer.convTLimits (l : Layer) : Bool :=
  inR 1 16 l.kh && inR 1 16 l.kw && inR 1 4 l.sh && inR 1 4 l.sw && l.dh == 1 && l.dw == 1 &&
  inR 0 (l.kh - 1) l.pt && inR 0 (l.kh - 1) l.pb && inR 0 (l.kw - 1) l.pl && inR 0 (l.kw - 1) l.pr &&
  decide (l.oph < l.sh) && decide (l.opw < l.sw) && l.g == 1 && l.factor == 0 && l.s2d == 0 && !l.countPad

/-- The limits of Table 3 for the pools. -/
def Layer.poolLimits (l : Layer) : Bool :=
  inR 1 7 l.kh && inR 1 7 l.kw && inR 1 4 l.sh && inR 1 4 l.sw && l.dh == 1 && l.dw == 1 &&
  inR 0 (l.kh - 1) l.pt && inR 0 (l.kh - 1) l.pb && inR 0 (l.kw - 1) l.pl && inR 0 (l.kw - 1) l.pr &&
  l.cOut == l.cIn && l.oph == 0 && l.opw == 0 && l.factor == 0 && l.s2d == 0 && !l.bias && !l.wResident &&
  (l.op == 4 || !l.countPad) && l.scale == 0

/-- The limits of Table 3 for resizing and regrouping. -/
def Layer.moveLimits (l : Layer) : Bool :=
  l.kh == 0 && l.kw == 0 && l.sh == 0 && l.sw == 0 && l.dh == 0 && l.dw == 0 && l.pt == 0 && l.pb == 0 && l.pl == 0 &&
  l.pr == 0 && l.oph == 0 && l.opw == 0 && l.s2d == 0 && !l.bias && !l.wResident && !l.countPad && l.scale == 0 &&
  (l.factor == 2 || l.factor == 4 || l.factor == 8) && (l.op == 6 || !l.relu) &&
  (if l.resize then l.cOut == l.cIn
   else if l.s2dOp then l.hIn % l.factor == 0 && l.wIn % l.factor == 0 && l.cOut == l.factor * l.factor * l.cIn
   else l.cIn == l.factor * l.factor * l.cOut)

/-- Is OUT_SCALE a positive normal number or zero (R120)? -/
def scaleOk (w : Nat) : Bool := w == 0 || (decide (0x00800000 ≤ w) && decide (w < 0x7F800000))

/-- A record whose own fields pass R120 and Table 3 (a failure is BAD_DESCRIPTOR); the format-dependent rules of OUT_SCALE
are in `scaleFits`. -/
def Layer.ok (b : List Byte) (l : Layer) : Bool :=
  inR 1 8 l.op && decide (l.flags < 16) && decide (l.inRelief < 3) && decide (l.outRelief < 3) && bf b 30 2 == 0 &&
  bf b 36 28 == 0 && inR 1 256 l.n && inR 1 16384 l.hIn && inR 1 16384 l.wIn && inR 1 16384 l.cIn && inR 1 16384 l.cOut &&
  inR 1 16384 l.g && l.cIn % l.g == 0 && l.cOut % l.g == 0 && (l.conv || l.g == 1) &&
  (if l.conv then l.convLimits else if l.convT then l.convTLimits else if l.pool then l.poolLimits else l.moveLimits) &&
  decide (1 ≤ l.hOutI) && decide (l.hOutI ≤ 16384) && decide (1 ≤ l.wOutI) && decide (l.wOutI ≤ 16384) && scaleOk l.scale

/-- OUT_SCALE against the output format (R124). -/
def Layer.scaleFits (l : Layer) (out : Fmt) : Bool :=
  if !l.weights then true
  else if out = .int32 then l.scale == 0 && !l.relu
  else if out.isInt then l.scale != 0
  else true

/-- Formats, Relief and grouping that the chapter accepts (R120; a failure is FORMAT_UNSUPPORTED). -/
def Layer.formatsOk (l : Layer) (fin fw fb fout : Fmt) : Bool :=
  let reliefFmt := fun f : Fmt => f = .int8 || f = .e4m3 || f = .e5m2
  (if l.weights then
    match pairClass fin fw with
    | some .integer => !l.bias || fb = .int32
    | some _ => (!l.bias || fb = .fp32) && decide (fout ≠ .int32)
    | none => false
   else true) &&
  (!(fin.isMx || (l.weights && fw.isMx)) || (l.g == 1 && l.cIn % 256 == 0)) &&
  (l.inRelief == 0 || reliefFmt fin) && (l.outRelief == 0 || reliefFmt fout) &&
  (!l.copies || fin = fout)

/-! ## Feature maps (R121, R137) -/

/-- Bytes of a pixel: its channels padded to whole granules. -/
def pixBytes (f : Fmt) (c : Nat) : Nat := (c * f.bits + 511) / 512 * 64

/-- Bytes of a map's element array, uncompressed. -/
def mapBytes (f : Fmt) (n h w c : Nat) : Nat := n * h * w * pixBytes f c

/-- Bytes of a map's scale array. -/
def mapScaleBytes (f : Fmt) (n h w c : Nat) : Nat := if f.isMx then n * h * w * ((c + 31) / 32) else 0

/-- The map size of R121, or of R137 under Relief: the element array. -/
def mapSize (f : Fmt) (relief n h w c : Nat) : Nat :=
  if relief = 0 then mapBytes f n h w c else 64 * reliefGranules relief (mapBytes f n h w c)

/-- Bytes of a map with its scale array, which stands right after the element array (the manual does not place it:
notes/assumptions/17.md). -/
def mapExtent (f : Fmt) (relief n h w c : Nat) : Nat := mapSize f relief n h w c + mapScaleBytes f n h w c

/-- Elements of the weights. -/
def Layer.weightElems (l : Layer) : Nat := l.cOut * l.kh * l.kw * (l.cIn / l.g)

/-- Bytes of the weights with their scales, which stand right after the elements (the manual does not place them:
notes/assumptions/17.md). -/
def Layer.weightBytes (l : Layer) (f : Fmt) : Nat :=
  (l.weightElems * f.bits + 7) / 8 + (if f.isMx then (l.weightElems + 31) / 32 else 0)

/-- A map read into a list of bytes. -/
structure FMap where
  fmt : Fmt
  h : Nat
  w : Nat
  c : Nat
  data : List Byte
  scales : List Byte
  deriving DecidableEq, Repr

/-- The map in the bytes of its region. -/
def FMap.ofBytes (f : Fmt) (relief n h w c : Nat) (bytes : List Byte) : FMap :=
  let raw := mapBytes f n h w c
  let stored := if relief = 0 then raw else 64 * reliefGranules relief raw
  { fmt := f, h := h, w := w, c := c
    data := if relief = 0 then bytes.take raw else reliefExpand f relief (raw / 64) bytes
    scales := bytes.drop stored }

/-- Pixel number of a position. -/
def FMap.pix (m : FMap) (n y x : Nat) : Nat := (n * m.h + y) * m.w + x

/-- The code of a channel of a pixel. -/
def FMap.code (m : FMap) (n y x c : Nat) : Nat := elemCode m.fmt (m.data.drop (m.pix n y x * pixBytes m.fmt m.c)) c

/-- The value of a channel without its block scale. -/
def FMap.at (m : FMap) (n y x c : Nat) : Flagged :=
  let v := m.fmt.value (m.code n y x c)
  (v, if v = .nan then flNanInput else 0)

/-- The block scale byte of a channel. -/
def FMap.scaleByte (m : FMap) (n y x c : Nat) : Byte := (m.scales.drop (m.pix n y x * ((m.c + 31) / 32) + c / 32)).headD 0

/-- The value of a channel with its block scale. -/
def FMap.scaled (m : FMap) (n y x c : Nat) : Flagged :=
  if m.fmt.isMx then
    let a := m.at n y x c
    let s := e8m0 (m.scaleByte n y x c)
    let p := mulExact s.1 a.1
    (p.1, a.2 ||| s.2 ||| p.2)
  else m.at n y x c

/-! ## Products (R123, R128) -/

/-- The operands of one product, its factor (the block scales of MX operands), and the flags of reading them. -/
structure Term where
  a : Num
  b : Num
  factor : Flagged
  fl : AFlags
  deriving DecidableEq, Repr

/-- The exact zero product of a position outside the map. -/
def Term.zero : Term := { a := .zero, b := .zero, factor := (.fin false 1 0, 0), fl := 0 }

/-- Weight index of (co, ky, kx, ci). -/
def Layer.wIdx (l : Layer) (co ky kx ci : Nat) : Nat := ((co * l.kh + ky) * l.kw + kx) * (l.cIn / l.g) + ci

/-- The product of an input element and a weight. -/
def mkTerm (m : FMap) (fw : Fmt) (ws : List Byte) (wElems n y x c wi : Nat) : Term :=
  let a := m.at n y x c
  let b := readElem fw ws wi
  let sa : Flagged := if m.fmt.isMx then e8m0 (m.scaleByte n y x c) else (.fin false 1 0, 0)
  let sb : Flagged := if fw.isMx then e8m0 ((ws.drop ((wElems * fw.bits + 7) / 8 + wi / 32)).headD 0) else (.fin false 1 0, 0)
  let f := mulExact sa.1 sb.1
  { a := a.1, b := b.1, factor := (f.1, sa.2 ||| sb.2 ||| f.2), fl := a.2 ||| b.2 }

/-- Input position of a tap along one axis of a CONV; none outside the map (R123). -/
def convPos (o s p k d h : Nat) : Option Nat :=
  let v : Int := (o * s + k * d : Nat) - (p : Int)
  if 0 ≤ v ∧ v < h then some v.toNat else none

/-- The taps of an output along one axis of a CONV_T: those of its phase (R128). -/
def phaseTaps (o s p k : Nat) : List Nat := (List.range k).filter fun t => decide (t % s = (o + p) % s)

/-- Input index of a tap along one axis of a CONV_T. -/
def convTPos (o s p k h : Nat) : Option Nat :=
  let v : Int := ((o + p : Nat) - (k : Int)) / (s : Int)
  if 0 ≤ v ∧ v < h then some v.toNat else none

/-- The terms of an output element in the order of R123 or R128. -/
def Layer.terms (l : Layer) (m : FMap) (fw : Fmt) (ws : List Byte) (n y x co : Nat) : List Term :=
  let cg := l.cIn / l.g
  let base := co / (l.cOut / l.g) * cg
  let kys := if l.conv then List.range l.kh else phaseTaps y l.sh l.pt l.kh
  let kxs := if l.conv then List.range l.kw else phaseTaps x l.sw l.pl l.kw
  kys.flatMap fun ky => kxs.flatMap fun kx => (List.range cg).map fun ci =>
    let py := if l.conv then convPos y l.sh l.pt ky l.dh l.hIn else convTPos y l.sh l.pt ky l.hIn
    let px := if l.conv then convPos x l.sw l.pl kx l.dw l.wIn else convTPos x l.sw l.pl kx l.wIn
    match py, px with
    | some iy, some ix => mkTerm m fw ws l.weightElems n iy ix (base + ci) (l.wIdx co ky kx ci)
    | _, _ => Term.zero

/-- A list cut into pieces of `k`, at most `fuel` of them. -/
def cut {α : Type} (k : Nat) : Nat → List α → List (List α)
  | 0, _ => []
  | fuel + 1, l => match l with
    | [] => []
    | a :: t => ((a :: t).take k) :: cut k fuel ((a :: t).drop k)

/-- The exact integer of a value. -/
def Num.toInt : Num → Int
  | .fin a m e => signedAt a m e 0
  | _ => 0

/-- The factor of a group: that of its first term inside the map. -/
def groupFactor (ts : List Term) : Flagged :=
  match ts.find? (fun t => t.factor != (.fin false 1 0, 0)) with
  | some t => t.factor
  | none => (.fin false 1 0, 0)

/-- The bias of a floating accumulator: a NaN read from memory sets NAN_INPUT (R35, R49). -/
def biasF32 (w : W32) : Flagged := (decodeF32 w, if isNanF32 w then flNanInput else 0)

/-- The accumulator after all terms: an integer or a floating value (R43). -/
def accumulate (cls : PairClass) (biasW : W32) (ts : List Term) : Flagged :=
  let fl := ts.foldl (fun f t => f ||| t.fl ||| t.factor.2) (0 : AFlags)
  let gs := cut cls.group (ts.length + 1) ts
  match cls with
  | .integer =>
    let r := accIntGroups (biasW.toInt, 0) (gs.map fun g => g.map fun t => (t.a.toInt, t.b.toInt))
    (.ofInt r.1, r.2 ||| fl)
  | _ =>
    let r := accGroups (biasF32 biasW) (gs.map fun g => ((groupFactor g).1, g.map fun t => (t.a, t.b)))
    (r.1, r.2 ||| fl)

/-- Steps 1 to 3 of R124 on an accumulator. -/
def Layer.finish (l : Layer) (x : Flagged) : Flagged :=
  let a := andThen x roundF32
  let b := if l.scale = 0 then a else andThen a fun v => vMul v (decodeF32 (BitVec.ofNat 32 l.scale))
  if l.relu then (vMax b.1 .zero, b.2) else b

/-- RELU alone: step 3 of R124. -/
def Layer.reluOf (l : Layer) (x : Flagged) : Flagged := if l.relu then (vMax x.1 .zero, x.2) else x

/-! ## Pools and resizing (R130, R131) -/

/-- An integer over a positive divisor, rounded to nearest with ties to even. -/
def rneDiv (i : Int) (t : Nat) : Int :=
  let q := i / (t : Int)
  let r := (i % (t : Int)).toNat
  if 2 * r < t then q else if 2 * r > t then q + 1 else if q % 2 = 0 then q else q + 1

/-- The correctly rounded FP32 value of 1/T. -/
def recipNum (t : Nat) : Num :=
  let m := 2 ^ 60 / t * 2 + (if 2 ^ 60 % t = 0 then 0 else 1)
  (roundF32 (.fin false m (-61))).1

/-- The inside positions of a pooling window, in (ky, kx) order. -/
def Layer.window (l : Layer) (y x : Nat) : List (Nat × Nat) :=
  (List.range l.kh).flatMap fun ky => (List.range l.kw).filterMap fun kx =>
    match convPos y l.sh l.pt ky 1 l.hIn, convPos x l.sw l.pl kx 1 l.wIn with
    | some iy, some ix => some (iy, ix)
    | _, _ => none

/-- The largest of a list of values under R47. -/
def maxNums : List Flagged → Flagged
  | [] => (.zero, 0)
  | [a] => a
  | a :: t => let r := maxNums t; (vMax a.1 r.1, a.2 ||| r.2)

/-- A pooled value. -/
def Layer.poolAt (l : Layer) (m : FMap) (n y x c : Nat) : Flagged :=
  let vs := (l.window y x).map fun p => m.scaled n p.1 p.2 c
  if l.op = 3 then maxNums vs
  else
    let t := if l.countPad then l.kh * l.kw else vs.length
    if m.fmt.isInt then (.ofInt (rneDiv ((vs.map fun v => v.1.toInt).sum) t), 0)
    else andThen (vs.foldl (fun acc v => let r := vAdd acc.1 v.1; (r.1, acc.2 ||| v.2 ||| r.2)) (Num.zero, 0))
      fun s => vMul s (recipNum t)

/-- The source of an output along one axis of RESIZE_BILINEAR: clamped indices and weight. -/
def bilinAxis (o f h : Nat) : Nat × Nat × Num :=
  let p : Int := 2 * o + 1 - f
  let i0 : Int := p / (2 * f : Nat)
  let cl := fun i : Int => (max 0 (min ((h : Int) - 1) i)).toNat
  (cl i0, cl (i0 + 1), .fin false (p % (2 * f : Nat)).toNat (-(Nat.log2 (2 * f) : Int)))

/-- One minus a weight, exactly. -/
def oneMinus (w : Num) : Num := (addExact (.fin false 1 0) w.neg).1

/-- One interpolation of R131: fma(b, w, rne(a × (1 − w))). -/
def lerp (a b : Flagged) (w : Num) : Flagged :=
  let p := vMul a.1 (oneMinus w)
  let r := vFma b.1 w p.1
  (r.1, a.2 ||| b.2 ||| p.2 ||| r.2)

/-- A bilinearly resized value. -/
def Layer.bilinAt (l : Layer) (m : FMap) (n y x c : Nat) : Flagged :=
  let ay := bilinAxis y l.factor l.hIn
  let ax := bilinAxis x l.factor l.wIn
  let v := fun iy ix => andThen (m.scaled n iy ix c) roundF32
  lerp (lerp (v ay.1 ax.1) (v ay.1 ax.2.1) ax.2.2) (lerp (v ay.2.1 ax.1) (v ay.2.1 ax.2.1) ax.2.2) ay.2.2

/-- The source (y, x, c) of an output element that is copied bit for bit (R131). -/
def Layer.source (l : Layer) (y x c : Nat) : Nat × Nat × Nat :=
  let f := l.factor
  if l.s2dOp then (y * f + c / l.cIn / f, x * f + c / l.cIn % f, c % l.cIn)
  else if l.d2sOp then (y / f, x / f, (y % f * f + x % f) * l.cOut + c)
  else (y / f, x / f, c)

/-! ## The output map -/

/-- An output value before conversion; copies apart. -/
def Layer.value (l : Layer) (m : FMap) (fw fout : Fmt) (ws bias : List Byte) (n y x co : Nat) : Flagged :=
  if l.weights then
    let b : W32 := if l.bias then BitVec.ofNat 32 (bf bias (4 * co) 4) else 0
    match pairClass m.fmt fw with
    | some cls =>
      let acc := accumulate cls b (l.terms m fw ws n y x co)
      if fout = .int32 then acc else l.finish acc
    | none => (.nan, 0)
  else if l.pool then l.reluOf (l.poolAt m n y x co)
  else l.reluOf (l.bilinAt m n y x co)

/-- One output pixel: its element bytes, its scale bytes and the flags raised. -/
def Layer.pixel (l : Layer) (m : FMap) (fw fout : Fmt) (sat : Bool) (ws bias : List Byte) (n y x : Nat) :
    List Byte × List Byte × AFlags :=
  let cs := List.range l.cOut
  if l.copies then
    let codes := cs.map fun c => let q := l.source y x c; m.code n q.1 q.2.1 q.2.2
    let scs := if fout.isMx then (List.range ((l.cOut + 31) / 32)).map fun j =>
        let q := l.source y x (32 * j); m.scaleByte n q.1 q.2.1 q.2.2 else []
    (leBytes (pixBytes fout l.cOut) (packResid fout.bits codes), scs, 0)
  else
    let vs := cs.map (l.value m fw fout ws bias n y x)
    let fl := vs.foldl (fun f v => f ||| v.2) (0 : AFlags)
    if fout.isMx then
      let blocks := (cut 32 (l.cOut + 1) (vs.map (·.1))).map fun b => toMxBlock fout (b ++ List.replicate (32 - b.length) .zero)
      (leBytes (pixBytes fout l.cOut) (packResid fout.bits ((blocks.flatMap fun b => b.2.1).take l.cOut)),
        blocks.map (·.1), blocks.foldl (fun f b => f ||| b.2.2) fl)
    else
      let es := vs.map fun v => toElem fout sat v.1
      (leBytes (pixBytes fout l.cOut) (packResid fout.bits (es.map (·.1))), [], es.foldl (fun f e => f ||| e.2) fl)

/-- The whole output map: the bytes of its region and the flags raised. -/
def Layer.run (l : Layer) (m : FMap) (fw fout : Fmt) (sat : Bool) (ws bias : List Byte) : List Byte × AFlags :=
  let px := (List.range l.n).flatMap fun n => (List.range l.hOut).flatMap fun y => (List.range l.wOut).map fun x =>
    l.pixel m fw fout sat ws bias n y x
  let data := px.flatMap fun p => p.1
  let fl := px.foldl (fun f p => f ||| p.2.2) (0 : AFlags)
  let stored := if l.outRelief = 0 then data
    else reliefCompress fout l.outRelief (reliefGranules l.outRelief data.length * reliefRatio l.outRelief) data
  (stored ++ px.flatMap (fun p => p.2.1), fl)

end Sys2Proof.Machine
end

