-- ==== Sys2Proof/Machine/Kernels.lean ====
section
/-! DEFINITION. KERNEL work: its launch checks, its launch, the Start Stagger, barriers, completion, timeouts, traps
and instruction-cache fills (Tiles, Matrix Engines and Kernel Execution; R118 to R125; R321, R322). -/

namespace Sys2Proof.Machine

/-! ## The descriptor and its checks (R55 to R58) -/

/-- Reserved bytes and bits of a KERNEL descriptor (R55, Table 3). -/
def kernelReservedOk (d : Desc) (version : Nat) : Bool :=
  dZero d 13 3 && decide (dF d 24 1 < 16) && decide (dF d 25 1 < 8) && decide (dF d 26 1 < 8) && dZero d 27 1 &&
  dZero d 37 3 && dZero d 42 6 && (version != 1 || (dZero d 25 1 && dZero d 48 16))

def kObjAddr (d : Desc) : Nat := dF d 8 5
def kObjLen (d : Desc) : Nat := dF d 16 4
def kArgAddr (d : Desc) : Nat := dF d 32 5
def kArgCount (d : Desc) : Nat := dF d 40 2
def kTiles (d : Desc) : Nat := dF d 22 1
def kHub (d : Desc) : Bool := dF d 26 1 / 2 % 2 == 1
def kXmod (d : Desc) : Bool := dF d 26 1 / 4 % 2 == 1

/-- Is the number a TILE_COUNT of Table 3? -/
def tileCountOk (n : Nat) : Bool := n == 1 || n == 2 || n == 4 || n == 8 || n == 16 || n == 32 || n == 64

/-- The slot in 16 bytes (R56, Table 4). -/
def slotOf (b : List Byte) : ArgSlot :=
  let a := bf b 0 8
  let sp := a / 2 ^ 62
  { space := sp, addr := if sp = 0 then a % 2 ^ 40 else if sp = 1 then a % 2 ^ 29 else a % 2 ^ 32
    len := bf b 8 4, fmt := bf b 12 1, dir := bf b 13 1 }

/-- Reserved bits of a slot, and the reserved SPACE (R56). -/
def slotReservedOk (b : List Byte) : Bool :=
  let a := bf b 0 8
  let sp := a / 2 ^ 62
  let mid := a % 2 ^ 62
  (if sp = 0 then decide (mid < 2 ^ 40) else if sp = 1 then decide (mid < 2 ^ 29) else if sp = 2 then decide (mid < 2 ^ 32)
   else false) && bf b 12 1 / 32 % 4 == 0 && decide (bf b 13 1 < 4) && bf b 14 2 == 0 &&
  (sp != 2 || bf b 8 4 == 0)

/-- The argument slots in the bytes of the argument block. -/
def slotsOf (n : Nat) (b : List Byte) : List (List Byte) := (List.range n).map fun i => (b.drop (16 * i)).take 16

/-- Does a slot's logical bank address name a claimed bank of a placed tile (R56)? -/
def slotRangeOk (count mask : Nat) (a : ArgSlot) : Bool :=
  a.space != 1 || (decide (a.addr / 0x100000 / 8 < count) && decide (mask / 2 ^ (a.addr / 0x100000 % 8) % 2 = 1))

/-- Slots against an entry's declaration (check 9). -/
def slotsMatch (e : EntryDecl) (as : List ArgSlot) : Bool :=
  e.slots.length == as.length && (e.slots.zip as).all fun p => p.1.space == p.2.space && p.1.dir == p.2.dir

/-- Formats of the slots (check 10): listed, accepted by the entry, admitted by the version (R31). -/
def slotFormatsOk (version : Nat) (e : EntryDecl) (as : List ArgSlot) : Bool :=
  (e.slots.zip as).all fun p =>
    let c := p.2.fmt % 32
    (fmtOf c).isSome && p.1.formats.contains c && fmtAdmitted version c

/-- Every queue of a kernel entry's steps. -/
def entryQueues (e : EntryDecl) : List QueueDecl := e.steps.flatten

/-- The KVPAGE streams of a kernel entry (R176). -/
def entryKv (e : EntryDecl) : List KvDecl := (entryQueues e).filterMap (·.kv)

/-- The limits of R96 to R102 on a declared queue: at most 8 queues of 16 to 4,096 entries, staging slots on granules, a
consumer or producer set, row sizes of 64 B to 64 KiB, tables on granules, and BELL's blocks. -/
def queueOk (q : QueueDecl) : Bool :=
  decide (q.q < 8) && inR 4 12 q.depthLog2 && q.stageAt % 64 == 0 && q.users != 0 && inR 1 1024 q.rowGranules &&
  q.base % 64 == 0 && (q.kind != 5 || q.block == 8 || q.block == 16 || q.block == 32 || q.block == 64) &&
  (q.kind == 6) == q.kv.isSome

/-- Are a step's queues distinct, and do their depths add up to at most 4,096 (R96)? -/
def stepOk (qs : List QueueDecl) : Bool :=
  qs.all queueOk && decide ((qs.map (·.q)).Nodup) && decide ((qs.map fun q => 2 ^ q.depthLog2).sum ≤ 4096)

/-- Stream types listed by the firmware, formats listed and admitted, and Relief only on the types and formats that R132
allows (check 10, R31, R101, R132). -/
def queuesListed (version : Nat) (e : EntryDecl) : Bool :=
  (entryQueues e).all fun q => decide (q.kind ≤ 8) && fmtAdmitted version q.fmt &&
    (q.relief == 0 || ((q.kind == 0 || q.kind == 1 || q.kind == 2 || q.kind == 7 || q.kind == 8) &&
      (q.fmt == 0x01 || q.fmt == 0x08 || q.fmt == 0x09)))

/-- A SCATTER with Relief: row size and table base multiples of the ratio (check 9, R138). -/
def scattersOk (e : EntryDecl) : Bool :=
  (entryQueues e).all fun q => q.relief == 0 || q.kind != 7 ||
    (q.rowGranules % reliefRatio q.relief == 0 && q.baseGranule % reliefRatio q.relief == 0)

/-- The banks of a tile that a queue's staging region touches (R96). -/
def stagedBanks (q : QueueDecl) : List Nat :=
  (List.range ((q.stageAt + 64 * 2 ^ q.depthLog2 - 1) / 0x100000 + 1)).map (q.stageBank + ·)

/-- A slot that an operation does not use (R118): an immediate of value 0. -/
def slotUnused (a : ArgSlot) : Bool := a.space == 2 && a.addr == 0 && a.len == 0

/-- A slot that holds a map or an array: SPACE 00 or 01 with the direction of Table 1. -/
def slotUsed (a : ArgSlot) (dir : Nat) : Bool := (a.space == 0 || a.space == 1) && a.dir == dir

/-- The format of a slot, none for a code that Table 1 does not list. -/
def slotFmt? (a : ArgSlot) : Option Fmt := fmtOf (a.fmt % 32)

/-- The format of a slot whose code check 10 has passed. -/
def slotFmt (a : ArgSlot) : Fmt := (slotFmt? a).getD .int8

/-- A test of check 9 that needs a slot's format. DESIGN CHOICE (notes/assumptions/23.md): it passes a slot whose code is not
listed, which check 10 then refuses. -/
def withFmt (a : ArgSlot) (t : Fmt → Bool) : Bool :=
  match slotFmt? a with
  | some f => t f
  | none => true

/-- Check 9 for a convolution entry (R118, R120, R121, R125): the slots against Table 1 and the record. -/
def convSlotsOk (lb : List Byte) (key : Nat) (as : List ArgSlot) : Bool :=
  match as with
  | [s0, s1, s2, s3, s4] =>
    let l := Layer.ofBytes lb
    s0.space == 0 && s0.dir == 1 && s0.len == 64 && l.ok lb && withFmt s4 l.scaleFits &&
    slotUsed s1 1 && withFmt s1 (fun f => decide (mapSize f l.inRelief l.n l.hIn l.wIn l.cIn ≤ s1.len)) && s1.addr % 64 == 0 &&
    (if l.weights then slotUsed s2 1 && withFmt s2 (fun f => s2.len == l.weightBytes f) else slotUnused s2) &&
    (if l.bias then slotUsed s3 1 && s3.len == l.cOut * 4 else slotUnused s3) &&
    slotUsed s4 2 && withFmt s4 (fun f => decide (mapSize f l.outRelief l.n l.hOut l.wOut l.cOut ≤ s4.len)) && s4.addr % 64 == 0 &&
    (l.inRelief == 0 || s1.space == 0) && (l.outRelief == 0 || s4.space == 0) && (!l.wResident || key != 0)
  | _ => false

/-- Check 10 for a convolution entry (R120). -/
def convFormatsOk (lb : List Byte) (as : List ArgSlot) : Bool :=
  match as with
  | [_, s1, s2, s3, s4] => (Layer.ofBytes lb).formatsOk (slotFmt s1) (slotFmt s2) (slotFmt s3) (slotFmt s4)
  | _ => false

/-- The key that a wrapper names. -/
def wrapperKey : Wrapper → Option W32
  | .openCode => none
  | .owner k => some k

/-- Is an object wrapped for a context (R271)? -/
def State.wrappedFor (s : State) (c : Nat) (o : ObjFacts) : Bool :=
  match o.wrapper with
  | .openCode => true
  | .owner k => (s.ctx c).keys.any fun e => e.2.keyId == k

/-- The argument slots that R270 refuses: an overlap with a protected region, written or not opened by the object's key;
and a write to an open receive window (R320). -/
def State.slotProtected (s : State) (c : Nat) (o : ObjFacts) (a : ArgSlot) : Bool :=
  a.space == 0 && ((a.dir / 2 % 2 == 1 && (s.hitsProt c a.addr a.len || s.hitsRecv a.addr a.len)) ||
    s.hitsProtNotKey c a.addr a.len (wrapperKey o.wrapper))

/-- The cached object that a launch hits (R58). -/
def State.objHit (s : State) (c addr len : Nat) : Option CachedObj :=
  (s.ctx c).cache.find? fun o => o.addr == addr && o.len == len

/-- The facts of the object that a launch names: the cached ones on a hit, else what reading it shows (R58). -/
def State.objFacts (s : State) (c : Nat) (d : Desc) (obj : ObjFacts) : ObjFacts :=
  match s.objHit c (kObjAddr d) (kObjLen d) with
  | some x => x.facts
  | none => obj

/-- The kernel entry that a descriptor's ENTRY names in an object. -/
def objEntry (d : Desc) (o : ObjFacts) : Option EntryDecl := o.entries[dF d 20 2]?

/-- Enter an object that passed every check, or move it to the front; 256 entries, least recently used out (R58). -/
def State.enterObj (s : State) (c : Nat) (o : CachedObj) : State :=
  let x := s.ctx c
  s.setCtx c { x with cache := (o :: x.cache.filter fun p => !(p.addr == o.addr && p.len == o.len)).take 256 }

/-- Is a SEQ descriptor or ACCEPT on the sequence admitted and not complete (R181)? -/
def State.seqBusy (s : State) (q : Nat) : Bool :=
  s.hif.works.any fun w => match w.seqw with
    | some x => x.seqId == q
    | none => false

/-- Is a SEQ descriptor on the sequence admitted and not complete? A KERNEL or ATTN is not checked on before it (R181). -/
def State.seqOpBusy (s : State) (q : Nat) : Bool :=
  s.hif.works.any fun w => w.cls == clSeq && (match w.seqw with
    | some x => x.seqId == q
    | none => false)

/-- Checks 1 to 8, and what check 6 reads of the slots (R57, R58, R270). -/
def State.kernelChecks (s : State) (c : Nat) (f : Fetched) (o : ObjFacts) (hit : Bool) (as : List ArgSlot) :
    List (Bool × Nat) :=
  let d := f.desc
  let v := dF d 2 2
  let part := s.workPart c
  let tiles := match part with | some p => 8 * (s.partClusters p).length | none => 0
  [ (kernelReservedOk d v, stBadDescriptor),
    (part.isSome, stAccessDenied),
    (tileCountOk (kTiles d) && decide (kTiles d ≤ tiles), stBadDescriptor),
    (kObjAddr d % 4096 == 0 && kArgAddr d % 64 == 0 && inR 4096 67108864 (kObjLen d) && (!kHub d || decide (8 ≤ kTiles d)) &&
      (!kXmod d || (s.bit OLP_CASCADE OLP_CASCADE_FORMED && !(s.bit OLP_CASCADE OLP_CASCADE_DEGRADED))), stBadDescriptor),
    (inDram (kObjAddr d) (kObjLen d) && s.inGrant c (kObjAddr d) (kObjLen d) && inDram (kArgAddr d) (16 * kArgCount d) &&
      s.inGrant c (kArgAddr d) (16 * kArgCount d), stAccessDenied),
    ((hit || (o.signed && s.wrappedFor c o)) && !(as.any (s.slotProtected c o)), stAccessDenied),
    (o.version == 1 || o.version == 2, stVersionMismatch),
    (v == 1 || dF d 48 16 == o.digest.toNat % 2 ^ 128, stBadDescriptor) ]

/-- Checks 9 to 12 (R57). DESIGN CHOICE (notes/assumptions/24.md): an entry declared outside the limits of R96 to R102 counts
as one that does not exist. -/
def State.kernelLate (s : State) (c : Nat) (f : Fetched) (o : ObjFacts) (raw : List (List Byte)) (as : List ArgSlot)
    (lb : List Byte) : List (Bool × Nat) :=
  let d := f.desc
  let entry := objEntry d o
  let e := entry.getD { slots := [], engines := 0, banks := 0, hub := false, conv := false, steps := [], barriers := [] }
  let v := dF d 2 2
  let key := if v = 1 then 0 else dF d 25 1 % 8
  let held := s.keyTiles c key
  [ (entry.isSome && e.steps.all stepOk && raw.all slotReservedOk &&
      (if e.conv then convSlotsOk lb key as else slotsMatch e as) && as.all (slotRangeOk (kTiles d) (dF d 23 1)) &&
      scattersOk e, stBadDescriptor),
    ((entryKv e).all fun k => (s.seq k.seqId).state == .active && (s.seq k.seqId).ctx == c, stAccessDenied),
    (slotFormatsOk v e as && queuesListed v e && (!e.conv || convFormatsOk lb as), stFormatUnsupported),
    (decide (e.engines.toNat &&& dF d 24 1 = e.engines.toNat) && decide (e.banks.toNat &&& dF d 23 1 = e.banks.toNat) &&
      (!e.hub || kHub d) && (entryQueues e).all (fun q => (stagedBanks q).all fun b => decide (dF d 23 1 / 2 ^ b % 2 = 1)), stBadDescriptor),
    (key == 0 || held == [] || held.length == kTiles d, stBadDescriptor) ]

/-- The bytes of slot 0's layer record, for a convolution entry. -/
def State.layerBytes (s : State) (c : Nat) (as : List ArgSlot) : List Byte :=
  match as with
  | s0 :: _ => if s0.space = 0 then s.dramRead c s0.addr 64 else []
  | [] => []

/-- Take a hold of each sequence (R177). -/
def State.takeHolds (s : State) (qs : List Nat) : State :=
  qs.foldl (fun t q => t.setSeq q { t.seq q with holds := (t.seq q).holds + 1 }) s

/-- KERNEL (R57): the checks in order, where an uncorrectable read of the argument block or the object fails it (R259); a launch that passes is admitted, unless the role gate is closed (R328), and waits
for its claim. A kernel whose
sequences have a SEQ descriptor before it, or 255 holds, is not checked past check 8 yet (R177, R181). -/
def State.kernelHead (s : State) (r : Nat) (obj : ObjFacts) (f : Fetched) : State :=
  match ringCtx r with
  | none => s
  | some c =>
    let d := f.desc
    let hit := s.objHit c (kObjAddr d) (kObjLen d)
    let o := s.objFacts c d obj
    let block := s.dramRead c (kArgAddr d) (16 * kArgCount d)
    let raw := slotsOf (kArgCount d) block
    let as := raw.map slotOf
    let early := s.kernelChecks c f o hit.isSome as
    let reads := (kArgAddr d, 16 * kArgCount d) :: (if hit.isSome then [] else [(kObjAddr d, kObjLen d)])
    match (if (firstFail (early.take 5)).isNone then s.readFails c reads else none) with
    | some t => t.reject r f stMemoryUncorrectable
    | none =>
    match firstFail early with
    | some st =>
      let slotsRead := inDram (kArgAddr d) (16 * kArgCount d) && s.inGrant c (kArgAddr d) (16 * kArgCount d)
      let denied := st == stAccessDenied && slotsRead && as.any (s.slotProtected c o) &&
        (firstFail (early.take 5)).isNone
      (if denied then s.protErr c else s).reject r f st
    | none =>
      let e := objEntry d o
      let qs := ((match e with | some x => (entryKv x).map KvDecl.seqId | none => ([] : List Nat))).eraseDups
      if qs.any fun q => s.seqOpBusy q || decide (255 ≤ (s.seq q).holds) then s
      else
        let lb := match e with | some x => if x.conv then s.layerBytes c as else [] | none => []
        let s1 := s.touch c (kArgAddr d) (16 * kArgCount d) false
        let s2 := if hit.isNone then s1.touch c (kObjAddr d) (kObjLen d) false else s1
        match firstFail (s2.kernelLate c f o raw as lb), e with
        | some st, _ => s2.reject r f st
        | none, none => s2.reject r f stBadDescriptor
        | none, some ent =>
          let s3 := s2.enterObj c { addr := kObjAddr d, len := kObjLen d, digest := o.digest, facts := o }
          if s3.roleGated c then s3.reject r f stFailedOver
          else
          let holds := qs.map fun q => (q, (s3.seq q).regNo)
          let w := { mkWork r f 0 .waiting with kern := some { obj := o, entry := ent, args := as, layer := lb }, holds := holds }
          (((s3.takeHolds qs).popHead r).addWork w).settle

/-! ## Start Stagger (R70 to R72) -/

/-- Does a cluster run in FIXED mode? A change of mode reaches the clusters one by one (R291). -/
def State.clusterFixed (s : State) (c : Nat) : Bool :=
  (s.fld PWR_MODE PWR_MODE_MODE == 1) != s.pwr.toChange.contains c

/-- The allowance A of Table 8. -/
def State.allowance (s : State) (c : Nat) : Nat :=
  if s.clusterFixed c then 8
  else match s.fld (PWR_CLU c) PWR_CLU_MARGIN_CLASS with
    | 3 => 32
    | 2 => 16
    | 1 => 8
    | _ => 4

/-- Engines set in a mask, as (tile, engine) pairs. -/
def engineList (t mask : Nat) : List (Nat × Nat) := (bits8 (mask % 16)).map fun e => (t, e)

/-- Start one wave: its engines are released with work (ME_BUSY). -/
def State.startWave (s : State) (v : List (Nat × Nat)) : State :=
  v.foldl (fun t e => if t.bit (TILE_STATUS e.1) TILE_STATUS_RUNNING then
    t.setMaskBit (TILE_STATUS e.1) TILE_STATUS_ME_BUSY e.2 true else t) s

/-- The waves of a release in one cluster: ranked by tile, then engine; they join the queue behind earlier releases, and
the first starts at once when nothing is ahead of it and no offset delays it. -/
def State.queueWaves (s : State) (c offset : Nat) (es : List (Nat × Nat)) : State :=
  let a := s.allowance c
  let vs := cut a (es.length + 1) es
  let o := HUB_STAGGER_LAST c
  let s1 := ((s.setFld o HUB_STAGGER_LAST_WAVES vs.length).setFld o HUB_STAGGER_LAST_ALLOWANCE a).setFld o
    HUB_STAGGER_LAST_OFFSET offset
  let h := s1.hub c
  match vs with
  | v :: rest =>
    if h.waves = [] && offset = 0 then (s1.setHub c { h with waves := rest }).startWave v
    else s1.setHub c { h with waves := h.waves ++ vs }
  | [] => s1

/-- Sort (tile, engines) arrivals by tile. -/
def insArrival (x : Nat × Nat) : List (Nat × Nat) → List (Nat × Nat)
  | [] => [x]
  | y :: ys => if x.1 ≤ y.1 then x :: y :: ys else y :: insArrival x ys

/-- The waves of a release in every cluster of its participants. -/
def State.release (s : State) (offset : Nat) (arr : List (Nat × Nat)) : State :=
  let sorted := arr.foldr insArrival []
  s.each (clustersOf (sorted.map (·.1))) fun t c =>
    t.queueWaves c offset ((sorted.filter fun p => p.1 / 8 == c).flatMap fun p => engineList p.1 p.2)

/-! ## Stopping with a cause of its own -/

/-- A trap: SEQ_TRAP and the cause on the trapping tile, and BAD_DESCRIPTOR (R73). DESIGN CHOICE (notes/assumptions/24.md):
TILE_TRAP_CAUSE keeps the cause until the next trap, a tenant switch or a reset; the manual does not say when it returns to
0x00. -/
def State.trapKernel (s : State) (w : Work) (tile cause : Nat) : State :=
  ((s.setBit (TILE_ERR_STATUS tile) TILE_ERR_STATUS_SEQ_TRAP true).setFld (TILE_TRAP_CAUSE tile) TILE_TRAP_CAUSE_CAUSE
    cause).stopKernel w stBadDescriptor

/-! ## Launch (Table 6, steps 6 and 7) -/

/-- A queue declared for the step (R96, R116); CONSUMED counts on from step 7. -/
def State.declareQueue (s : State) (t : Nat) (q : QueueDecl) : State :=
  let o := PE_QUEUE t q.q
  let s1 := ((s.setBit o PE_QUEUE_VALID true).setFld o PE_QUEUE_TYPE q.kind).setFld o PE_QUEUE_DEPTH_LOG2 q.depthLog2
  let s2 := s1.setMaskBit (PE_STATUS t) PE_STATUS_QUEUE_ACTIVE q.q true
  let x := s2.tile t
  s2.setTile t { x with queues := tabSet x.queues q.q { decl := q, row := q.firstRow } }

/-- The queues of a tile's step are no longer declared: CONSUMED alone stays. -/
def State.undeclareQueues (s : State) (t : Nat) : State :=
  let s1 := (List.range 8).foldl (fun u q => (((u.setBit (PE_QUEUE t q) PE_QUEUE_VALID false).setFld (PE_QUEUE t q)
    PE_QUEUE_TYPE 0).setFld (PE_QUEUE t q) PE_QUEUE_DEPTH_LOG2 0).setFld (PE_QUEUE t q) PE_QUEUE_FILLED 0) s
  (s1.setFld (PE_STATUS t) PE_STATUS_QUEUE_ACTIVE 0).setTile t { s1.tile t with queues := [] }

/-- A tile enters a kernel step: its queues take the place of the earlier step's (R96). -/
def State.enterStep (s : State) (t : Nat) (k : KernelWork) (step : Nat) : State :=
  let s1 := s.undeclareQueues t
  ((k.entry.steps[step]?).getD []).foldl (fun u q => u.declareQueue t q) (s1.setTile t { s1.tile t with step := step })

/-- One tile at the first release: code resident, counters cleared, the first step's queues declared (steps 6 and 7, R75,
R116, R139). DESIGN CHOICE (notes/assumptions/24.md): the manual does not place a tile's code in the object; its first 64 KiB
are taken to be the object's first 16 lines, on every tile. -/
def State.startTile (s : State) (w : Work) (k : KernelWork) (t : Nat) : State :=
  let lo := 0x1000000 + t * 0x40000
  let s1 := ((((s.clearReg (TILE_CYCLES t)).clearReg (TILE_STALL_QUEUE t)).clearReg (TILE_STALL_BANK t)).clearReg
    (TILE_ICACHE_MISS t)).clearRange (lo + 0x10000) (lo + 0x20000)
  let s2 := s1.setBit (TILE_STATUS t) TILE_STATUS_RUNNING true
  let lines := List.range (min 16 ((kObjLen w.desc + 4095) / 4096))
  let s3 := s2.setTile t { claim := (s2.tile t).claim, lines := lines }
  s3.enterStep t k 0

/-- The stamp of a convolution launch's record: FLAGS bit 3 cleared (R125). -/
def layerStamp (lb : List Byte) : Nat :=
  let fl := bf lb 1 1
  (Config.shake256 (lb.take 1 ++ [BitVec.ofNat 8 (if fl / 8 % 2 = 1 then fl - 8 else fl)] ++ lb.drop 2)).toNat % 2 ^ 128

/-- Bytes of a kernel's banks from a logical bank address (R56). -/
def State.logicalRead (s : State) (w : Work) (addr n : Nat) : List Byte :=
  (logicalPieces w.tiles addr n).flatMap fun p => s.bankRead p.1 p.2

/-- Where the stamp stands: behind the packed weights, on the next 16 bytes (R125; DESIGN CHOICE,
notes/assumptions/24.md). -/
def KernelWork.stampAt (k : KernelWork) : Nat :=
  let n := match k.args with
    | [_, _, s2, _, _] => (Layer.ofBytes k.layer).weightBytes (slotFmt s2)
    | _ => 0
  k.entry.pack + (n + 15) / 16 * 16

/-- Does a W_RESIDENT launch find its stamp in the banks held under its key (R125)? -/
def State.stampFound (s : State) (w : Work) (k : KernelWork) : Bool :=
  leNat (s.logicalRead w k.stampAt 16) == layerStamp k.layer

/-- Does the entry run a convolution whose weights are resident? -/
def KernelWork.wResident (k : KernelWork) : Bool := k.layer != [] && (Layer.ofBytes k.layer).wResident

/-- The first release of a kernel (step 7). A W_RESIDENT launch whose stamp differs traps with ARG_RANGE. DESIGN CHOICE
(notes/assumptions/24.md): at the first release every engine that the entry uses has work, on every placed tile. -/
def State.launchKernel (s : State) (w : Work) (k : KernelWork) : State :=
  let w1 := { w with stage := .running, phase := .running, startAt := s.now }
  let s1 := s.each w.tiles fun t i => t.startTile w k i
  let s2 := s1.setWork w1
  let s3 := if kXmod w.desc then { s2 with olp := { s2.olp with xlaunch := s2.olp.xlaunch + 1 } } else s2
  let s4 := s3.release 0 (w.tiles.map fun t => (t, k.entry.engines.toNat))
  if k.wResident && !(s4.stampFound w1 k) then
    match w.tiles with
    | t :: _ => s4.trapKernel w1 t 1
    | [] => s4
  else s4

/-! ## Barriers (R67 to R71, R321, R322) -/

/-- The tiles that take part in a barrier with a given tile. -/
def barrierTiles (w : Work) (sc : Scope) (tile : Nat) : List Nat :=
  match sc with
  | .cluster => w.tiles.filter fun t => t / 8 == tile / 8
  | _ => w.tiles

/-- The cascade offset of R71 in units of 100 ns. -/
def State.cascadeOffset (s : State) : Nat :=
  if s.fld OLP_CASCADE OLP_CASCADE_SIZE = 0 then 0
  else 5 * (s.fld OLP_CASCADE OLP_CASCADE_POSITION + 4 * s.fld OLP_CASCADE OLP_CASCADE_STANDBY_CASCADE)

/-- Replace a kernel's part of its work. -/
def State.setKern (s : State) (w : Work) (k : KernelWork) : State := s.setWork { w with kern := some k }

/-- Recompute HUB_BARRIER_ARMED of the clusters of a work. -/
def State.showArmed (s : State) (w : Work) : State :=
  s.each (clustersOf w.tiles) fun t c => t.setFld (HUB_BARRIER_ARMED c) HUB_BARRIER_ARMED_ARMED (armedWord t.hif.works c)

/-- A tile takes part in a release of a barrier: what its engine wrote is visible, and the reads behind its mark may go
(R67). -/
def State.tileReleased (s : State) (c bar t : Nat) : State :=
  let s1 := (s.drainStores c t).setBit (TILE_STATUS t) TILE_STATUS_AT_BARRIER false
  let x := s1.tile t
  s1.setTile t { x with released := tabSet x.released bar (tabGetD x.released bar 0 + 1) }

/-- A barrier use releases: what its participants wrote is visible, they leave it, its use count rises, and the engines start in waves. -/
def State.releaseBarrier (s : State) (w : Work) (k : KernelWork) (b : BarrierUse) (sc : Scope) : State :=
  let uses := tabSet k.barrierGen b.bar (tabGetD k.barrierGen b.bar 0 + 1)
  let k1 := { k with barriers := (k.barriers.filter fun x => x != b), barrierGen := uses }
  let s1 := b.arrived.foldl (fun t a => t.tileReleased w.ctx b.bar a.1) s
  let s2 := (s1.setKern w k1).showArmed w
  s2.release (if sc = .cascade then s2.cascadeOffset else 0) b.arrived

/-- The GEN that a member announces for a barrier (R322). -/
def State.barrierGenOf (s : State) (k : KernelWork) (bar : Nat) : Nat :=
  (s.olp.xlaunch - 1) % 2 ^ 20 * 4096 + tabGetD k.barrierGen bar 0 % 4096

/-- Has every other member announced this use of a barrier? -/
def State.allAnnounced (s : State) (k : KernelWork) (bar : Nat) : Bool :=
  (List.range (s.fld OLP_CASCADE OLP_CASCADE_SIZE)).all fun o =>
    o == s.fld OLP_CASCADE OLP_CASCADE_POSITION || k.announced.contains (bar, o, s.barrierGenOf k bar)

/-- The BARRIER frame of a member on both ring ports, behind its DATA frames there (R321, Table 3). -/
def State.announceBarrier (s : State) (w : Work) (k : KernelWork) (bar : Nat) : State :=
  let pl := leBytes 2 w.ring ++ leBytes 1 bar ++ leBytes 1 (s.fld OLP_CASCADE OLP_CASCADE_POSITION) ++
    leBytes 4 (s.barrierGenOf k bar)
  let f : LinkFrame := { ftype := 0x12, vc := 0, addr := 0, payload := pl }
  (s.sendFrame 1 f).sendFrame 2 f

/-- Release a CASCADE barrier when its own sequencers have arrived and every member has announced it (R321). -/
def State.tryCascade (s : State) (w : Work) (k : KernelWork) (b : BarrierUse) : State :=
  if w.tiles.all (fun t => b.arrived.any fun a => a.1 == t) && s.allAnnounced k b.bar then s.releaseBarrier w k b .cascade
  else s

/-- A sequencer arrives at a barrier (R67). -/
def State.arrive (s : State) (w : Work) (k : KernelWork) (tile bar queued : Nat) (sc : Scope) : State :=
  let parts := barrierTiles w sc tile
  let isUse := fun b : BarrierUse => b.bar == bar && (sc != .cluster || b.arrived.any fun a => a.1 / 8 == tile / 8)
  let old := (k.barriers.find? isUse).getD { bar := bar, arrived := [] }
  if old.arrived.any fun a => a.1 == tile then s
  else
    let b : BarrierUse := { old with arrived := old.arrived ++ [(tile, queued)] }
    let k1 := { k with barriers := (k.barriers.filter fun x => x != old) ++ [b] }
    let s1 := ((s.setBit (TILE_STATUS tile) TILE_STATUS_AT_BARRIER true).setKern w k1).showArmed w
    if parts.all fun t => b.arrived.any fun a => a.1 == t then
      if sc = .cascade then (s1.announceBarrier w k1 bar).tryCascade { w with kern := some k1 } k1 b
      else s1.releaseBarrier { w with kern := some k1 } k1 b sc
    else s1

/-! ## Completion (R64, R65) -/

/-- `n` bytes from the start of an argument slot's region. -/
def State.slotRead (s : State) (w : Work) (a : ArgSlot) (n : Nat) : List Byte :=
  if a.space = 0 then s.dramRead w.ctx a.addr n
  else if a.space = 1 then s.logicalRead w a.addr n
  else leBytes 4 a.addr

/-- Write bytes piece by piece to bank-space pieces. -/
def State.piecesWrite (s : State) : List (Nat × Nat) → List Byte → State
  | [], _ => s
  | p :: ps, bs => (s.bankWrite p.1 (bs.take p.2)).piecesWrite ps (bs.drop p.2)

/-- Write bytes to an argument slot's region. -/
def State.slotWrite (s : State) (c : Nat) (tiles : List Nat) (space addr : Nat) (bs : List Byte) : State :=
  if space = 0 then s.dramWrite c addr bs
  else if space = 1 then s.piecesWrite (logicalPieces tiles addr bs.length) bs
  else s

/-- The regions of a convolution: slot, bytes, and whether it is written (Table 1 of Convolution, Resampling and Relief
Compression). -/
def KernelWork.regions (k : KernelWork) : List (ArgSlot × Nat × Bool) :=
  match (if k.layer = [] then [] else k.args) with
  | [_, s1, s2, s3, s4] =>
    let l := Layer.ofBytes k.layer
    (s1, mapExtent (slotFmt s1) l.inRelief l.n l.hIn l.wIn l.cIn, false) ::
      (if l.weights && !k.wResident then [(s2, l.weightBytes (slotFmt s2), false)] else []) ++
      (if l.bias then [(s3, 4 * l.cOut, false)] else []) ++
      [(s4, mapExtent (slotFmt s4) l.outRelief l.n l.hOut l.wOut l.cOut, true)]
  | _ => []

/-- The key that a work's object opens (R270). -/
def Work.objKey (w : Work) : Option W32 :=
  match w.kern with
  | some k => wrapperKey k.obj.wrapper
  | none => none

/-- The DRAM request check of R58, R103, R269 and R270: none when it passes, else whether a protected region, or the object of
a running kernel, refused it. -/
def State.peRefused (s : State) (w : Work) (addr len : Nat) (write : Bool) : Option Bool :=
  if !(inDram addr len && s.inGrant w.ctx addr len) then some false
  else if write then
    if s.hitsProt w.ctx addr len || s.hitsRecv addr len then some true
    else if s.objectBusy addr len then some true else none
  else if s.hitsProtNotKey w.ctx addr len w.objKey then some true else none

/-- The first refusal among the DRAM regions of a convolution. -/
def State.convRefused (s : State) (w : Work) (k : KernelWork) : Option Bool :=
  k.regions.findSome? fun r => if r.1.space = 0 then s.peRefused w r.1.addr r.2.1 r.2.2 else none

/-- A convolution's read that meets an uncorrectable line or group (R66, R80, R259). -/
def State.convReadFails (s : State) (w : Work) (k : KernelWork) : Option State :=
  (k.regions.filter fun r => !r.2.2).findSome? fun r =>
    if r.1.space = 0 then s.readFails w.ctx [(r.1.addr, r.2.1)]
    else if r.1.space = 1 then s.bankFails (logicalPieces w.tiles r.1.addr r.2.1) else none

/-- What a convolution entry leaves: its output map, the flags of its arithmetic (R123, R124, R130, R131, R44), and its
packed weights with their stamp in the banks held under a placement key (R125). DESIGN CHOICE (notes/assumptions/24.md): the
maps are read and written when the kernel finishes; the requests of its Pointing Engines are commands of their own. -/
def State.runLayer (s : State) (w : Work) (k : KernelWork) : State × AFlags :=
  match k.args with
  | [_, s1, s2, s3, s4] =>
    let l := Layer.ofBytes k.layer
    let ext := mapExtent (slotFmt s1) l.inRelief l.n l.hIn l.wIn l.cIn
    let m := FMap.ofBytes (slotFmt s1) l.inRelief l.n l.hIn l.wIn l.cIn (s.slotRead w s1 ext)
    let wb := l.weightBytes (slotFmt s2)
    let ws := if k.wResident then s.logicalRead w k.entry.pack wb else if l.weights then s.slotRead w s2 wb else []
    let bias := if l.bias then s.slotRead w s3 (4 * l.cOut) else []
    let out := l.run m (slotFmt s2) (slotFmt s4) (decide (s4.fmt ≥ 128)) ws bias
    let s0 := k.regions.foldl (fun t r => if r.1.space = 0 && !r.2.2 then t.touch w.ctx r.1.addr r.2.1 false else t) s
    let t := s0.slotWrite w.ctx w.tiles s4.space s4.addr out.1
    if l.weights && !k.wResident && w.shape.key != 0 then
      ((t.slotWrite w.ctx w.tiles 1 k.entry.pack ws).slotWrite w.ctx w.tiles 1 k.stampAt (leBytes 16 (layerStamp k.layer)), out.2)
    else (t, out.2)
  | _ => (s, 0)

/-- Per tile counters at the finish of its last engine (Table 12), with the counter events they raise (R372): clocks, the
queue and bank stalls not yet counted, and engine-clocks with work. -/
def State.tileDone (s : State) (c t : Nat) (x : Nat × Nat × Nat × Nat) : State :=
  let s1 := ((s.setFld (TILE_CYCLES t) TILE_CYCLES_CYCLES x.1).addSat (TILE_STALL_QUEUE t) TILE_STALL_QUEUE_CLOCKS
    x.2.1).addSat (TILE_STALL_BANK t) TILE_STALL_BANK_CLOCKS x.2.2.1
  ((s1.count 0x01 c t x.2.2.2).count 0x02 c t x.2.1).count 0x03 c t x.2.2.1

/-- Class words of a KERNEL's record (R65, Table 10 of the host interface chapter). -/
def State.kernelWords (s : State) (w : Work) (fin : KernelFin) : Nat :=
  min 0xFFFFFFFF fin.cycles + 2 ^ 32 * s.stallClocks w

/-- One DRAM request is issued (R98). -/
def State.peCount (s : State) (c t : Nat) : State :=
  (s.addSat (PE_REQ_COUNT t) PE_REQ_COUNT_REQUESTS 1).count 0x06 c t 1

/-- The compressed granule of the blocks gathered, completed with zero blocks (R134, R138), and its special groups. -/
def reliefGranule (d : QueueDecl) (bytes : List Byte) : List Byte × Nat :=
  let f := (fmtOf d.fmt).getD .int8
  let k := reliefRatio d.relief
  let whole := bytes ++ List.replicate (64 * k - bytes.length) 0
  (reliefCompress f d.relief k whole, ((cut 64 k whole).map fun b => (reliefEncodeBlock f d.relief b).2).sum)

/-- The counters of a compressed granule that is written (R139). -/
def State.reliefCount (s : State) (t special : Nat) : State :=
  (s.addSat (PE_RELIEF_ENC t) PE_RELIEF_ENC_GRANULES 1).addSat (PE_RELIEF_GROUPS t) PE_RELIEF_GROUPS_SPECIAL special

/-- A compressed granule that a queue has gathered in part is completed with zero blocks and written whole (R138). -/
def State.flushPush (s : State) (c t : Nat) (p : Nat × PeQueue) : State :=
  let q := p.2
  if q.pushed = [] then s
  else
    let g := reliefGranule q.decl q.pushed
    let s1 := ((s.peCount c t).dramWrite c q.pushAddr g.1).reliefCount t g.2
    let x := s1.tile t
    s1.setTile t { x with queues := tabSet x.queues p.1 { q with pushed := [] } }

/-- A refused DRAM request of a kernel stops it with ACCESS_DENIED and ADDR_RANGE (R103, R269, R270). -/
def State.denyKernel (s : State) (w : Work) (t : Nat) (prot : Bool) : State :=
  let s1 := s.setBit (PE_ERR_STATUS t) PE_ERR_STATUS_ADDR_RANGE true
  (if prot then s1.protErr w.ctx else s1).stopKernel w stAccessDenied

/-- Steps 8 to 10 of Table 6: the results are visible, the claims are released and the record is written. -/
def State.finishKernel (s : State) (w : Work) (k : KernelWork) (fin : KernelFin) : State :=
  match s.convReadFails w k with
  | some t => ((t.setBit (PE_ERR_STATUS (w.tiles.headD 0)) PE_ERR_STATUS_MEM_UNCORR true).setBit
      (TILE_ERR_STATUS (w.tiles.headD 0)) TILE_ERR_STATUS_MEM_UNCORR true).stopKernel w stMemoryUncorrectable
  | none =>
  let s0 := (w.tiles.zip fin.tiles).foldl (fun t p => t.tileDone w.ctx p.1 p.2) (s.drainWork w)
  let s1 := s0.each w.tiles fun t i => (t.tile i).queues.foldl (fun u p => u.flushPush w.ctx i p) t
  match s1.convRefused w k with
  | some prot => s1.denyKernel w (w.tiles.headD 0) prot
  | none =>
    let r := if k.layer = [] then (s1, fin.flags &&& 0x7F) else s1.runLayer w k
    ((r.1.releaseClaim w w.freesKey).releaseHolds w).complete w stDone r.2.toNat (r.1.kernelWords w fin)

/-! ## Commands -/

/-- Run a command on a running kernel; where there is none, nothing happens (notes/assumptions/1.md). -/
def State.onKernel (s : State) (r seq : Nat) (act : Work → KernelWork → State) : State :=
  match s.work? r seq with
  | some w => match w.kern with
    | some k => if w.stage = .running then act w k else s
    | none => s
  | none => s

/-- KERNEL (R57). -/
def kernelCmd (r : Nat) (obj : ObjFacts) (s : State) : State := s.withHeadAny r clKernel (s.kernelHead r obj)

/-- STAGGER_WAVE (R70, R72): the next wave of a cluster starts. -/
def staggerWave (c : Nat) (s : State) : State :=
  match (s.hub c).waves with
  | v :: vs => (s.setHub c { s.hub c with waves := vs }).startWave v
  | [] => s

/-- BARRIER_ARRIVE (R67): the engines with work queued are among those of ME_MASK, the others stay clock-gated (R63); the
engines of the tile have no work until the release, so ME_BUSY clears. -/
def barrierArrive (r seq tile bar queued : Nat) (s : State) : State :=
  s.onKernel r seq fun w k =>
    match k.entry.barriers[bar]? with
    | some sc => if w.tiles.contains tile && decide (bar < 16) && (sc != .cascade || kXmod w.desc) then
        (s.setFld (TILE_STATUS tile) TILE_STATUS_ME_BUSY 0).arrive w k tile bar (queued &&& w.shape.meMask) sc else s
    | none => s

/-- KERNEL_FINISH (R64): the last engine of the last tile finishes. -/
def kernelFinish (r seq : Nat) (fin : KernelFin) (s : State) : State :=
  s.onKernel r seq fun w k => s.finishKernel w k fin

/-- KERNEL_TIMEOUT (R69): TIMEOUT_MS has passed since the first release (Table 6, step 7). -/
def kernelTimeout (r seq : Nat) (s : State) : State :=
  s.onKernel r seq fun w _ =>
    if w.late s.now (dF w.desc 28 4) then (s.tilesErr w TILE_ERR_STATUS_TIMEOUT).stopKernel w stTimeout else s

/-- SEQUENCER_TRAP (R73). -/
def sequencerTrap (r seq tile : Nat) (cause : Nat) (s : State) : State :=
  s.onKernel r seq fun w _ =>
    if w.tiles.contains tile && inR 1 3 cause then s.trapKernel w tile cause else s

/-- ICACHE_FILL (R74): one 4 KiB line of the object is refilled; 16 lines stay resident. DESIGN CHOICE
(notes/assumptions/24.md): the oldest fill leaves; the manual gives no replacement order. -/
def icacheFill (tile line : Nat) (s : State) : State :=
  match s.tileWork tile with
  | some w =>
    let x := s.tile tile
    if w.kern.isSome && w.stage == .running && !(x.lines.contains line) && decide (line * 4096 < kObjLen w.desc) then
      let s1 := s.touch w.ctx (kObjAddr w.desc + line * 4096) (min 4096 (kObjLen w.desc - line * 4096)) false
      let s2 := s1.addSat (TILE_ICACHE_MISS tile) TILE_ICACHE_MISS_MISSES 1
      s2.setTile tile { x with lines := (line :: x.lines).take 16 }
    else s
  | none => s

end Sys2Proof.Machine
end

