-- ==== Sys2Proof/Machine/Pages.lean ====
section
/-! DEFINITION. Frames, the Page Frame Table, page entries and the Page Walkers (KV Cache Paging, Pre-emption and
Swap, R163 to R176, R187, R188). -/

namespace Sys2Proof.Machine

/-! ## Pages (R163 to R165) -/

/-- Format codes of a page part (R165). -/
def kvE4m3 : Nat := 0x08
def kvInt8 : Nat := 0x01
def kvInt4 : Nat := 0x03
def kvMxfp4 : Nat := 0x14

/-- Is the code a page format (R165)? -/
def kvFmtOk (c : Nat) : Bool := c == kvE4m3 || c == kvInt8 || c == kvInt4 || c == kvMxfp4

/-- Bytes per token per head of a part (Table 2 of Blockwise Attention and Speculative Verification). -/
def tokenBytes (f d : Nat) : Nat := if f = kvInt4 then d / 2 else if f = kvMxfp4 then d / 2 + d / 32 else d

/-- Bytes of the scale area (R164). -/
def scaleArea (h : Nat) : Nat := 64 * ((8 * h + 63) / 64)

/-- Bytes of a page (R164). -/
def pageBytes (h d kf vf : Nat) : Nat := scaleArea h + 256 * h * (tokenBytes kf d + tokenBytes vf d)

/-- Offset of the keys of head `k` in a frame (Table 1). -/
def keysAt (h d kf k : Nat) : Nat := scaleArea h + k * 256 * tokenBytes kf d

/-- Offset of the values of head `k` in a frame (Table 1). -/
def valuesAt (h d kf vf k : Nat) : Nat := scaleArea h + h * 256 * tokenBytes kf d + k * 256 * tokenBytes vf d

/-- Does a part of a page carry a per-head scale (R165)? -/
def kvScaled (f : Nat) (bit : Bool) : Bool := f == kvInt8 || f == kvInt4 || (f == kvMxfp4 && bit)

/-- Pages of a length. -/
def pagesOf (len : Nat) : Nat := (len + 255) / 256

/-! ## The Page Frame Table (R166 to R168) -/

/-- Words W0 to W3 of an entry (Table 2). -/
def Frame.word (f : Frame) (i : Nat) : W64 :=
  match i with
  | 0 => putBits (putBits (putBits (putBits (putBits 0 PFT_W0_STATE f.state) PFT_W0_CLEAR_PENDING
      (if f.clearPending then 1 else 0)) PFT_W0_CTX f.ctx) PFT_W0_SIZE_4K f.size4k) PFT_W0_BASE (f.base / 4096)
  | 1 => putBits (putBits (putBits (putBits (putBits (putBits 0 PFT_W1_GEN f.gen) PFT_W1_LAYER f.layer) PFT_W1_PAGE f.page)
      PFT_W1_REFS f.refs) PFT_W1_KFMT f.kfmt) PFT_W1_VFMT f.vfmt
  | 2 => putBits (putBits 0 PFT_W2_VSCALE (if f.vscale then 1 else 0)) PFT_W2_KSCALE (if f.kscale then 1 else 0)
  | _ => 0

/-- Set an error bit of KVP_ERR_STATUS; KVP_ERR_INFO takes the sequence and frame of the first error (Table 9). -/
def State.kvErr (s : State) (b : Bits) (q f : Nat) : State :=
  let s1 := if s.reg KVP_ERR_STATUS = 0 then
      (s.setFld KVP_ERR_INFO KVP_ERR_INFO_SEQ_ID q).setFld KVP_ERR_INFO KVP_ERR_INFO_FRAME f else s
  s1.setBit KVP_ERR_STATUS b true

/-- A frame that is defined, FREE and large enough for context `c` (R168). -/
def Frame.fits (f : Frame) (c n : Nat) : Bool :=
  f.state == 0 && f.ctx == c && decide (0 < f.size4k) && decide (n ≤ 4096 * f.size4k)

/-- The frame that R168 takes: smallest SIZE_4K, then lowest number. -/
def bestFrame (c n : Nat) : Tab Frame → Option (Nat × Frame)
  | [] => none
  | e :: t =>
    match bestFrame c n t with
    | some b => if e.2.fits c n && decide (e.2.size4k ≤ b.2.size4k) then some e else some b
    | none => if e.2.fits c n then some e else none

/-- A page that needs a frame. -/
structure PageReq where
  layer : Nat
  page : Nat
  bytes : Nat
  kfmt : Nat
  vfmt : Nat
  kscale : Bool
  vscale : Bool
  deriving DecidableEq, Repr

/-- Zero-fill the first `n` bytes of a frame that is pending a clear (R168). -/
def State.clearFrame (s : State) (c f n : Nat) : State :=
  let e := s.frame f
  if e.clearPending then
    (s.dramWrite c e.base (List.replicate n 0)).setFrame f { e with clearPending := false }
  else s

/-- Allocate a frame for a page of context `c` in state `st` (1 MAPPED, 2 FILLING), R168. -/
def State.allocFrame (s : State) (c st : Nat) (p : PageReq) : Option (Nat × State) :=
  match bestFrame c p.bytes s.kv.frames with
  | none => none
  | some (f, _) =>
    let s1 := s.clearFrame c f p.bytes
    some (f, s1.setFrame f { s1.frame f with
      state := st, layer := p.layer, page := p.page, kfmt := p.kfmt, vfmt := p.vfmt, kscale := p.kscale,
      vscale := p.vscale, refs := 1 })

/-- Allocate frames for pages; none when one has no frame. -/
def State.allocAll (s : State) (c st : Nat) : List PageReq → Option (State × List (PageReq × Nat))
  | [] => some (s, [])
  | p :: ps =>
    match s.allocFrame c st p with
    | none => none
    | some (f, s1) =>
      match s1.allocAll c st ps with
      | none => none
      | some (s2, fs) => some (s2, (p, f) :: fs)

/-- One sequence fewer maps a frame; at zero it becomes FREE with the next generation (R166, R168). -/
def State.decRef (s : State) (f : Nat) : State :=
  let e := s.frame f
  if e.refs ≤ 1 then s.setFrame f { e with refs := 0, state := 0, gen := (e.gen + 1) % 65536 }
  else s.setFrame f { e with refs := e.refs - 1 }

/-- Frames that a page could use, free or not (check 9 of Table 5). -/
def State.framesOf (s : State) (c n : Nat) : Nat :=
  (s.kv.frames.filter fun e => e.2.ctx == c && decide (0 < e.2.size4k) && decide (n ≤ 4096 * e.2.size4k)).length

/-- Do the pages of a request fit the frames that the context owns, free or not? -/
def State.couldHold (s : State) (c : Nat) (ns : List Nat) : Bool :=
  ns.all fun n => decide ((ns.filter fun m => decide (n ≤ m)).length ≤ s.framesOf c n)

/-! ## Page entries (R169, R170, R174) -/

/-- A page entry (Table 3). -/
def pageEntry (gen f : Nat) : List Byte := leBytes 4 (2 ^ 31 + gen * 2 ^ 15 + f)

/-- DRAM address of a leaf entry. -/
def leafAt (table l j : Nat) : Nat := table + 2048 * l + 4 * j

/-- DRAM address of a fall-back list entry. -/
def listAt (table layers l j : Nat) : Nat := table + 2048 * layers + 2048 * l + 4 * j

/-- Map a page of a sequence: the table entry first, then the list entry, then the leaf entry (R174). -/
def State.mapPage (s : State) (q l j f : Nat) : State :=
  let x := s.seq q
  let e := pageEntry (s.frame f).gen f
  let s1 := s.setFrame f { s.frame f with state := 1 }
  let s2 := (s1.dramWrite x.ctx (listAt x.table x.layers l j) e).dramWrite x.ctx (leafAt x.table l j) e
  s2.setSeq q { s2.seq q with pages := tabSet (s2.seq q).pages (512 * l + j) f }

/-- Zero the entries of a page: the leaf, then the list (R174). -/
def State.unmapEntry (s : State) (q k : Nat) : State :=
  let x := s.seq q
  (s.dramWrite x.ctx (leafAt x.table (k / 512) (k % 512)) [0, 0, 0, 0]).dramWrite x.ctx
    (listAt x.table x.layers (k / 512) (k % 512)) [0, 0, 0, 0]

/-- Drop look-aside entries in the hubs that are ON (R171, R174). -/
def State.shootdownIf (s : State) (gone : WalkEnt → Bool) : State :=
  s.each (List.range 8) fun t c =>
    if t.isOn (.hub c) then
      let b := (t.hub c).buffer.filter fun e => !(gone e)
      ((t.setHub c { t.hub c with buffer := b }).setFld (WALK_STATUS c) WALK_STATUS_VALID b.length).addSat
        (WALK_SHOOTDOWNS c) WALK_SHOOTDOWNS_COUNT 1
    else t

/-- A shootdown names (CTX, SEQ_ID). -/
def State.shootdown (s : State) (c q : Nat) : State := s.shootdownIf fun e => e.ctx == c && e.seqId == q

/-- Unmap every page of a sequence under R174; what frames it freed is what is FREE afterwards. The shootdown has been
served when `shot`. -/
def State.unmapAll (s : State) (q : Nat) (shot : Bool) : State :=
  let x := s.seq q
  let s1 := s.each (x.pages.map (·.1)) fun t k => t.unmapEntry q k
  let s2 := if shot then s1 else s1.shootdown x.ctx q
  let s3 := s2.each (x.pages.map (·.2)) fun t f => t.decRef f
  s3.setSeq q { s3.seq q with pages := [] }

/-- Frames of a sequence that only it maps. -/
def State.soleFrames (s : State) (q : Nat) : Nat :=
  ((s.seq q).pages.filter fun e => decide ((s.frame e.2).refs ≤ 1)).length

/-! ## Translation (R171 to R175) -/

/-- The window of 1,024 arithmetic clocks of a hub that the present time lies in (R173). -/
def State.walkWindow (s : State) (c : Nat) : Nat := s.now * s.fld (GLB_CLU_FREQ c) GLB_CLU_FREQ_MHZ / 1024

/-- The hub's window counts, from zero when a new window has begun. -/
def State.hubNow (s : State) (c : Nat) : Hub :=
  let h := s.hub c
  if h.window = s.walkWindow c then h else { h with window := s.walkWindow c, misses := 0, faults := 0 }

/-- Is the hub in fall-back mode? -/
def State.inFallback (s : State) (c : Nat) : Bool := s.bit (WALK_STATUS c) WALK_STATUS_FALLBACK

/-- Enter fall-back mode when the window's counts reach the policy's limits (R173). -/
def State.stormCheck (s : State) (c : Nat) : State :=
  let h := s.hub c
  let lim := s.fld KVP_WALK_POLICY KVP_WALK_POLICY_FAULT_LIMIT
  if !(s.inFallback c) && (decide (s.fld KVP_WALK_POLICY KVP_WALK_POLICY_STORM_MISSES < h.misses) ||
      (decide (0 < lim) && decide (lim ≤ h.faults))) then
    (s.setBit (WALK_STATUS c) WALK_STATUS_FALLBACK true).addSat (WALK_STORMS c) WALK_STORMS_COUNT 1
  else s

/-- A buffer miss. -/
def State.walkMiss (s : State) (c ctx : Nat) : State :=
  let h := s.hubNow c
  (((s.setHub c { h with misses := h.misses + 1 }).addSat (WALK_MISSES c) WALK_MISSES_COUNT 1).count 0x19 ctx c 1).stormCheck c

/-- A walker fault. -/
def State.walkFault (s : State) (c : Nat) : State :=
  let h := s.hubNow c
  ((s.setHub c { h with faults := h.faults + 1 }).addSat (WALK_FAULTS c) WALK_FAULTS_COUNT 1).stormCheck c

/-- Is it this page's translation? -/
def WalkEnt.of (e : WalkEnt) (ctx q l j : Nat) : Bool := e.ctx == ctx && e.seqId == q && e.layer == l && e.page == j

/-- Put an entry at the front of the buffer of 128; the least recently used leaves (R171). -/
def State.bufferFill (s : State) (c : Nat) (e : WalkEnt) : State :=
  let h := s.hub c
  let b := (e :: h.buffer.filter fun x => !(x.of e.ctx e.seqId e.layer e.page)).take 128
  (s.setHub c { h with buffer := b }).setFld (WALK_STATUS c) WALK_STATUS_VALID b.length

/-- The check of a page entry against the Page Frame Table (R172). -/
def State.entryCheck (s : State) (ctx q l j entry : Nat) : Option WalkEnt :=
  let f := entry % 2 ^ 15
  let e := s.frame f
  if entry / 2 ^ 31 % 2 = 1 ∧ e.state = 1 ∧ e.ctx = ctx ∧ e.layer = l ∧ e.page = j ∧ e.gen = entry / 2 ^ 15 % 2 ^ 16 then
    some { ctx := ctx, seqId := q, layer := l, page := j, frame := f, base := e.base, kfmt := e.kfmt, vfmt := e.vfmt,
           kscale := e.kscale, vscale := e.vscale }
  else none

/-- Read one page entry and check it: the state after, and the translation or why there is none (`true` for an
uncorrectable error). -/
def State.readEntry (s : State) (ctx q l j addr : Nat) (bad walker : Bool) (hub : Nat) : State × (WalkEnt ⊕ Bool) :=
  let s1 := s.touch ctx addr 4 false
  if bad || (s1.badLine addr 4).isSome then
    let s2 := s1.ueDemand addr ctx
    (if walker then s2.walkFault hub else s2, .inr true)
  else
    match s1.entryCheck ctx q l j (leNat (s1.dramRead ctx addr 4)) with
    | some e => (s1, .inl e)
    | none => (if walker then s1.walkFault hub else s1, .inr false)

/-- The walker's path (R171, R172): a buffer hit, or a walk, which the hub does not make in fall-back mode (R173). -/
def State.walkerPath (s : State) (hub ctx q l j : Nat) (leafBad : Bool) (why : Bool) : State × (WalkEnt ⊕ Bool) :=
  match (s.hub hub).buffer.find? (·.of ctx q l j) with
  | some e => (((s.bufferFill hub e).addSat (WALK_HITS hub) WALK_HITS_COUNT 1).count 0x18 ctx hub 1, .inl e)
  | none =>
    if s.inFallback hub then (s, .inr why)
    else
      match (s.walkMiss hub ctx).readEntry ctx q l j (leafAt (s.seq q).table l j) leafBad true hub with
      | (s1, .inl e) => (s1.bufferFill hub e, .inl e)
      | r => r

/-- The fall-back list's path (R172). -/
def State.listPath (s : State) (hub ctx q l j : Nat) (listBad : Bool) : State × (WalkEnt ⊕ Bool) :=
  match s.readEntry ctx q l j (listAt (s.seq q).table (s.seq q).layers l j) listBad false hub with
  | (s1, .inl e) =>
    ((s1.addSat (WALK_FALLBACK_PAGES hub) WALK_FALLBACK_PAGES_COUNT 1).count 0x1A ctx hub 1, .inl e)
  | r => r

/-- The translation of R172: the state after, and the frame with whether the list served it, or whether the failure is an
uncorrectable error. -/
def State.translate (s : State) (hub ctx q l j : Nat) (leafBad listBad : Bool) : State × ((WalkEnt × Bool) ⊕ Bool) :=
  if (s.seq q).state = .unregistered ∨ (s.seq q).ctx ≠ ctx then (s, .inr false)
  else if s.inFallback hub then
    match s.listPath hub ctx q l j listBad with
    | (s1, .inl e) => (s1, .inl (e, true))
    | (s1, .inr why) =>
      match s1.walkerPath hub ctx q l j leafBad why with
      | (s2, .inl e) => (s2, .inl (e, false))
      | (s2, .inr w) => (s2, .inr w)
  else
    match s.walkerPath hub ctx q l j leafBad false with
    | (s1, .inl e) => (s1, .inl (e, false))
    | (s1, .inr _) =>
      match s1.listPath hub ctx q l j listBad with
      | (s2, .inl e) => (s2, .inl (e, true))
      | (s2, .inr w) => (s2, .inr w)

/-- FALLBACK_HOLD_EXPIRY (R173): the hub leaves fall-back mode. -/
def fallbackExpiry (c : Nat) (s : State) : State :=
  if c < 8 ∧ s.inFallback c then
    (s.setBit (WALK_STATUS c) WALK_STATUS_FALLBACK false).setHub c { s.hub c with misses := 0, faults := 0 }
  else s

/-! ## Writing the Page Frame Table (R167, R269) -/

/-- The frame that a W0 write would define. -/
def Frame.written (f : Frame) (v : W64) : Frame :=
  let c := getBits v PFT_W0_CTX
  { f with ctx := c, size4k := getBits v PFT_W0_SIZE_4K, base := getBits v PFT_W0_BASE * 4096
           clearPending := f.clearPending || c != f.ctx }

/-- The conditions of R167, and the grant of R269. -/
def State.pftOk (s : State) (f : Nat) (n : Frame) : Bool :=
  (s.frame f).state == 0 && (s.frame f).refs == 0 && inDram n.base (4096 * n.size4k) &&
    s.inGrant n.ctx n.base (4096 * n.size4k) &&
    !(s.kv.frames.any fun e => e.1 != f && overlaps n.base (4096 * n.size4k) e.2.base (4096 * e.2.size4k))

/-- A refused table write (R167). -/
def State.pftRefuse (s : State) (f : Nat) : State := s.kvErr KVP_ERR_STATUS_PFT_WRITE_REFUSED 0 f

/-- PFT_W0_WRITE: the check starts, or the write is refused while another is checked. A virtual function's write is
ignored (R166). -/
def pftWrite (fn f : Nat) (v : W64) (s : State) : State :=
  if fn ≠ 0 ∨ 32768 ≤ f ∨ !(s.isOn .hcx) then s
  else match s.kv.checking with
    | some _ => s.pftRefuse f
    | none => { s with kv := { s.kv with checking := some (f, v) } }

/-- PFT_CHECK_DONE (R167). -/
def pftDone (s : State) : State :=
  match s.kv.checking with
  | none => s
  | some (f, v) =>
    let s1 := { s with kv := { s.kv with checking := none } }
    let n := (s1.frame f).written v
    if s1.pftOk f n then s1.setFrame f n else s1.pftRefuse f

end Sys2Proof.Machine
end

