-- ==== Sys2Proof/Machine/Paging.lean ====
section
/-! DEFINITION. SEQ descriptors: sequences, holds, pre-emption and swap images (KV Cache Paging, Pre-emption and Swap,
R177 to R186). -/

namespace Sys2Proof.Machine

/-! ## The descriptor (R178, R179) -/

def qOp (d : Desc) : Nat := dF d 8 1
def qSeq (d : Desc) : Nat := dF d 16 2
def qCount (d : Desc) : Nat := dF d 20 4
def qLayer (d : Desc) : Nat := dF d 24 2
def qPage (d : Desc) : Nat := dF d 26 2
def qAddr (d : Desc) : Nat := dF d 32 5
def qHost (d : Desc) : Nat := dF d 40 8
def qHostLen (d : Desc) : Nat := dF d 48 8
def qKfmt (d : Desc) : Nat := dF d 10 1
def qVfmt (d : Desc) : Nat := dF d 11 1
def qKscale (d : Desc) : Bool := dF d 9 1 / 8 % 2 == 1
def qVscale (d : Desc) : Bool := dF d 9 1 / 16 % 2 == 1

/-- Check 1: reserved bytes and bits, and the OP listed for the version. -/
def seqReservedOk (d : Desc) (version : Nat) : Bool :=
  inR 1 (if version = 1 then 7 else 8) (qOp d) && decide (dF d 9 1 < (if version = 1 then 8 else 32)) && dZero d 28 4 &&
    dZero d 37 3 && dZero d 56 8

/-- Check 2: page formats of REGISTER and REMAP. -/
def seqFormatsOk (d : Desc) (version : Nat) : Bool :=
  if qOp d = 1 ∨ qOp d = 8 then
    kvFmtOk (qKfmt d) && kvFmtOk (qVfmt d) &&
      (version != 1 || ((qKfmt d == kvE4m3 || qKfmt d == kvInt8) && (qVfmt d == kvE4m3 || qVfmt d == kvInt8)))
  else true

/-- Check 3: fields within Table 4, zero where the operation does not use them, alignments met. -/
def seqFieldsOk (d : Desc) : Bool :=
  let op := qOp d
  let reg := op == 1
  let fork := op == 3
  let remap := op == 8
  let host := reg || fork || op == 6 || op == 7
  (if reg then inR 1 128 (dF d 12 1) && inR 1 8 (dF d 13 1) && inR 1 1024 (dF d 14 2) && qSeq d == 0
   else dZero d 12 4 && decide (qSeq d < 4096)) &&
  (reg || remap || (dZero d 9 3)) && (reg || dF d 9 1 % 8 == 0) &&
  (if op = 2 then inR 1 131072 (qCount d) else qCount d == 0) &&
  (if remap then decide (qLayer d < 1024) && decide (qPage d < 512) && qAddr d % 64 == 0 else qLayer d == 0 && qPage d == 0) &&
  (remap || (if reg || fork then qAddr d % 4096 == 0 else qAddr d == 0)) &&
  (if host then qHost d % 4096 == 0 else qHost d == 0 && qHostLen d == 0)

/-- Is a sequence registered to a context? -/
def State.seqOf (s : State) (c q : Nat) : Bool := (s.seq q).state != .unregistered && (s.seq q).ctx == c

/-- The lowest UNREGISTERED sequence number. -/
def State.freeSeq (s : State) : Option Nat := (List.range 4096).find? fun q => (s.seq q).state == .unregistered

/-- Bytes of page (l, j) of a sequence, by its frame's formats. -/
def State.pageSize (s : State) (q l j : Nat) : Nat :=
  let x := s.seq q
  match tabGet? x.pages (512 * l + j) with
  | some f => pageBytes x.kvHeads x.headDim (s.frame f).kfmt (s.frame f).vfmt
  | none => 0

/-- The pages below the length, in (layer, page) order. -/
def Seq.order (x : Seq) : List (Nat × Nat) :=
  (List.range x.layers).flatMap fun l => (List.range (pagesOf x.length)).map fun j => (l, j)

/-- Sizes of the pages below the length. -/
def State.pageSizes (s : State) (q : Nat) : List Nat := (s.seq q).order.map fun p => s.pageSize q p.1 p.2

/-- Bytes of the padded page index of `n` entries (R183). -/
def indexBytes (n : Nat) : Nat := (4 * n + 63) / 64 * 64

/-- Size of the swap image of a sequence (R183). -/
def State.imageSize (s : State) (q : Nat) : Nat :=
  256 + indexBytes (s.seq q).order.length + (s.pageSizes q).sum + 64

/-- The frames that an operation needs (R180). -/
def State.seqNeeds (s : State) (d : Desc) (idx : List Byte) : List PageReq :=
  let q := qSeq d
  let x := s.seq q
  match qOp d with
  | 2 =>
    (List.range x.layers).flatMap fun l => ((List.range (pagesOf (x.length + qCount d))).filter fun j =>
      (tabGet? x.pages (512 * l + j)).isNone).map fun j =>
        ⟨l, j, pageBytes x.kvHeads x.headDim x.kfmt x.vfmt, x.kfmt, x.vfmt, x.flags.getLsbD 3, x.flags.getLsbD 4⟩
  | 3 =>
    if x.length % 256 = 0 then []
    else (List.range x.layers).map fun l =>
      let e := s.frame (tabGetD x.pages (512 * l + x.length / 256) 0)
      ⟨l, x.length / 256, pageBytes x.kvHeads x.headDim e.kfmt e.vfmt, e.kfmt, e.vfmt, e.kscale, e.vscale⟩
  | 7 =>
    (List.range (x.layers * x.swapPages)).map fun i =>
      let w := leNat ((idx.drop (4 * i)).take 4)
      ⟨i / x.swapPages, i % x.swapPages, pageBytes x.kvHeads x.headDim (w % 256) (w / 256 % 256), w % 256, w / 256 % 256,
        w / 65536 % 2 == 1, w / 131072 % 2 == 1⟩
  | 8 => [⟨qLayer d, qPage d, pageBytes x.kvHeads x.headDim (qKfmt d) (qVfmt d), qKfmt d, qVfmt d, qKscale d, qVscale d⟩]
  | _ => []

/-- The page sizes that check 9 counts: those kept at the swap-out for a SWAP_IN (R184). -/
def State.seqSizes (s : State) (d : Desc) : List Nat :=
  if qOp d = 7 then ((s.seq (qSeq d)).pageSizes.flatMap fun e => List.replicate e.2 e.1)
  else (s.seqNeeds d []).map (·.bytes)

/-- The ADDR region of check 7: its length, 0 where the operation has none. -/
def State.seqRegion (s : State) (d : Desc) : Nat :=
  match qOp d with
  | 1 => dF d 14 2 * 4096
  | 3 => (s.seq (qSeq d)).layers * 4096
  | 8 => pageBytes (s.seq (qSeq d)).kvHeads (s.seq (qSeq d)).headDim (qKfmt d) (qVfmt d)
  | _ => 0

/-- Check 7 with the grant and the protected regions (R17, R269, R270); a table region is written. -/
def State.seqRegionOk (s : State) (c : Nat) (d : Desc) : Bool :=
  if qOp d = 8 then s.dramOk c (qAddr d) (s.seqRegion d)
  else if qOp d = 1 ∨ qOp d = 3 then s.dramOkW c (qAddr d) (s.seqRegion d) else true

/-- Checks 4 to 9 (Table 5), which the start of the operation makes again (R181). -/
def State.seqLate (s : State) (c : Nat) (d : Desc) : List (Bool × Nat) :=
  let q := qSeq d
  let x := s.seq q
  let op := qOp d
  [ ((op == 1 || s.seqOf c q) && (!(op == 1 || op == 3) || s.freeSeq.isSome), stAccessDenied),
    (op == 1 || op == 4 || op == 7 || x.state == .active, stPreempted),
    (op != 7 || x.state == .swapped, stBadDescriptor),
    (op != 2 || decide (x.length + qCount d ≤ 131072), stLengthLimit),
    (s.seqRegionOk c d, stAccessDenied),
    ((op != 8 || (decide (qLayer d < x.layers) && decide (qPage d < pagesOf x.length) &&
        (s.frame (tabGetD x.pages (512 * qLayer d + qPage d) 0)).refs == 1)) &&
      (op != 5 || (x.swapAddr != 0 && decide (s.imageSize q ≤ x.swapLen))) && (op != 6 || decide (s.imageSize q ≤ qHostLen d)),
      stBadDescriptor),
    (s.couldHold c (s.seqSizes d), stLengthLimit) ]

/-- Checks 1 to 9 (Table 5). -/
def State.seqChecks (s : State) (c : Nat) (f : Fetched) : List (Bool × Nat) :=
  let v := dF f.desc 2 2
  [ (seqReservedOk f.desc v, stBadDescriptor), (seqFormatsOk f.desc v, stFormatUnsupported),
    (seqFieldsOk f.desc, stBadDescriptor) ] ++ s.seqLate c f.desc

/-! ## Completions (R186) -/

/-- Class words of a SEQ completion. -/
def seqWords (q frames len preempts first bytes : Nat) : Nat :=
  q % 65536 + 2 ^ 16 * (frames % 65536) + 2 ^ 32 * len + 2 ^ 64 * min 255 preempts + 2 ^ 80 * (first % 65536) +
    2 ^ 96 * (bytes % 2 ^ 40)

/-- Complete a SEQ operation. -/
def State.seqDone (s : State) (w : Work) (x : SeqWork) (status q frames : Nat) : State :=
  s.complete w status 0 (seqWords q frames (s.seq q).length x.preempts x.firstVictim x.swapBytes)

/-- Replace a SEQ operation's part of its work. -/
def State.setSeqw (s : State) (w : Work) (x : SeqWork) : State := s.setWork { w with seqw := some x }

/-! ## Swap images (R183, R184) -/

/-- The swap key of a context. -/
def State.swapKey (s : State) (c : Nat) : List Byte :=
  shakeBytes (leBytes 32 Config.deviceSecret.toNat ++ strBytes "KQM-SWAP" ++ leBytes 1 c ++ leBytes 32 (s.slotNonce c).toNat) 32

/-- The key of an image: the SHAKE256 derivation of the swap key with the NONCE. -/
def State.imageKey (s : State) (c : Nat) (nonce : List Byte) : BitVec 256 :=
  BitVec.ofNat 256 (leNat (shakeBytes (s.swapKey c ++ nonce) 32))

/-- 96 zero bits. -/
def imageIv : List Byte := List.replicate 12 0

/-- Pad with zero bytes to a multiple of 64. -/
def pad64 (b : List Byte) : List Byte := b ++ List.replicate ((64 - b.length % 64) % 64) 0

/-- An index entry (R183). -/
def indexEntry (f : Frame) : List Byte :=
  leBytes 4 (f.kfmt + 256 * f.vfmt + (if f.kscale then 65536 else 0) + (if f.vscale then 131072 else 0))

/-- The page index of a sequence, padded. -/
def State.pageIndex (s : State) (q : Nat) : List Byte :=
  pad64 ((s.seq q).order.flatMap fun p => indexEntry (s.frame (tabGetD (s.seq q).pages (512 * p.1 + p.2) 0)))

/-- The pages of a sequence, each as its N bytes. -/
def State.pagesPlain (s : State) (q : Nat) : List Byte :=
  (s.seq q).order.flatMap fun p =>
    s.dramRead (s.seq q).ctx (s.frame (tabGetD (s.seq q).pages (512 * p.1 + p.2) 0)).base (s.pageSize q p.1 p.2)

/-- The image header (Table 8). -/
def State.imageHead (s : State) (q : Nat) (nonce : List Byte) : List Byte :=
  let x := s.seq q
  leBytes 4 0x5753514B ++ leBytes 2 1 ++ leBytes 2 q ++ leBytes 1 x.ctx ++ leBytes 1 x.flags.toNat ++ leBytes 2 x.layers ++
    leBytes 1 x.kvHeads ++ leBytes 1 (x.headDim / 32) ++ leBytes 1 x.kfmt ++ leBytes 1 x.vfmt ++ leBytes 4 x.length ++
    leBytes 4 (pagesOf x.length) ++ leBytes 4 x.swapSerial ++ leBytes 4 0 ++ leBytes 8 (s.imageSize q) ++
    leBytes 8 Config.serial.toNat ++ nonce ++ List.replicate 176 0

/-- The whole image of a sequence under a NONCE. -/
def State.image (s : State) (q : Nat) (nonce : List Byte) : List Byte :=
  let h := s.imageHead q nonce
  let key := s.imageKey (s.seq q).ctx nonce
  let ct := Config.gcmEncrypt key imageIv (s.pageIndex q ++ s.pagesPlain q)
  h ++ ct ++ leBytes 16 (Config.gcmTag key imageIv h ct).toNat ++ List.replicate 48 0

/-- Pages of each size, as pairs (size, count). -/
def countSizes (ns : List Nat) : List (Nat × Nat) := ns.eraseDups.map fun n => (n, (ns.filter (· == n)).length)

/-- Steps 1 to 3 of a swap-out (Table 7): SWAPPING_OUT, the serial, and the shootdown once HOLDS is 0. -/
def State.swapBegin (s : State) (q : Nat) : State :=
  let x := s.seq q
  s.setSeq q { x with state := .swappingOut, swapSerial := x.swapSerial + 1 }

/-- A swap-out is given up before step 5 (R184). -/
def State.swapUndo (s : State) (q : Nat) : State :=
  let x := s.seq q
  if x.state = .swappingOut then s.setSeq q { x with state := .active, swapSerial := x.swapSerial - 1 } else s

/-- Steps 4 to 6 of a swap-out: the image goes to the host, the mappings go, and the sequence is SWAPPED. -/
def State.swapFinish (s : State) (r q addr nonce : Nat) : State :=
  let x := s.seq q
  let nb := leBytes 32 (Config.draw nonce).toNat
  let dg := Config.shake256 (s.pageIndex q)
  let sizes := countSizes (s.pageSizes q)
  let pgs := pagesOf x.length
  let size := s.imageSize q
  let s0 := x.order.foldl (fun t p => t.touch x.ctx (s.frame (tabGetD x.pages (512 * p.1 + p.2) 0)).base
    (s.pageSize q p.1 p.2) false) s
  let s1 := s0.hostWrite (s0.servingFn r) addr (s.image q nb)
  let s2 := (s1.addSat KVP_SWAP_OUT_BYTES KVP_SWAP_OUT_BYTES_BYTES size).unmapAll q true
  s2.setSeq q { s2.seq q with state := .swapped, indexDigest := dg, pageSizes := sizes, swapPages := pgs }

/-! ## Victims (R182) -/

/-- May the sequence be pre-empted for an operation of context `c` that names `named`? -/
def State.eligible (s : State) (c named q : Nat) : Bool :=
  let x := s.seq q
  x.state == .active && x.ctx == c && x.holds == 0 && q != named && !(s.seqBusy q) && decide (x.prio < 7) &&
    x.swapAddr != 0 && decide (s.imageSize q ≤ x.swapLen)

/-- Is `a` chosen before `b`? -/
def victimBefore (a b : Nat × Seq) : Bool :=
  decide (a.2.prio < b.2.prio) || (a.2.prio == b.2.prio && (decide (a.2.idleSince < b.2.idleSince) ||
    (a.2.idleSince == b.2.idleSince && decide (a.1 < b.1))))

/-- The victim that R182 chooses. -/
def State.victim? (s : State) (c named : Nat) : Option Nat :=
  ((s.kv.seqs.filter fun e => s.eligible c named e.1).foldl (fun b e =>
    match b with
    | some v => if victimBefore e v then some e else some v
    | none => some e) (none : Option (Nat × Seq))).map (·.1)

/-! ## The ends of the operations (R180, R185) -/

/-- FILLING frames of a list are freed. -/
def State.freeAll (s : State) (fs : List Nat) : State := s.each fs fun t f => t.decRef f

/-- EXTEND with its frames. -/
def State.endExtend (s : State) (w : Work) (x : SeqWork) (fs : List (PageReq × Nat)) : State :=
  let s1 := fs.foldl (fun t p => t.mapPage x.seqId p.1.layer p.1.page p.2) s
  let s2 := s1.setSeq x.seqId { s1.seq x.seqId with length := (s1.seq x.seqId).length + qCount w.desc }
  s2.seqDone w x stDone x.seqId fs.length

/-- A sequence number takes a registration: its table region is written as zero (R169, R180). -/
def State.newSeq (s : State) (q : Nat) (x : Seq) : State :=
  let s1 := s.dramWrite x.ctx x.table (List.replicate (x.layers * 4096) 0)
  s1.setSeq q { x with state := .active, regNo := (s1.seq q).regNo + 1, holds := 0, swapSerial := 0, pages := [],
                       idleSince := s1.now }

/-- FORK with the frames of its partial last pages. -/
def State.endFork (s : State) (w : Work) (x : SeqWork) (fs : List (PageReq × Nat)) : State :=
  let p := s.seq x.seqId
  match s.freeSeq with
  | none => (s.freeAll (fs.map (·.2))).seqDone w x stAccessDenied x.seqId 0
  | some q =>
    let s1 := s.newSeq q { p with table := qAddr w.desc, swapAddr := BitVec.ofNat 64 (qHost w.desc), swapLen := qHostLen w.desc }
    let shared := p.pages.filter fun e => decide (e.1 % 512 < p.length / 256)
    let s2 := shared.foldl (fun t e =>
      (t.setFrame e.2 { t.frame e.2 with refs := (t.frame e.2).refs + 1 }).mapPage q (e.1 / 512) (e.1 % 512) e.2) s1
    let s3 := fs.foldl (fun t e =>
      let src := (t.frame (tabGetD p.pages (512 * e.1.layer + e.1.page) 0)).base
      ((t.touch p.ctx src e.1.bytes false).dramWrite p.ctx (t.frame e.2).base (t.dramRead p.ctx src e.1.bytes)).mapPage q
        e.1.layer e.1.page e.2) s2
    s3.seqDone w x stDone q fs.length

/-- REMAP with its new frame: the copy, then the replacement under R174. -/
def State.endRemap (s : State) (w : Work) (x : SeqWork) (fs : List (PageReq × Nat)) : State :=
  match fs with
  | [(p, f)] =>
    let q := s.seq x.seqId
    let old := tabGetD q.pages (512 * p.layer + p.page) 0
    let s1 := (s.touch q.ctx (qAddr w.desc) p.bytes false).dramWrite q.ctx (s.frame f).base
      (s.dramRead q.ctx (qAddr w.desc) p.bytes)
    let e := pageEntry (s1.frame f).gen f
    let s2 := s1.setFrame f { s1.frame f with state := 1 }
    let s3 := (s2.dramWrite q.ctx (leafAt q.table p.layer p.page) e).dramWrite q.ctx
      (listAt q.table q.layers p.layer p.page) e
    let s4 := s3.setSeq x.seqId { s3.seq x.seqId with pages := tabSet q.pages (512 * p.layer + p.page) f }
    ((s4.shootdown q.ctx x.seqId).decRef old).seqDone w x stDone x.seqId 1
  | _ => s

/-- A SWAP_IN is refused: SWAPPED again, IMAGE_REJECTED, ACCESS_DENIED; `n` bytes of the image were read. -/
def State.rejectImage (s : State) (w : Work) (x : SeqWork) (n : Nat) : State :=
  let q := s.seq x.seqId
  let s1 := (s.setSeq x.seqId { q with state := .swapped }).addSat KVP_SWAP_IN_BYTES KVP_SWAP_IN_BYTES_BYTES n
  (s1.kvErr KVP_ERR_STATUS_IMAGE_REJECTED x.seqId 0).seqDone w { x with swapBytes := x.swapBytes + n } stAccessDenied x.seqId 0

/-- A host read for a descriptor completed with an error (R251): HOST_READ_ERR, and the status. -/
def hostErrStatus : HostErr → Nat
  | .ur => stAccessDenied
  | .ca => stAccessDenied
  | .ep => stMemoryUncorrectable
  | .cto => stTimeout

/-- A failed host read of a ring's work is reported (R251). -/
def State.noteHostErr (s : State) (r : Nat) (e : HostErr) : State :=
  ((s.hifErr HIF_ERR_STATUS_HOST_READ_ERR (s.servingFn r)).noteAer (s.servingFn r) e).sampleHostRead (s.servingFn r)

/-- Pages written into their frames, in order. -/
def State.fillFrames (s : State) (c : Nat) : List (PageReq × Nat) → List Byte → State
  | [], _ => s
  | e :: es, bs => (s.dramWrite c (s.frame e.2).base (bs.take e.1.bytes)).fillFrames c es (bs.drop e.1.bytes)

/-- SWAP_IN with its frames (steps 5 to 8 of R185): the pages are read and the tag is checked over the whole image; only
then are the pages mapped. -/
def State.endSwapIn (s : State) (w : Work) (x : SeqWork) (fs : List (PageReq × Nat)) (image : HostRd) : State :=
  let frames := fs.map (·.2)
  let q := s.seq x.seqId
  match image with
  | .error e =>
    let s1 := (s.freeAll frames).setSeq x.seqId { q with state := .swapped }
    ((s1.hostAsk (s.servingFn w.ring) (qHost w.desc) (x.head.length + (fs.map fun e => e.1.bytes).sum + 64)).noteHostErr w.ring e).seqDone w x (hostErrStatus e) x.seqId 0
  | .data b =>
    let n := (fs.map fun e => e.1.bytes).sum
    let idxLen := x.head.length - 256
    let ct := x.head.drop 256 ++ (b.drop x.head.length).take n
    let tag := (b.drop (x.head.length + n)).take 16
    let key := s.imageKey q.ctx ((x.head.drop 48).take 32)
    let size := x.head.length + n + 64
    let s0 := s.hostReceived (s.servingFn w.ring) (qHost w.desc) size
    let s1 := s0.fillFrames q.ctx fs ((Config.gcmDecrypt key imageIv ct).drop idxLen)
    if leNat tag = (Config.gcmTag key imageIv (x.head.take 256) ct).toNat then
      let s2 := fs.foldl (fun t e => t.mapPage x.seqId e.1.layer e.1.page e.2) s1
      let s3 := s2.setSeq x.seqId { s2.seq x.seqId with
        state := .active, length := leNat ((x.head.drop 16).take 4), idleSince := s2.now }
      (s3.addSat KVP_SWAP_IN_BYTES KVP_SWAP_IN_BYTES_BYTES size).seqDone w
        { x with swapBytes := x.swapBytes + size } stDone x.seqId fs.length
    else (s1.freeAll frames).rejectImage w x size

/-- Do the writes of an operation meet the object of a running kernel (R58)? -/
def State.seqWritesBusy (s : State) (w : Work) (x : SeqWork) (fs : List (PageReq × Nat)) : Bool :=
  s.objectBusy (s.seq x.seqId).table ((s.seq x.seqId).layers * 4096) ||
  (qOp w.desc == 3 && s.objectBusy (qAddr w.desc) ((s.seq x.seqId).layers * 4096)) ||
  fs.any fun e => s.objectBusy (s.frame e.2).base e.1.bytes

/-- The pages of DRAM that an operation copies into its frames. -/
def State.seqReads (s : State) (w : Work) (x : SeqWork) (fs : List (PageReq × Nat)) : List (Nat × Nat) :=
  if qOp w.desc = 3 then
    fs.map fun e => ((s.frame (tabGetD (s.seq x.seqId).pages (512 * e.1.layer + e.1.page) 0)).base, e.1.bytes)
  else if qOp w.desc = 8 then fs.map fun e => (qAddr w.desc, e.1.bytes) else []

/-- An operation that has its frames gives them up and fails. -/
def State.failFrames (s : State) (w : Work) (x : SeqWork) (fs : List (PageReq × Nat)) (status : Nat) : State :=
  let s1 := s.freeAll (fs.map (·.2))
  (if qOp w.desc = 7 then s1.setSeq x.seqId { s1.seq x.seqId with state := .swapped } else s1).seqDone w x status x.seqId 0

/-- The end of an operation that has its frames. A write that R58 refuses fails it, and so does an uncorrectable read
(R259). -/
def State.endFrames (s : State) (w : Work) (x : SeqWork) (fs : List (PageReq × Nat)) (image : HostRd) : State :=
  match s.readFails w.ctx (s.seqReads w x fs) with
  | some t => t.failFrames w x fs stMemoryUncorrectable
  | none =>
  if s.seqWritesBusy w x fs then s.failFrames w x fs stAccessDenied
  else match qOp w.desc with
  | 2 => s.endExtend w x fs
  | 3 => s.endFork w x fs
  | 7 => s.endSwapIn w x fs image
  | _ => s.endRemap w x fs

/-- An operation takes its frames, or pre-empts a sequence, or waits (R168, R182). Without a working random source no
image can be made (R274). -/
def State.seekFrames (s : State) (w : Work) (x : SeqWork) (image : HostRd) : State :=
  let needs := s.seqNeeds w.desc x.index
  match s.allocAll w.ctx (if qOp w.desc = 2 then 1 else 2) needs with
  | some (s1, fs) => s1.endFrames w x fs image
  | none =>
    match s.victim? w.ctx x.seqId with
    | none =>
      -- each wait is timed from its own beginning
      s.setSeqw { w with startAt := if x.phase = .waitFrames then w.startAt else s.now } { x with
        phase := .waitFrames, victim := none }
    | some v =>
      if s.rngOk then
        let s1 := (s.swapBegin v).shootdown w.ctx v
        (s1.takeDraws 1).setSeqw w { x with phase := .flushing, victim := some v, nonce := s1.nv.draws }
      else
        let s1 := if qOp w.desc = 7 then s.setSeq x.seqId { s.seq x.seqId with state := .swapped } else s
        (s1.secErr SEC_ERR_STATUS_RNG_FAIL w.ctx).seqDone w x stAccessDenied x.seqId 0

/-! ## Starts (R181) -/

/-- Has every SEQ operation, ACCEPT and hold admitted before this one on its sequence ended, and is the sequence no victim of a
swap-out under way (R184)? -/
def State.startable (s : State) (w : Work) (x : SeqWork) : Bool :=
  !(s.hif.works.any fun v => match v.seqw with
    | some y => y.victim == some x.seqId
    | none => false) &&
  !(s.hif.works.any fun v => decide (v.age < w.age) && ((match v.seqw with
    | some y => y.seqId == x.seqId
    | none => false) || v.holds.contains (x.seqId, x.regNo)))

/-- Every earlier SEQ operation and ACCEPT on the sequence has completed: a swap-out then enters SWAPPING_OUT and waits
for the holds (step 1 of Table 7). -/
def State.firstInLine (s : State) (w : Work) (x : SeqWork) : Bool :=
  !(s.hif.works.any fun v => decide (v.age < w.age) && (match v.seqw with
    | some y => y.seqId == x.seqId
    | none => false))

/-- Step 3 of a swap-out of its own, when HOLDS is 0. -/
def State.swapFlush (s : State) (w : Work) (x : SeqWork) : State :=
  if (s.seq x.seqId).holds = 0 then
    let s1 := s.shootdown w.ctx x.seqId
    (s1.takeDraws 1).setSeqw w { x with phase := .flushing, nonce := s1.nv.draws }
  else s.setSeqw w { x with phase := .waitHolds }

/-- Steps 1 and 2 of R185: header and page index are read and checked. -/
def State.startSwapIn (s : State) (w : Work) (x : SeqWork) (image : HostRd) : State :=
  let q := s.seq x.seqId
  match image with
  | .error e => ((s.hostAsk (s.servingFn w.ring) (qHost w.desc) 256).noteHostErr w.ring e).seqDone w x (hostErrStatus e) x.seqId 0
  | .data b =>
    let h := b.take 256
    let f := fun i n => leNat ((h.drop i).take n)
    if h.length = 256 ∧ f 0 4 = 0x5753514B ∧ f 4 2 = 1 ∧ f 6 2 = x.seqId ∧ f 8 1 = q.ctx ∧ f 40 8 = Config.serial.toNat ∧
        f 10 2 = q.layers ∧ f 12 1 = q.kvHeads ∧ f 13 1 = q.headDim / 32 ∧ f 24 4 = q.swapSerial ∧ f 32 8 ≤ qHostLen w.desc then
      let n := indexBytes (q.layers * f 20 4)
      let head := b.take (256 + n)
      let idx := Config.gcmDecrypt (s.imageKey q.ctx ((h.drop 48).take 32)) imageIv (head.drop 256)
      if Config.shake256 idx = q.indexDigest then
        let s1 := s.setSeq x.seqId { q with state := .swappingIn }
        s1.seekFrames w { x with head := head, index := idx } image
      else (s.hostReceived (s.servingFn w.ring) (qHost w.desc) (256 + n)).rejectImage w x (256 + n)
    else (s.hostReceived (s.servingFn w.ring) (qHost w.desc) 256).rejectImage w x 256

/-- RELEASE (R180): UNREGISTERED, every attached frame REFS − 1. -/
def State.endRelease (s : State) (w : Work) (x : SeqWork) : State :=
  let n := s.soleFrames x.seqId
  let len := (s.seq x.seqId).length
  let s1 := s.unmapAll x.seqId false
  let s2 := s1.setSeq x.seqId { regNo := (s1.seq x.seqId).regNo }
  s2.complete w stDone 0 (seqWords x.seqId n len 0 0 0)

/-- The start of an operation that passed its checks again. -/
def State.startOp (s : State) (w : Work) (x : SeqWork) (image : HostRd) : State :=
  match qOp w.desc with
  | 4 => s.endRelease w x
  | 7 => s.startSwapIn w x image
  | _ => s.seekFrames w x image

/-- The registration bound at admission has ended (R181). -/
def State.unbound (s : State) (x : SeqWork) : Bool :=
  (s.seq x.seqId).regNo != x.regNo || (s.seq x.seqId).state == .unregistered

/-- Start an admitted SEQ operation if it is its turn: checks 4 to 9 again, then the operation (R181). A swap-out enters
SWAPPING_OUT before it waits for the holds (R177, R184). -/
def State.seqStart (s : State) (w : Work) (x : SeqWork) (image : HostRd) : State :=
  let swapOut := qOp w.desc == 5 || qOp w.desc == 6
  if x.phase ≠ .waitStart then s
  else if !(if swapOut then s.firstInLine w x else s.startable w x) then s
  else if s.unbound x then s.seqDone w x stAccessDenied x.seqId 0
  else match firstFail (s.seqLate w.ctx w.desc) with
    | some st => s.seqDone w x st x.seqId 0
    | none =>
      if (swapOut || qOp w.desc == 4) && s.seqWritesBusy w x [] then s.seqDone w x stAccessDenied x.seqId 0
      else if swapOut then
        if s.rngOk then (s.swapBegin x.seqId).swapFlush w x
        else (s.secErr SEC_ERR_STATUS_RNG_FAIL w.ctx).seqDone w x stAccessDenied x.seqId 0
      else s.startOp w x image

/-! ## Commands -/

/-- Admit a SEQ descriptor that names a sequence, and start it if it is its turn. -/
def State.seqAdmit (s : State) (r : Nat) (f : Fetched) (image : HostRd) : State :=
  let q := qSeq f.desc
  let x : SeqWork := { seqId := q, regNo := (s.seq q).regNo }
  let s1 := ((s.popHead r).addWork { mkWork r f (qOp f.desc) .waiting with seqw := some x }).settle
  match s1.work? r f.seq with
  | some w => s1.seqStart w x image
  | none => s1

/-- REGISTER: takes the lowest UNREGISTERED number, ACTIVE with length 0 (R180). -/
def State.seqRegister (s : State) (c r : Nat) (f : Fetched) : State :=
  let d := f.desc
  match s.freeSeq with
  | none => s.reject r f stAccessDenied
  | some q =>
    if s.objectBusy (qAddr d) (dF d 14 2 * 4096) then s.reject r f stAccessDenied else
    let x : Seq := { ctx := c, prio := dF d 9 1 % 8, flags := BitVec.ofNat 8 (dF d 9 1), kfmt := qKfmt d, vfmt := qVfmt d,
                     kvHeads := dF d 12 1, headDim := 32 * dF d 13 1, layers := dF d 14 2, table := qAddr d,
                     swapAddr := BitVec.ofNat 64 (qHost d), swapLen := qHostLen d }
    (s.newSeq q x).finishNow r f stDone 0 (seqWords q 0 0 0 0 0)

/-- A SEQ descriptor of one operation: Table 5 in order, then its admission (R179). -/
def seqCmd (r op : Nat) (image : HostRd) (s : State) : State :=
  s.withHead r clSeq op fun f =>
    match ringCtx r with
    | none => s
    | some c =>
      match firstFail (s.seqChecks c f) with
      | some st =>
        let prot := st == stAccessDenied && (firstFail ((s.seqChecks c f).take 7)).isNone
        (if prot then (if op = 8 then s.noteProt c (qAddr f.desc) (s.seqRegion f.desc)
          else s.noteProtW c (qAddr f.desc) (s.seqRegion f.desc)) else s).reject r f st
      | none => if op = 1 then s.seqRegister c r f else s.seqAdmit r f image

/-- SEQ_FRAME_TIMEOUT (R182): an operation that has waited for frames for TIMEOUT_MS ends, and changes nothing. -/
def seqTimeout (r seq : Nat) (s : State) : State :=
  match s.work? r seq with
  | some w =>
    match w.seqw with
    | some x =>
      if x.phase = .waitFrames ∧ w.late s.now (dF w.desc 18 2) then
        let s1 := if qOp w.desc = 7 then s.setSeq x.seqId { s.seq x.seqId with state := .swapped } else s
        (s1.kvErr KVP_ERR_STATUS_NO_VICTIM x.seqId 0).seqDone w x stTimeout x.seqId 0
      else s
    | none => s
  | none => s

/-- An operation that waits for frames chooses again (R182). -/
def State.chooseAgain (s : State) (image : HostRd) (id : Nat × Nat) : State :=
  match s.work? id.1 id.2 with
  | some w =>
    match w.seqw with
    | some x => if x.phase = .waitFrames then s.seekFrames w x image else s
    | none => s
  | none => s

/-- HOLD_END (R177, R182): swap-outs that wait for the sequence's holds go on, and every operation of the context that waits
for frames chooses again, oldest first. -/
def holdEnd (q : Nat) (image : HostRd) (s : State) : State :=
  let c := (s.seq q).ctx
  let s1 := s.hif.works.foldl (fun t w =>
    match w.seqw with
    | some x => if x.seqId = q ∧ x.phase = .waitHolds then t.swapFlush w x else t
    | none => t) s
  ((s1.hif.works.filter fun w => w.cls == clSeq && w.ctx == c).map fun w => (w.ring, w.seq)).foldl
    (fun t id => t.chooseAgain image id) s1

/-- A SEQ operation stops before its last point of abort (R184 to R186): a swap-out under way is given up, and the sequence of
a SWAP_IN is SWAPPED again. -/
def State.stopSeq (s : State) (w : Work) (x : SeqWork) (status : Nat) : State :=
  let s1 := match x.victim with
    | some v => s.swapUndo v
    | none => if x.phase = SeqPhase.flushing ∨ x.phase = SeqPhase.waitHolds then s.swapUndo x.seqId else s
  let s2 := if (s1.seq x.seqId).state = .swappingIn then s1.setSeq x.seqId { s1.seq x.seqId with state := .swapped } else s1
  s2.seqDone w x status x.seqId 0

/-- The pages that a swap-out of a sequence reads. -/
def State.swapReads (s : State) (q : Nat) : List (Nat × Nat) :=
  (s.seq q).order.map fun p => ((s.frame (tabGetD (s.seq q).pages (512 * p.1 + p.2) 0)).base, s.pageSize q p.1 p.2)

/-- The image of an operation's victim is in host memory: the victim is SWAPPED, and the operation chooses on (R182). A
victim whose registration has ended since leaves nothing to swap. -/
def State.victimOut (s : State) (w : Work) (x : SeqWork) (v : Nat) (image : HostRd) : State :=
  let y := { x with victim := none }
  if (s.seq v).state ≠ .swappingOut then s.seekFrames w y image
  else
    let n := s.soleFrames v
    let size := s.imageSize v
    let s1 := s.swapFinish w.ring v (s.seq v).swapAddr.toNat x.nonce
    let s2 := ((s1.addSat KVP_PREEMPT_COUNT KVP_PREEMPT_COUNT_COUNT 1).setFld KVP_LAST_PREEMPT KVP_LAST_PREEMPT_VICTIM
      v).setFld KVP_LAST_PREEMPT KVP_LAST_PREEMPT_FRAMES_FREED n
    s2.seekFrames w { y with
      preempts := x.preempts + 1, swapBytes := x.swapBytes + size, firstVictim := if x.preempts = 0 then v else x.firstVictim } image

/-- SWAP_IMAGE_FLUSHED (R184): the image of the operation's victim, or of its own sequence, is in host memory. An
uncorrectable page stops the operation (R259). -/
def imageFlushed (r seq : Nat) (image : HostRd) (s : State) : State :=
  match s.work? r seq with
  | some w =>
    match w.seqw with
    | some x =>
      if x.phase ≠ .flushing then s
      else match s.readFails w.ctx (s.swapReads (x.victim.getD x.seqId)), x.victim with
        | some t, _ => t.stopSeq w x stMemoryUncorrectable
        | none, some v => s.victimOut w x v image
        | none, none =>
          let n := s.soleFrames x.seqId
          let size := s.imageSize x.seqId
          let addr := if qOp w.desc = 5 then (s.seq x.seqId).swapAddr.toNat else qHost w.desc
          (s.swapFinish r x.seqId addr x.nonce).seqDone w { x with swapBytes := size } stDone x.seqId n
    | none => s
  | none => s

/-- May a SEQ operation still be aborted (Table 6)? A RELEASE has passed its last point at admission. -/
def seqAbortable (w : Work) : Bool := qOp w.desc != 4

end Sys2Proof.Machine
end

