-- ==== Sys2Proof/Machine/SetOps.lean ====
section
/-! DEFINITION. Set Engine operations on lists of pairs and values (Pointing Engines, Graphs and Set Operators, R105 to
R110). -/

namespace Sys2Proof.Machine

/-- A pair: key and payload (R105). -/
abbrev Pair := W32 × W32

/-- Is a key a NaN of its type? -/
def keyNan (kt : Nat) (k : W32) : Bool := kt == 2 && isNanF32 k

/-- The place of a key that is no NaN in ascending order (R105): −0 below +0, subnormals by value. -/
def keyRank (kt : Nat) (k : W32) : Int :=
  if kt = 0 then k.toNat
  else if kt = 1 then k.toInt
  else if k.toNat < 2 ^ 31 then k.toNat
  else -((k.toNat - 2 ^ 31 : Nat) : Int) - 1

/-- Strictly before, in the order of R105: NaN keys after all others in both directions. -/
def keyBefore (kt : Nat) (desc : Bool) (a b : W32) : Bool :=
  if keyNan kt a then false
  else if keyNan kt b then true
  else if desc then decide (keyRank kt b < keyRank kt a) else decide (keyRank kt a < keyRank kt b)

/-- Put a pair before the first one that is not before it. -/
def insertPair (kt : Nat) (desc : Bool) (p : Pair) : List Pair → List Pair
  | [] => [p]
  | q :: qs => if keyBefore kt desc q.1 p.1 then q :: insertPair kt desc p qs else p :: q :: qs

/-- The stable sort of R106. -/
def sortPairs (kt : Nat) (desc : Bool) (ps : List Pair) : List Pair := ps.foldr (insertPair kt desc) []

/-- Is a pair kept by the threshold of R108? -/
def threshKeeps (kt : Nat) (desc : Bool) (thresh : W32) (p : Pair) : Bool :=
  !(keyNan kt p.1) && !(keyBefore kt desc thresh p.1)

/-- Is a list in the order of R105? -/
def inOrder (kt : Nat) (desc : Bool) : List Pair → Bool
  | p :: q :: ps => !(keyBefore kt desc q.1 p.1) && inOrder kt desc (q :: ps)
  | _ => true

/-- The emit of R107: output newest first. -/
def emitPair (kt : Nat) (unique : Bool) (p : Pair) (out : List Pair) : List Pair :=
  match out with
  | q :: _ => if unique && !(keyNan kt p.1) && !(keyNan kt q.1) && keyRank kt p.1 == keyRank kt q.1 then out else p :: out
  | [] => [p]

/-- The procedure of R107; `n` is at least the length of both inputs together. -/
def mergePairs (kt : Nat) (desc unique isMerge : Bool) : Nat → List Pair → List Pair → List Pair → List Pair
  | 0, _, _, out => out
  | n + 1, a, b, out =>
    match a, b with
    | [], [] => out
    | x :: xs, [] => if isMerge then mergePairs kt desc unique isMerge n xs [] (emitPair kt unique x out) else out
    | [], y :: ys => if isMerge then mergePairs kt desc unique isMerge n [] ys (emitPair kt unique y out) else out
    | x :: xs, y :: ys =>
      if keyBefore kt desc y.1 x.1 then
        mergePairs kt desc unique isMerge n (x :: xs) ys (if isMerge then emitPair kt unique y out else out)
      else if keyBefore kt desc x.1 y.1 || keyNan kt x.1 then
        mergePairs kt desc unique isMerge n xs (y :: ys) (if isMerge then emitPair kt unique x out else out)
      else
        mergePairs kt desc unique isMerge n xs (if isMerge then y :: ys else ys) (emitPair kt unique x out)

/-- Merge or intersect two lists (R107). -/
def mergeOf (kt : Nat) (desc unique isMerge : Bool) (a b : List Pair) : List Pair :=
  (mergePairs kt desc unique isMerge (a.length + b.length) a b []).reverse

/-! ## Segmented reduction (R109) -/

/-- The sum of FP32 values in ascending index order, each addition rounded. -/
def sumF32 : List W32 → Num
  | [] => .zero
  | v :: vs => vs.foldl (fun acc w => (vAdd acc (decodeF32 w)).1) (decodeF32 v)

/-- The saturating INT32 sum. -/
def sumI32 (vs : List W32) : Int := vs.foldl (fun acc w => (clampInt32 (acc + w.toInt)).1) 0

/-- One segment's result. -/
def segResult (fp : Bool) (redOp : Nat) (vs : List W32) : W32 :=
  if redOp = 3 then BitVec.ofNat 32 vs.length
  else if fp then
    encodeF32 (if redOp = 0 then sumF32 vs
      else if redOp = 1 then vs.foldl (fun m w => vMax m (decodeF32 w)) (.inf true)
      else vs.foldl (fun m w => vMin m (decodeF32 w)) (.inf false))
  else
    BitVec.ofInt 32 (if redOp = 0 then sumI32 vs
      else if redOp = 1 then vs.foldl (fun m w => max m w.toInt) (-2147483648)
      else vs.foldl (fun m w => min m w.toInt) 2147483647)

/-- The segments' bounds from the offsets: clipped to n, empty where an offset falls below its predecessor. -/
def segBounds (n : Nat) : List Nat → List (Nat × Nat)
  | a :: b :: os => (min a n, min b n) :: segBounds n (b :: os)
  | _ => []

/-! ## One operation -/

/-- What one operation returns. -/
structure SetOut where
  bytes : List Byte
  count : Nat
  dropped : Nat
  nans : Nat
  elements : Nat
  /-- bits [3:0] of SET_FLAGS -/
  flags : Nat
  cycles : Nat
  deriving DecidableEq, Repr

/-- Pairs in packed bytes. -/
def pairsOf : Nat → List Byte → List Pair
  | 0, _ => []
  | n + 1, bs => (BitVec.ofNat 32 (leNat (bs.take 4)), BitVec.ofNat 32 (leNat ((bs.drop 4).take 4))) :: pairsOf n (bs.drop 8)

/-- 32-bit words in packed bytes. -/
def wordsOf : Nat → List Byte → List W32
  | 0, _ => []
  | n + 1, bs => BitVec.ofNat 32 (leNat (bs.take 4)) :: wordsOf n (bs.drop 4)

/-- Packed bytes of pairs. -/
def pairBytes (ps : List Pair) : List Byte := ps.flatMap fun p => leBytes 4 p.1.toNat ++ leBytes 4 p.2.toNat

/-- Rounded-up quotient. -/
def cdiv (a b : Nat) : Nat := (a + b - 1) / b

/-- The smallest p with 8 ^ p ≥ m, searched over `n` steps. -/
def log8Up (m : Nat) : Nat → Nat → Nat
  | 0, p => p
  | n + 1, p => if m ≤ 8 ^ p then p else log8Up m n (p + 1)

/-- T_sort(n) of Table 2. -/
def tSort (n : Nat) : Nat :=
  (1 + (if n ≤ 256 then 0 else log8Up (cdiv n 256) 8 0)) * (cdiv n 8 + 128)

/-- Clocks of an operation (R110, Table 2). -/
def setCycles (op nA nB k : Nat) : Nat :=
  if op = 1 then tSort nA
  else if op = 2 then (if k ≤ 256 then cdiv nA 8 + 2 * cdiv k 8 + 96 else 2 * cdiv nA 8 + tSort (2 * k) + 64)
  else if op = 5 then cdiv nA 8 + cdiv nB 8 + 64
  else cdiv (nA + nB) 8 + 64

/-- Flags of SET_FLAGS. -/
def setFlags (truncated nanKeys unsorted clip : Bool) : Nat :=
  (if truncated then 1 else 0) + (if nanKeys then 2 else 0) + (if unsorted then 4 else 0) + (if clip then 8 else 0)

/-- Run one operation on the bytes of its operands. -/
def runSet (op kt flags redOp nA nB k : Nat) (thresh : W32) (a b : List Byte) : SetOut :=
  let desc := decide (flags % 2 = 1)
  let unique := decide (flags / 2 % 2 = 1)
  let thr := decide (flags / 4 % 2 = 1)
  let cyc := setCycles op nA nB k
  if op = 5 then
    let vs := wordsOf nA a
    let os := (wordsOf (nB + 1) b).map (·.toNat)
    let bs := segBounds nA os
    let rs := bs.map fun p => segResult (kt == 2) redOp ((vs.drop p.1).take (p.2 - p.1))
    { bytes := rs.flatMap fun w => leBytes 4 w.toNat, count := nB, dropped := 0, nans := 0, elements := nA
      flags := setFlags false false (bs.any fun p => decide (p.2 < p.1)) (os.any fun o => decide (nA < o)), cycles := cyc }
  else
    let ps := pairsOf nA a
    let qs := if op = 3 || op = 4 then pairsOf nB b else []
    let nans := ((ps ++ qs).filter fun p => keyNan kt p.1).length
    if op = 1 then
      { bytes := pairBytes (sortPairs kt desc ps), count := nA, dropped := 0, nans := nans, elements := nA
        flags := setFlags false (nans != 0) false false, cycles := cyc }
    else if op = 2 then
      let kept := if thr then ps.filter (threshKeeps kt desc thresh) else ps
      let out := (sortPairs kt desc kept).take k
      { bytes := pairBytes out, count := out.length, dropped := nA - kept.length, nans := nans, elements := nA
        flags := setFlags (decide (kept.length < k)) (nans != 0) false false, cycles := cyc }
    else
      let out := mergeOf kt desc unique (op == 3) ps qs
      { bytes := pairBytes out, count := out.length, dropped := 0, nans := nans, elements := nA + nB
        flags := setFlags false (nans != 0) (!(inOrder kt desc ps && inOrder kt desc qs)) false, cycles := cyc }

end Sys2Proof.Machine
end

