-- ==== Sys2Proof/Machine/Sets.lean ====
section
/-! DEFINITION. Set Engine commands and the SORT descriptor (Pointing Engines, Graphs and Set Operators, R111 to R117). -/

namespace Sys2Proof.Machine

/-! ## Bank-space regions -/

/-- The pieces of a bank-space region, bank by bank. -/
def physPieces (addr len : Nat) : List (Nat × Nat) :=
  if len = 0 then []
  else
    let first := addr / 0x100000
    (List.range ((addr + len - 1) / 0x100000 + 1 - first)).map fun k =>
      let lo := max addr ((first + k) * 0x100000)
      (lo, min (addr + len) ((first + k + 1) * 0x100000) - lo)

/-- Does a bank-space region lie in listed banks? -/
def inBanks (banks : List Nat) (addr len : Nat) : Bool := (physPieces addr len).all fun p => banks.contains (bankOf p.1)

/-! ## Operands of an operation -/

/-- Bytes of operand A. -/
def setBytesA (op nA : Nat) : Nat := if op = 5 then 4 * nA else 8 * nA

/-- Bytes of operand B that an operation reads. -/
def setBytesB (op nB : Nat) : Nat := if op = 3 || op = 4 then 8 * nB else if op = 5 then 4 * (nB + 1) else 0

/-- Bytes of the scratch region in SRC_B. -/
def setScratch (op nA k : Nat) : Nat := if op = 1 then 8 * nA else if op = 2 && decide (k > 256) then 16 * k else 0

/-- Bytes that the results can take. -/
def setBytesDst (op nA nB k : Nat) : Nat :=
  if op = 1 || op = 4 then 8 * nA else if op = 2 then 8 * k else if op = 3 then 8 * (nA + nB) else 4 * nB

/-- Counts within Table 2, and the codes of Table 3. -/
def setCmdOk (x : SetCmd) : Bool :=
  inR 1 5 x.op && (if x.op = 5 then inR 1 2 x.keyType && decide (x.redOp ≤ 3) else decide (x.keyType ≤ 2)) &&
  decide (x.nA ≤ 65536) && decide (x.nB ≤ 65536) && (x.op != 2 || inR 1 4096 x.k)

/-! ## The engine -/

/-- The Set Engine's state in its status register. -/
def State.showSet (s : State) (c : Nat) : State :=
  let h := s.hub c
  let o := SET_STATUS c
  let s1 := (s.setBit o SET_STATUS_BUSY h.setRunning.isSome).setFld o SET_STATUS_QUEUED h.setQueue.length
  s1.setFld o SET_STATUS_OP (match h.setRunning with | some q => q.cmd.op | none => 0)

/-- Start a command at once, or queue it behind the others (R111). -/
def State.setIssue (s : State) (c : Nat) (q : SetQueued) : State :=
  let h := s.hub c
  (s.setHub c (match h.setRunning with
    | none => { h with setRunning := some q, setLost := 0 }
    | some _ => { h with setQueue := h.setQueue ++ [q] })).showSet c

/-- SET_ENGINE_COMMAND (R111): a sequencer issues a command; a full queue stalls it for the clock. An operand outside the
kernel's claimed banks stops the kernel. -/
def setEngineCommand (tile : Nat) (x : SetCmd) (s : State) : State :=
  match s.tileWork tile with
  | some w =>
    let c := tile / 8
    if w.kern.isSome && w.stage == .running && w.hubs.contains c && setCmdOk x then
      let regs := [(x.srcA, setBytesA x.op x.nA), (x.srcB, max (setBytesB x.op x.nB) (setScratch x.op x.nA x.k)),
                   (x.dst, setBytesDst x.op x.nA x.nB x.k)]
      match regs.find? (fun p => !(inBanks (w.banks.filter fun g => g / 64 == c) p.1 p.2)) with
      | some p => (s.bankDenied tile p.1).stopKernel w stAccessDenied
      | none =>
        if (s.hub c).setQueue.length ≥ 16 then
          (s.addSat (TILE_STALL_QUEUE tile) TILE_STALL_QUEUE_CLOCKS 1).count 0x02 w.ctx tile 1
        else s.setIssue c { cmd := x, owner := (w.ring, w.seq), tile := some tile }
    else s
  | none => s

/-- An operation's clocks with those that it lost to bank arbitration added, one each (R110). -/
def State.setTimed (s : State) (c : Nat) (o : SetOut) : SetOut := { o with cycles := o.cycles + (s.hub c).setLost }

/-- The registers of a completed operation (R117), with the elements it read (R372). -/
def State.setDone (s : State) (c ctx : Nat) (o : SetOut) : State :=
  let s1 := (s.addSat (SET_OPS c) SET_OPS_COUNT 1).addSat (SET_ELEMENTS c) SET_ELEMENTS_COUNT o.elements
  let s2 := (s1.setFld (SET_LAST c) SET_LAST_CYCLES o.cycles).setFld (SET_LAST c) SET_LAST_OUT_COUNT o.count
  (s2.setFld (SET_FLAGS c) ⟨3, 0⟩ o.flags).count 0x1B ctx c o.elements

/-- The next queued command starts. -/
def State.setNext (s : State) (c : Nat) : State :=
  let h := s.hub c
  (s.setHub c (match h.setQueue with
    | q :: qs => { h with setRunning := some q, setQueue := qs, setLost := 0 }
    | [] => { h with setRunning := none })).showSet c

/-- Bytes of a bank-space region. -/
def State.physRead (s : State) (addr len : Nat) : List Byte := (physPieces addr len).flatMap fun p => s.bankRead p.1 p.2

/-- Write bytes at a bank-space address. -/
def State.physWrite (s : State) (addr : Nat) (bs : List Byte) : State := s.piecesWrite (physPieces addr bs.length) bs

/-- A kernel's operation completes: its results are in the banks; the scratch is undefined. -/
def State.setFinish (s : State) (c ctx : Nat) (x : SetCmd) : State :=
  let o := s.setTimed c (runSet x.op x.keyType x.flags.toNat x.redOp x.nA x.nB x.k x.thresh
    (s.physRead x.srcA (setBytesA x.op x.nA)) (s.physRead x.srcB (setBytesB x.op x.nB)))
  let n := setScratch x.op x.nA x.k
  let s1 := (physPieces x.srcB n).foldl (fun t p => (t.bankUndef p.1 p.2).bankDirty (bankOf p.1)) s
  ((s1.physWrite x.dst o.bytes).setDone c ctx o).setNext c

/-! ## SORT (R113 to R115) -/

/-- Reserved bits of an ADDR field with SPACE 00 or 01 (R56). -/
def addrReservedOk (d : Desc) (i : Nat) : Bool :=
  match addrSpace d i with
  | 0 => decide (dF d i 8 < 2 ^ 40)
  | 1 => decide (dF d i 8 % 2 ^ 62 < 2 ^ 29)
  | _ => true

/-- The command in a SORT descriptor. -/
def sortCmd (d : Desc) : SetCmd :=
  { op := dF d 8 1, keyType := dF d 9 1, flags := BitVec.ofNat 8 (dF d 10 1), redOp := dF d 11 1, nA := dF d 16 4
    nB := dF d 20 4, k := dF d 24 4, thresh := BitVec.ofNat 32 (dF d 28 4), srcA := addrOf d 32, srcB := addrOf d 40
    dst := addrOf d 48 }

/-- The regions that a SORT uses: byte of the ADDR field, bytes, and whether it is written. -/
def sortRegions (d : Desc) : List (Nat × Nat × Bool) :=
  let x := sortCmd d
  [(32, setBytesA x.op x.nA, false),
   (40, max (setBytesB x.op x.nB) (setScratch x.op x.nA x.k), decide (0 < setScratch x.op x.nA x.k)),
   (48, setBytesDst x.op x.nA x.nB x.k, true)].filter fun r => decide (0 < r.2.1)

/-- Check 1 of R114. -/
def sortReservedOk (d : Desc) (op : Nat) : Bool :=
  decide (dF d 8 1 = op) && decide (dF d 10 1 < 8) && (op == 3 || op == 4 || dF d 10 1 / 2 % 2 == 0) &&
  (op == 2 || dF d 10 1 / 4 % 2 == 0) && (if op = 5 then decide (dF d 11 1 ≤ 3) else dZero d 11 1) &&
  decide (dF d 12 1 < 8) && dZero d 13 3 && dZero d 56 8 && addrReservedOk d 32 && addrReservedOk d 40 && addrReservedOk d 48

/-- Check 3 of R114. -/
def sortCountsOk (d : Desc) (op : Nat) : Bool :=
  decide (dF d 16 4 ≤ 65536) && (if op = 3 || op = 4 || op = 5 then decide (dF d 20 4 ≤ 65536) else dZero d 20 4) &&
  (if op = 2 then inR 1 4096 (dF d 24 4) else dZero d 24 4) &&
  ((op == 2 && dF d 10 1 / 4 % 2 == 1) || dZero d 28 4)

/-- Check 5 of R114: the SPACE of every region against PLACE_KEY. -/
def State.sortPlaced (s : State) (c : Nat) (d : Desc) : Bool :=
  let key := dF d 12 1 % 8
  let rs := sortRegions d
  if key = 0 then rs.all fun r => addrSpace d r.1 == 0
  else
    let tiles := s.keyTiles c key
    let clusters := rs.filterMap fun r =>
      if addrSpace d r.1 = 1 then (tiles[addrOf d r.1 / 0x800000]?).map (· / 8) else none
    tiles != [] && rs.all (fun r => addrSpace d r.1 == 0 || (addrSpace d r.1 == 1 &&
      decide (addrOf d r.1 / 0x800000 < tiles.length) &&
      addrOf d r.1 / 0x800000 == (addrOf d r.1 + r.2.1 - 1) / 0x800000)) && decide (clusters.eraseDups.length ≤ 1)

/-- Do two of the regions overlap (check 7)? -/
def sortDisjoint (d : Desc) : List (Nat × Nat × Bool) → Bool
  | [] => true
  | r :: rs => (rs.all fun q => !(addrSpace d r.1 == addrSpace d q.1 && overlaps (addrOf d r.1) r.2.1 (addrOf d q.1) q.2.1)) &&
      sortDisjoint d rs

/-- The checks of R114. -/
def State.sortChecks (s : State) (c op : Nat) (d : Desc) : List (Bool × Nat) :=
  [ (sortReservedOk d op, stBadDescriptor),
    (if op = 5 then inR 1 2 (dF d 9 1) else decide (dF d 9 1 ≤ 2), stFormatUnsupported),
    (sortCountsOk d op, stBadDescriptor),
    ((s.workPart c).isSome, stAccessDenied),
    (s.sortPlaced c d, stBadDescriptor),
    ((sortRegions d).all (fun r => addrSpace d r.1 != 0 || (s.dramOk c (addrOf d r.1) r.2.1 &&
      (!r.2.2 || !(s.hitsRecv (addrOf d r.1) r.2.1)))), stAccessDenied),
    (sortDisjoint d (sortRegions d), stBadDescriptor) ]

/-- PROTECTED_ACCESS for the region that failed for it. -/
def State.noteRegions (s : State) (c : Nat) (d : Desc) (rs : List (Nat × Nat × Bool)) : State :=
  rs.foldl (fun t r => if addrSpace d r.1 = 0 then
    (if r.2.2 then t.noteProtW c (addrOf d r.1) r.2.1 else t.noteProt c (addrOf d r.1) r.2.1) else t) s

/-- A SORT descriptor of one operation at the head of a ring. -/
def sortCmdHead (r op : Nat) (s : State) : State :=
  s.withHead r clSort op fun f =>
    match ringCtx r with
    | none => s
    | some c =>
      match firstFail (s.sortChecks c op f.desc) with
      | some st =>
        (if (firstFail ((s.sortChecks c op f.desc).take 5)).isNone && st == stAccessDenied then
          s.noteRegions c f.desc (sortRegions f.desc) else s).reject r f st
      | none =>
        if s.roleGated c then s.reject r f stFailedOver
        else ((s.popHead r).addWork (mkWork r f op .waiting)).settle

/-- DRAM requests of a SORT's Pointing Engines: granule `k` by the claimed tile `k` modulo their number (DESIGN CHOICE,
notes/assumptions/24.md). -/
def State.sortRequests (s : State) (c : Nat) (tiles : List Nat) (n : Nat) : State :=
  (enumFrom' 0 tiles).foldl (fun t p =>
    let k := (n + tiles.length - 1 - p.1) / tiles.length
    (t.addSat (PE_REQ_COUNT p.2) PE_REQ_COUNT_REQUESTS k).count 0x06 c p.2 k) s

/-- Where a SORT's DRAM operands and results lie in the banks of its cluster while it runs (R114): offsets of A, of B and of
the results, on granules. DESIGN CHOICE (notes/assumptions/24.md): one behind the other from the cluster's first bank, when
the SORT claims a whole free cluster; where a SORT under a placement key puts them the manual does not say, and the model then
leaves the banks as they are. -/
def sortOffset (d : Desc) (i : Nat) : Nat :=
  let x := sortCmd d
  let a := (setBytesA x.op x.nA + 63) / 64 * 64
  if i = 32 then 0 else if i = 40 then a else a + (setBytesB x.op x.nB + 63) / 64 * 64

/-- Is a SORT's region staged in the banks? -/
def Work.sortStaged (w : Work) (i : Nat) : Bool := addrSpace w.desc i == 0 && w.shape.key == 0

/-- The operands of a SORT that lie in DRAM: byte of the ADDR field and bytes. -/
def sortLoads (d : Desc) : List (Nat × Nat) :=
  let x := sortCmd d
  [(32, setBytesA x.op x.nA), (40, setBytesB x.op x.nB)].filter fun r => addrSpace d r.1 == 0 && decide (0 < r.2)

/-- The operands in DRAM are loaded through the Pointing Engines (R114). -/
def State.sortLoad (s : State) (w : Work) (c : Nat) : State :=
  (sortLoads w.desc).foldl (fun t r =>
    let a := addrOf w.desc r.1
    let t1 := (t.touch w.ctx a r.2 false).sortRequests w.ctx w.tiles (linesOf a r.2).length
    if w.sortStaged r.1 then t1.physWrite (64 * c * 0x100000 + sortOffset w.desc r.1) (s.dramRead w.ctx a r.2) else t1) s

/-- A granted SORT loads its operands and runs its operation (R114); an uncorrectable read stops it (R259). -/
def State.launchSort (s : State) (w : Work) : State :=
  let w1 := { w with stage := .running, phase := .running }
  match w.hubs, s.readFails w.ctx ((sortLoads w.desc).map fun r => (addrOf w.desc r.1, r.2)) with
  | _, some t => (t.setWork w1).stopSort w1 stMemoryUncorrectable
  | c :: _, none => ((s.sortLoad w c).setWork w1).setIssue c { cmd := sortCmd w.desc, owner := (w.ring, w.seq), tile := none }
  | [], none => s.setWork w1

/-- The bank-space pieces of one of a SORT's operands, none for one that is not in a bank. -/
def State.sortPieces (s : State) (w : Work) (c i n : Nat) : List (Nat × Nat) :=
  if w.sortStaged i then physPieces (64 * c * 0x100000 + sortOffset w.desc i) n
  else if addrSpace w.desc i = 1 then logicalPieces (s.keyTiles w.ctx w.shape.key) (addrOf w.desc i) n else []

/-- Bytes of one of a SORT's operands. -/
def State.sortRead (s : State) (w : Work) (c i n : Nat) : List Byte :=
  if addrSpace w.desc i = 0 && !(w.sortStaged i) then s.dramRead w.ctx (addrOf w.desc i) n
  else (s.sortPieces w c i n).flatMap fun p => s.bankRead p.1 p.2

/-- The results of a SORT are stored (R114): into the banks, and from there to DRAM. -/
def State.sortStore (s : State) (w : Work) (c : Nat) (bs : List Byte) : State :=
  let a := addrOf w.desc 48
  if addrSpace w.desc 48 = 0 then
    let t := if w.sortStaged 48 then s.physWrite (64 * c * 0x100000 + sortOffset w.desc 48) bs else s
    (t.sortRequests w.ctx w.tiles (linesOf a bs.length).length).dramWrite w.ctx a bs
  else s.slotWrite w.ctx (s.keyTiles w.ctx w.shape.key) (addrSpace w.desc 48) a bs

/-- Class words of a SORT's record. -/
def sortWords (o : SetOut) : Nat := o.count + 2 ^ 32 * o.dropped + 2 ^ 64 * o.nans + 2 ^ 96 * o.cycles

/-- A SORT's operation ends: the results are stored, the scratch is undefined, the claim is released and the record is
written (R114, R115). A store that would touch the object of a running kernel fails it (R58). -/
def State.finishSort (s : State) (w : Work) (c : Nat) : State :=
  let x := sortCmd w.desc
  let tiles := if w.shape.key = 0 then w.tiles else s.keyTiles w.ctx w.shape.key
  let nA := setBytesA x.op x.nA
  let nB := setBytesB x.op x.nB
  match s.bankFails (s.sortPieces w c 32 nA ++ s.sortPieces w c 40 nB) with
  | some t => t.stopSort w stMemoryUncorrectable
  | none =>
    let o := s.setTimed c (runSet x.op x.keyType x.flags.toNat x.redOp x.nA x.nB x.k x.thresh (s.sortRead w c 32 nA)
      (s.sortRead w c 40 nB))
    let t2 := (s.setDone c w.ctx o).setNext c
    if addrSpace w.desc 48 = 0 && s.objectBusy x.dst o.bytes.length then t2.stopSort w stAccessDenied
    else
      let t3 := t2.slotUndef w.ctx tiles (addrSpace w.desc 40) x.srcB (setScratch x.op x.nA x.k)
      let t4 := t3.sortStore w c o.bytes
      (t4.releaseClaim w false).complete w stDone (t4.fld (SET_FLAGS c) ⟨7, 0⟩) (sortWords o)

/-- SET_OPERATION_DONE (R110, R115, R117). -/
def setOperationDone (c : Nat) (s : State) : State :=
  match (s.hub c).setRunning with
  | some q =>
    match s.work? q.owner.1 q.owner.2 with
    | some w =>
      (match q.tile with
      | some t =>
        let x := q.cmd
        (match s.bankFails (physPieces x.srcA (setBytesA x.op x.nA) ++ physPieces x.srcB (setBytesB x.op x.nB)) with
        | some u => (u.setBit (TILE_ERR_STATUS t) TILE_ERR_STATUS_MEM_UNCORR true).stopKernel w stMemoryUncorrectable
        | none => s.setFinish c w.ctx x)
      | none => s.finishSort w c)
    | none => s.setNext c
  | none => s

end Sys2Proof.Machine
end

