-- ==== Sys2Proof/Machine/Attention.lean ====
section
/-! DEFINITION. ATTN work: checks, the recurrence, commit, and ACCEPT (Blockwise Attention and Speculative
Verification, R140 to R162). -/

namespace Sys2Proof.Machine

/-! ## The descriptor (R156) -/

def aQfmt (d : Desc) : Nat := dF d 9 1
def aOfmt (d : Desc) : Nat := dF d 10 1 % 32
def aOsat (d : Desc) : Bool := decide (128 ≤ dF d 10 1)
def aMode (d : Desc) : Nat := dF d 11 1 % 4
def aBits (d : Desc) : Bool := dF d 11 1 / 4 % 2 == 1
def aStats (d : Desc) : Bool := dF d 11 1 / 8 % 2 == 1
def aKvAccept (w : Work) : Nat := if w.version = 1 then 3 else dF w.desc 12 1
def aTiles (d : Desc) : Nat := dF d 13 1
def aKey (d : Desc) : Nat := dF d 14 1 % 8
def aSplit (d : Desc) : Nat := 2 ^ (dF d 14 1 / 16 % 8)
def aQh (d : Desc) : Nat := dF d 15 1
def aKvh (d : Desc) : Nat := dF d 16 1
def aDim (d : Desc) : Nat := 32 * dF d 17 1
def aLayer (d : Desc) : Nat := dF d 18 2
def aSeq (d : Desc) : Nat := dF d 20 2
def aQlen (d : Desc) : Nat := dF d 24 2
def aWindow (d : Desc) : Nat := dF d 26 2
def aQpos (d : Desc) : Nat := dF d 28 4
def aKvlen (d : Desc) : Nat := dF d 32 4
def aScale (d : Desc) : W32 := BitVec.ofNat 32 (dF d 36 4)

/-- Query heads per KV head (R140). -/
def aG (d : Desc) : Nat := aQh d / aKvh d

/-- Bytes of the query. -/
def aQbytes (d : Desc) : Nat := aQlen d * aQh d * aDim d * (if aQfmt d = 0x08 then 1 else 2)

/-- Bytes of an output element. -/
def aOelem (d : Desc) : Nat := if aOfmt d = 0x18 then 2 else if aOfmt d = 0x19 then 4 else 1

/-- Bytes of the output. -/
def aObytes (d : Desc) : Nat := aQlen d * aQh d * aDim d * aOelem d

/-- Start of the statistics, from O_ADDR (R146). -/
def aStatsAt (d : Desc) : Nat := (addrOf d 48 + aObytes d + 63) / 64 * 64 - addrOf d 48

/-- Bytes of the statistics. -/
def aStatsLen (d : Desc) : Nat := if aStats d then 8 * aQlen d * aQh d else 0

/-- Bytes of the AUX region. -/
def aAuxLen (d : Desc) (op : Nat) : Nat := if op = 1 then (if aBits d then (aKvlen d + 7) / 8 else 0) else 16

/-- The regions of an ATTN: byte of the ADDR field, offset, bytes, written. -/
def aRegions (d : Desc) (op : Nat) : List (Nat × Nat × Nat × Bool) :=
  if op = 3 then [(40, 0, 4 * aQlen d, false), (48, 0, 4 * (aQlen d + 1), false), (56, 0, 16, false)]
  else [(40, 0, aQbytes d, false), (48, 0, aObytes d, true)] ++
    (if aStats d then [(48, aStatsAt d, aStatsLen d, true)] else []) ++
    (if 0 < aAuxLen d op then [(56, 0, aAuxLen d op, false)] else [])

/-! ## Checks (R157) -/

/-- Check 1. -/
def attnReservedOk (d : Desc) (op version : Nat) : Bool :=
  (version != 1 || (op == 1 && dZero d 12 1 && dZero d 26 2)) && inR 1 3 op && decide (dF d 10 1 / 32 % 4 = 0) &&
    decide (dF d 11 1 < 16) && decide (dF d 12 1 < 16) && dF d 14 1 / 8 % 2 == 0 && decide (dF d 14 1 < 128) &&
    addrReservedOk d 40 && addrReservedOk d 48 && addrReservedOk d 56

/-- Check 2. -/
def attnFormatsOk (d : Desc) (op version : Nat) : Bool :=
  op == 3 || ((aQfmt d == 0x08 || aQfmt d == 0x18) && (aOfmt d == 0x08 || aOfmt d == 0x09 || aOfmt d == 0x18 || aOfmt d == 0x19) &&
    fmtAdmitted version (aQfmt d) && fmtAdmitted version (aOfmt d))

/-- A positive, normal and finite FP32 word. -/
def smScaleOk (w : W32) : Bool := decide (0x00800000 ≤ w.toNat) && decide (w.toNat < 0x7F800000)

/-- Check 4; `tiles` is the size of the partition. -/
def attnFieldsOk (d : Desc) (op version tiles : Nat) : Bool :=
  decide (1 ≤ aKvlen d) &&
  (if op = 3 then
    dZero d 9 6 && dZero d 15 5 && dZero d 26 2 && dZero d 36 4 && inR 1 16 (aQlen d) && addrSpace d 40 == 0 &&
      addrSpace d 48 == 0 && addrSpace d 56 == 0
  else
    aMode d != 3 && tileCountOk (aTiles d) && decide (aTiles d ≤ tiles) && decide (dF d 14 1 / 16 ≤ 4) && inR 1 128 (aQh d) &&
      decide (0 < aKvh d) && aQh d % aKvh d == 0 && inR 1 8 (dF d 17 1) && decide (aLayer d < 1024) &&
      inR 1 (if op = 1 then 8192 else 16) (aQlen d) && (if aMode d = 2 then decide (0 < aWindow d) else aWindow d == 0) &&
      smScaleOk (aScale d) && (version == 1 || !(dZero d 12 1)) && decide (addrSpace d 40 < 2) && decide (addrSpace d 48 < 2) &&
      (if 0 < aAuxLen d op then addrSpace d 56 == 0 else dZero d 56 8) && (op != 2 || (aMode d == 1 && !(aBits d))) &&
      (aMode d == 0 || decide (aQpos d + aQlen d ≤ aKvlen d)))

/-- The parents of a tree record, and their depths in order (R151); none for an invalid record. -/
def treeDepths (n : Nat) (b : List Byte) : Option (List Nat) :=
  let go := (b.take n).foldl (fun (acc : Option (List Nat)) (p : Byte) =>
    match acc with
    | none => none
    | some ds =>
      if p = 0xFF then some (ds ++ [1])
      else match ds[p.toNat]? with
        | some k => if k + 1 ≤ 8 then some (ds ++ [k + 1]) else none
        | none => none) (some [])
  if (b.drop n).all (· == 0) then go else none

/-- Is a region of an ATTN where its context may use it (check 9)? -/
def State.attnRegionOk (s : State) (c : Nat) (d : Desc) (r : Nat × Nat × Nat × Bool) : Bool :=
  if addrSpace d r.1 = 0 then
    if r.2.2.2 then s.dramOkW c (addrOf d r.1 + r.2.1) r.2.2.1 else s.dramOk c (addrOf d r.1 + r.2.1) r.2.2.1
  else decide (addrOf d r.1 + r.2.1 + r.2.2.1 ≤ (s.keyTiles c (aKey d)).length * 0x800000)

/-- Checks 1 to 5. -/
def State.attnEarly (s : State) (c op : Nat) (f : Fetched) : List (Bool × Nat) :=
  let d := f.desc
  let v := dF d 2 2
  let part := s.workPart c
  [ (attnReservedOk d op v, stBadDescriptor),
    (attnFormatsOk d op v, stFormatUnsupported),
    (op == 3 || part.isSome, stAccessDenied),
    (attnFieldsOk d op v (match part with | some p => 8 * (s.partClusters p).length | none => 0), stBadDescriptor),
    (decide (aKvlen d ≤ 131072) && decide (aQpos d + aQlen d ≤ 131072), stLengthLimit) ]

/-- Checks 6 to 8. -/
def State.attnSeq (s : State) (c op : Nat) (d : Desc) : List (Bool × Nat) :=
  let q := s.seq (aSeq d)
  let one := aKvlen d == aQpos d + aQlen d && aQpos d / 256 == (aQpos d + aQlen d - 1) / 256
  [ (s.seqOf c (aSeq d), stAccessDenied),
    (q.state == .active, stPreempted),
    ((op == 3 || (decide (aLayer d < q.layers) && aKvh d == q.kvHeads && aDim d == q.headDim && decide (aKvlen d ≤ q.length))) &&
      (op != 3 || aKvlen d == q.length) && (op == 1 || one), stBadDescriptor) ]

/-- Checks 9 to 11. -/
def State.attnLate (s : State) (c op : Nat) (d : Desc) : List (Bool × Nat) :=
  let held := s.keyTiles c (aKey d)
  [ ((aRegions d op).all (s.attnRegionOk c d), stAccessDenied),
    (op == 1 || (treeDepths (aQlen d) (s.dramRead c (addrOf d 56) 16)).isSome, stBadDescriptor),
    (op == 3 || aKey d == 0 || held == [] || held.length == aTiles d, stBadDescriptor) ]

/-- PROTECTED_ACCESS for the regions that failed check 9 for it. -/
def State.noteAttn (s : State) (c op : Nat) (d : Desc) : State :=
  (aRegions d op).foldl (fun t r => if addrSpace d r.1 = 0 then
    (if r.2.2.2 then t.noteProtW c (addrOf d r.1 + r.2.1) r.2.2.1 else t.noteProt c (addrOf d r.1 + r.2.1) r.2.2.1) else t) s

/-! ## Operands -/

/-- An element array with the size of its elements and its scales (E8M0 bytes, or none). -/
structure KvPart where
  fmt : Fmt
  bytes : List Byte
  /-- elements per token -/
  dim : Nat
  /-- the per-page scale of the head, 1 when the page carries none -/
  scale : Flagged
  deriving Repr

/-- 1.0. -/
def numOne : Num := .fin false 1 0

/-- Element `i` of token `t`. -/
def KvPart.elem (p : KvPart) (t i : Nat) : Flagged := readElem p.fmt p.bytes (t * p.dim + i)

/-- The E8M0 scale of block `g` of token `t`; 1 where the format has none. -/
def KvPart.block (p : KvPart) (t g : Nat) : Flagged :=
  if p.fmt.isMx then e8m0 ((p.bytes[256 * p.dim / 2 + t * (p.dim / 32) + g]?).getD 0) else (numOne, 0)

/-- The part of a page for a KV head (Table 1 of KV Cache Paging, Pre-emption and Swap). -/
def State.kvPart (s : State) (c h d k : Nat) (e : WalkEnt) (values : Bool) : KvPart :=
  let fc := if values then e.vfmt else e.kfmt
  let at_ := e.base + (if values then valuesAt h d e.kfmt e.vfmt k else keysAt h d e.kfmt k)
  let sc := if kvScaled fc (if values then e.vscale else e.kscale) then
      pageScale (BitVec.ofNat 32 (leNat (s.dramRead c (e.base + 8 * k + (if values then 4 else 0)) 4)))
    else (numOne, 0)
  { fmt := (fmtOf fc).getD .int8, bytes := s.dramRead c at_ (256 * tokenBytes fc d), dim := d, scale := sc }

/-- Query element `i` of query row `r` of KV head `k`. -/
def qElem (d : Desc) (q : List Byte) (k r i : Nat) : Flagged :=
  readElem ((fmtOf (aQfmt d)).getD .e4m3) q (((r / aG d) * aQh d + k * aG d + r % aG d) * aDim d + i)

/-- A query row. -/
def qRow (d : Desc) (q : List Byte) (k r : Nat) : List Flagged := (List.range (aDim d)).map (qElem d q k r)

/-! ## The recurrence (R143 to R148) -/

/-- The flags of a list of operands. -/
def flagsOf (xs : List Flagged) : AFlags := xs.foldl (fun f x => f ||| x.2) 0

/-- The score of a query row and a key in groups of 32 products (R147, Table 1). -/
def scoreOf (q : List Flagged) (k : KvPart) (t : Nat) : Flagged :=
  let d := k.dim
  let ks := (List.range d).map (k.elem t)
  let groups := (List.range (d / 32)).map fun g =>
    let b := k.block t g
    let f := mulExact b.1 k.scale.1
    ((f.1, ((q.zip ks).drop (32 * g)).take 32 |>.map fun p => (p.1.1, p.2.1)), b.2 ||| f.2)
  let r := accGroups (Num.zero, 0) (groups.map (·.1))
  (r.1, r.2 ||| flagsOf q ||| flagsOf ks ||| (groups.foldl (fun f g => f ||| g.2) 0) ||| k.scale.2)

/-- The score of a BF16 query row and an E4M3 key: each product on its own (Table 1). -/
def scoreSingle (q : List Flagged) (k : KvPart) (t : Nat) : Flagged :=
  let ks := (List.range k.dim).map (k.elem t)
  let r := accGroups (Num.zero, 0) ((q.zip ks).map fun p => (numOne, [(p.1.1, p.2.1)]))
  (r.1, r.2 ||| flagsOf q ||| flagsOf ks)

/-- The scaled score of a position. -/
def scoreAt (d : Desc) (q : List Flagged) (k : KvPart) (t : Nat) : Flagged :=
  let x := if aQfmt d = 0x18 ∧ k.fmt = .e4m3 then scoreSingle q k t else scoreOf q k t
  andThen x fun v => vMul v (decodeF32 (aScale d))

/-- −∞. -/
def negInf : Num := .inf true

/-- Are two FP32 values equal bit for bit, and not NaN? Where only the signs of zeros differ, the exponential of their
difference is 1 all the same. -/
def sameF32 (a b : Num) : Bool := a != .nan && b != .nan && encodeF32 a == encodeF32 b

/-- exp of a rounded difference. -/
def expDiff (a b : Num) : Flagged := andThen (vSub a b) vExp

/-- The value sum of a column over a block: groups of 32 positions, or single positions for E4M3 (R148). `ps` holds the
BF16 probabilities, `none` for a masked position. -/
def pvOf (ps : List (Option Num)) (v : KvPart) (c : Nat) : Flagged :=
  let g := if v.fmt = .e4m3 then 1 else 32
  let terms := (enumFrom' 0 (List.range ps.length)).map fun e =>
    match (ps[e.1]?).join with
    | none => ((Num.zero, Num.zero), (0 : AFlags))
    | some p =>
      let x := v.elem e.1 c
      let b := v.block e.1 (c / 32)
      let y := mulExact x.1 b.1
      ((p, y.1), x.2 ||| b.2 ||| y.2)
  let r := accGroups (Num.zero, 0) ((cut g (terms.length + 1) terms).map fun ts => (v.scale.1, ts.map (·.1)))
  (r.1, r.2 ||| (terms.foldl (fun f t => f ||| t.2) 0) ||| v.scale.2)

/-- The triple (m, l, o) of a row. -/
structure RowAcc where
  m : Num := negInf
  l : Num := Num.zero
  o : List Num
  flags : AFlags := 0
  deriving Repr

/-- One key block of a row (R143): the scores of its positions, `none` where masked, and the values. -/
def rowBlock (a : RowAcc) (scores : List (Option Flagged)) (v : KvPart) : RowAcc :=
  let s := scores.map fun x => match x with | some y => y.1 | none => negInf
  let fl := scores.foldl (fun f x => match x with | some y => f ||| y.2 | none => f) a.flags
  let mb := s.foldl vMax negInf
  if mb = negInf then { a with flags := fl }
  else
    let mn := vMax a.m mb
    let al := if a.m = negInf then (Num.zero, 0) else if sameF32 mn a.m then (numOne, 0) else expDiff a.m mn
    let p := s.map fun x => if x = negInf then (Num.zero, (0 : AFlags)) else expDiff x mn
    let ps := p.foldl (fun acc x => andThen acc fun y => vAdd y x.1) ((Num.zero, 0) : Flagged)
    let l := vFma al.1 a.l ps.1
    let pb := (scores.zip p).map fun x => match x.1 with
      | some _ => let r := toBf16 x.2.1; (some (decodeBf16 r.1), r.2)
      | none => (none, (0 : AFlags))
    let o := (enumFrom' 0 (List.range a.o.length)).map fun e =>
      let y := pvOf (pb.map (·.1)) v e.1
      let z := vFma al.1 ((a.o[e.1]?).getD Num.zero) y.1
      (z.1, y.2 ||| z.2)
    { m := mn, l := l.1, o := o.map (·.1),
      flags := fl ||| al.2 ||| flagsOf p ||| ps.2 ||| l.2 ||| (pb.foldl (fun f x => f ||| x.2) 0) ||| flagsOf o }

/-- One range merged into what stands (R146). -/
def rowMerge (a b : RowAcc) : RowAcc :=
  if b.m = negInf then { a with flags := a.flags ||| b.flags }
  else if a.m = negInf then { b with flags := a.flags ||| b.flags }
  else
    let mn := vMax a.m b.m
    let x := if sameF32 a.m mn then (numOne, 0) else expDiff a.m mn
    let y := if sameF32 b.m mn then (numOne, 0) else expDiff b.m mn
    let al := vMul x.1 a.l
    let l := vFma y.1 b.l al.1
    let o := (a.o.zip b.o).map fun p =>
      let u := vMul x.1 p.1
      let z := vFma y.1 p.2 u.1
      (z.1, u.2 ||| z.2)
    { m := mn, l := l.1, o := o.map (·.1), flags := a.flags ||| b.flags ||| x.2 ||| y.2 ||| al.2 ||| l.2 ||| flagsOf o }

/-- Is the row fully masked (R146: l is +0)? -/
def RowAcc.masked (a : RowAcc) : Bool := match a.l with | .fin false 0 _ => true | _ => false

/-- The output bytes of a finished row. -/
def rowOut (d : Desc) (a : RowAcc) : List Byte × AFlags :=
  if a.masked then (List.replicate (aDim d * aOelem d) 0, 0)
  else
    let r := vRecip a.l
    let es := a.o.map fun x =>
      let y := vMul x r.1
      let z := toElem ((fmtOf (aOfmt d)).getD .bf16) (aOsat d) y.1
      (z.1, y.2 ||| z.2)
    (es.flatMap fun e => leBytes (aOelem d) e.1, es.foldl (fun f e => f ||| e.2) r.2)

/-! ## Masks (R150, R151) -/

/-- Is candidate `a` an ancestor of candidate `i`, or `i` itself? -/
def ancestor (tree : List Byte) (a : Nat) : Nat → Nat → Bool
  | 0, i => a == i
  | n + 1, i => a == i || (match tree[i]? with
    | some p => p != 0xFF && ancestor tree a n p.toNat
    | none => false)

/-- Is position `t` masked for a row of query token `tok`? -/
def maskedAt (d : Desc) (op : Nat) (aux : List Byte) (tok t : Nat) : Bool :=
  let u := aQpos d + tok
  (aMode d != 0 && decide (u < t)) || (aMode d == 2 && decide (t + aWindow d ≤ u)) ||
  (op == 1 && aBits d && ((aux[t / 8]?).getD 0).getLsbD (t % 8)) ||
  (op == 2 && decide (aQpos d ≤ t) && !(ancestor aux (t - aQpos d) 8 tok))

/-! ## The whole result -/

/-- Rows of a KV head. -/
def aRows (d : Desc) : Nat := aQlen d * aG d

/-- The pages of range `i` (R141). -/
def aRange (d : Desc) (i : Nat) : List Nat :=
  let p := pagesOf (aKvlen d)
  let lo := i * p / aSplit d
  (List.range ((i + 1) * p / aSplit d - lo)).map (lo + ·)

/-- Positions of block `j`. -/
def blockLen (d : Desc) (j : Nat) : Nat := min 256 (aKvlen d - 256 * j)

/-- Is the block skipped for a whole item (R145): every position masked for every row? -/
def blockSkipped (d : Desc) (op : Nat) (aux : List Byte) (b j : Nat) : Bool :=
  (List.range (min 128 (aRows d - 128 * b))).all fun i => (List.range (blockLen d j)).all fun x =>
    maskedAt d op aux ((128 * b + i) / aG d) (256 * j + x)

/-- The items in order: KV head, query block, range (R141). -/
def aItems (d : Desc) : List (Nat × Nat × Nat) :=
  (List.range (aKvh d)).flatMap fun k => (List.range ((aRows d + 127) / 128)).flatMap fun b =>
    (List.range (aSplit d)).map fun i => (k, b, i)

/-- The blocks that an item fetches. -/
def itemBlocks (d : Desc) (op : Nat) (aux : List Byte) (it : Nat × Nat × Nat) : List Nat :=
  (aRange d it.2.2).filter fun j => !(blockSkipped d op aux it.2.1 j)

/-- The bytes of a region of an ATTN. -/
def State.attnRead (s : State) (w : Work) (i n : Nat) : List Byte :=
  if addrSpace w.desc i = 0 then s.dramRead w.ctx (addrOf w.desc i) n
  else s.logicalRead w (addrOf w.desc i) n

/-- The number of item (KV head, query block, range): the range fastest, then the query block (R141). -/
def itemNumber (d : Desc) (k b i : Nat) : Nat := (k * ((aRows d + 127) / 128) + b) * aSplit d + i

/-- The items of logical tile `l`, each with its number, in the order in which the tile takes them (R141). -/
def tileItems (d : Desc) (l : Nat) : List (Nat × Nat × Nat × Nat) :=
  let all := aItems d
  ((List.range all.length).zip all).filter fun it => it.1 % aTiles d == l

/-- The translation under which an item fetched a block (R172). -/
def Work.blockEnt (w : Work) (n j : Nat) : Option WalkEnt :=
  match w.attn with
  | some a => tabGet? a.ents (512 * n + j)
  | none => none

/-- The row `r` of KV head `k` over range `i`. -/
def State.attnRow (s : State) (w : Work) (q aux : List Byte) (k r i : Nat) : RowAcc :=
  let d := w.desc
  let qr := qRow d q k r
  (aRange d i).foldl (fun a j =>
    match w.blockEnt (itemNumber d k (r / 128) i) j with
    | none => a
    | some e =>
      let ms := (List.range (blockLen d j)).map fun x => maskedAt d w.op aux (r / aG d) (256 * j + x)
      if ms.all id then a
      else
        let kp := s.kvPart w.ctx (aKvh d) (aDim d) k e false
        let vp := s.kvPart w.ctx (aKvh d) (aDim d) k e true
        let sc := (enumFrom' 0 (List.range ms.length)).map fun x =>
          if (ms[x.1]?).getD true then none else some (scoreAt d qr kp x.1)
        rowBlock a sc vp) { o := List.replicate (aDim d) Num.zero }

/-- A row with its ranges merged. -/
def State.attnMerged (s : State) (w : Work) (q aux : List Byte) (k r : Nat) : RowAcc :=
  ((List.range (aSplit w.desc)).drop 1).foldl (fun a i => rowMerge a (s.attnRow w q aux k r i)) (s.attnRow w q aux k r 0)

/-- What an ATTN leaves: output, statistics, flags and fully masked rows. -/
structure AttnOut where
  out : List Byte
  stats : List Byte
  flags : AFlags
  masked : Nat
  deriving Repr

/-- The result of an ATTEND or VERIFY (R142): for every token and query head, its row. -/
def State.attnRun (s : State) (w : Work) (q aux : List Byte) : AttnOut :=
  let d := w.desc
  let rows := (List.range (aQlen d)).flatMap fun t => (List.range (aQh d)).map fun h =>
    s.attnMerged w q aux (h / aG d) (t * aG d + h % aG d)
  let outs := rows.map (rowOut d)
  { out := outs.flatMap (·.1)
    stats := rows.flatMap fun a => leBytes 4 (encodeF32 a.m).toNat ++ leBytes 4 (encodeF32 a.l).toNat
    flags := (rows.foldl (fun f a => f ||| a.flags) 0) ||| (outs.foldl (fun f o => f ||| o.2) 0)
    masked := (rows.filter RowAcc.masked).length }

/-! ## Stops (R149, R159) -/

/-- Set an error bit of ATTN_ERR_STATUS on a tile; ATTN_ERR_INFO takes page and format of the first error. -/
def State.attnErr (s : State) (t : Nat) (b : Bits) (page fmt : Nat) : State :=
  let s1 := if s.reg (ATTN_ERR_STATUS t) = 0 then
      (s.setFld (ATTN_ERR_INFO t) ATTN_ERR_INFO_PAGE page).setFld (ATTN_ERR_INFO t) ATTN_ERR_INFO_FORMAT fmt else s
  s1.setBit (ATTN_ERR_STATUS t) b true

/-- Bit of KV_ACCEPT that admits a page format. -/
def kvAcceptBit (f : Nat) : Nat := if f = kvE4m3 then 1 else if f = kvInt8 then 2 else if f = kvInt4 then 4 else if f = kvMxfp4 then 8 else 0

/-- The format of a page that the ATTN refuses, keys first (R149). -/
def refusedFmt (w : Work) (kf vf : Nat) : Option Nat :=
  let ok := fun f => aKvAccept w &&& kvAcceptBit f != 0
  if !(ok kf) then some kf else if !(ok vf) then some vf else none

/-- Does a page of the ATTN hold a scale that R46 refuses, for a KV head? -/
def State.scaleBad (s : State) (w : Work) (k : Nat) (e : WalkEnt) : Bool :=
  (s.kvPart w.ctx (aKvh w.desc) (aDim w.desc) k e false).scale.2 != 0 ||
    (s.kvPart w.ctx (aKvh w.desc) (aDim w.desc) k e true).scale.2 != 0

/-- Block `j` of item `n`, of KV head `k`, is fetched by tile `t`: its page is translated and its format checked, and it is
counted once (R149, R160, R162, R172). The state after, and the work as it then stands; none when it has stopped. -/
def State.fetchBlock (s : State) (w : Work) (t n k j : Nat) (leafBad listBad : Bool) : State × Option Work :=
  match w.attn with
  | none => (s, none)
  | some a =>
    if (tabGet? a.ents (512 * n + j)).isSome then (s, some w)
    else match s.translate (t / 8) w.ctx (aSeq w.desc) (aLayer w.desc) j leafBad listBad with
      | (s1, .inl (e, list)) =>
        (match refusedFmt w e.kfmt e.vfmt with
        | some f => ((s1.attnErr t ATTN_ERR_STATUS_PAGE_FORMAT j f).stopAttn w stFormatUnsupported, none)
        | none =>
          let s2 := s1.addSat (ATTN_PAGES t) ATTN_PAGES_BLOCKS 1
          let s3 := if list then s2.addSat (ATTN_FALLBACK_PAGES t) ATTN_FALLBACK_PAGES_BLOCKS 1 else s2
          let s4 := if s3.scaleBad w k e then s3.attnErr t ATTN_ERR_STATUS_SCALE_BAD j 0 else s3
          let w1 := { w with attn := some { a with
            ents := tabSet a.ents (512 * n + j) e, fallbackPages := a.fallbackPages + (if list then 1 else 0) } }
          (s4.setWork w1, some w1))
      | (s1, .inr true) =>
        let s2 := s1.setBit (TILE_ERR_STATUS t) TILE_ERR_STATUS_MEM_UNCORR true
        ((s2.attnErr t ATTN_ERR_STATUS_MEM_UNCORR j 0).stopAttn w stMemoryUncorrectable, none)
      | (s1, .inr false) => ((s1.attnErr t ATTN_ERR_STATUS_PAGE_UNMAPPED j 0).stopAttn w stAccessDenied, none)

/-! ## Admission, launch and commit (R157, R158) -/

/-- ATTEND, VERIFY or ACCEPT at the head of its ring. Past check 5 it waits for the SEQ descriptors before it, and for a
hold when there are 255 (R177, R181); behind an ACCEPT it is admitted and waits (R155). -/
def attnHead (r op : Nat) (start : State → Work → SeqWork → State) (s : State) : State :=
  s.withHead r clAttn op fun f =>
    match ringCtx r with
    | none => s
    | some c =>
      let d := f.desc
      match firstFail (s.attnEarly c op f) with
      | some st => s.reject r f st
      | none =>
        if s.seqOpBusy (aSeq d) then s
        else match firstFail (s.attnSeq c op d) with
          | some st => s.reject r f st
          | none =>
            -- checks 10 and 11 read the tree record, which may be uncorrectable
            match (if op = 1 then none else s.readFails c [(addrOf d 56, 16)]), firstFail (s.attnLate c op d) with
            | none, some st => (if st = stAccessDenied then s.noteAttn c op d else s).reject r f st
            | some t, some st => if st = stAccessDenied then (s.noteAttn c op d).reject r f st
              else t.reject r f stMemoryUncorrectable
            | some t, none => t.reject r f stMemoryUncorrectable
            | none, none =>
              if s.roleGated c then s.reject r f stFailedOver
              else if 255 ≤ (s.seq (aSeq d)).holds then s
              else
                let n := (s.seq (aSeq d)).regNo
                let w0 := { mkWork r f op .waiting with holds := [(aSeq d, n)] }
                let x : SeqWork := { seqId := aSeq d, regNo := n }
                let w : Work := if op = 3 then { w0 with seqw := some x } else { w0 with attn := some {} }
                let s1 := (((s.takeHolds [aSeq d]).popHead r).addWork w).settle
                if op = 3 then
                  match s1.work? r f.seq with
                  | some v => start s1 v x
                  | none => s1
                else s1

/-- A tile shows the item that it is on (R162). -/
def State.showItem (s : State) (d : Desc) (t : Nat) (it : Nat × Nat × Nat) : State :=
  (((s.setFld (ATTN_STATUS t) ATTN_STATUS_ROWS (min 128 (aRows d - 128 * it.2.1))).setFld (ATTN_ITEM t) ATTN_ITEM_KV_HEAD
    it.1).setFld (ATTN_ITEM t) ATTN_ITEM_QBLOCK it.2.1).setFld (ATTN_ITEM t) ATTN_ITEM_RANGE it.2.2

/-- The registers of an ATTN's tile at step 6 (R162). -/
def State.attnTile (s : State) (w : Work) (l t : Nat) : State :=
  let lo := 0x1000000 + t * 0x40000
  let s1 := (s.clearRange (lo + 0x30000) (lo + 0x40000)).clearRange (lo + 0x10000) (lo + 0x20000)
  let s2 := ((s1.setBit (TILE_STATUS t) TILE_STATUS_RUNNING true).setFld (ATTN_STATUS t) ATTN_STATUS_OWNER_CTX w.ctx)
  let s3 := s2.setTile t { s2.tile t with queues := [], inFlight := [] }
  match tileItems w.desc l with
  | it :: _ =>
    (((s3.setBit (ATTN_STATUS t) ATTN_STATUS_ACTIVE true).setFld (ATTN_ITEM t) ATTN_ITEM_SEQ_ID (aSeq w.desc)).setFld
      (ATTN_ITEM t) ATTN_ITEM_LAYER (aLayer w.desc)).showItem w.desc t it.2
  | [] => s3

/-- A granted ATTEND or VERIFY starts (step 6 of Table 5). -/
def State.launchAttn (s : State) (w : Work) : State :=
  let s1 := (enumFrom' 0 w.tiles).foldl (fun t p => t.attnTile w p.1 p.2) s
  s1.setWork { w with stage := .running, phase := .running, startAt := s.now, attn := w.attn.map fun a => { a with
    items := (enumFrom' 0 w.tiles).foldl (fun m p => if (aItems w.desc)[p.1]?.isSome then tabSet m p.2 p.1 else m) a.items } }

/-- An item of a tile ends: its skipped blocks are counted and, when its rows need no merge, its fully masked rows; the tile
goes on to its next item (R145, R162). -/
def State.endItem (s : State) (w : Work) (q aux : List Byte) (l t : Nat) (it : Nat × Nat × Nat × Nat) : State × Work :=
  let d := w.desc
  let rows := min 128 (aRows d - 128 * it.2.2.1)
  let s1 := s.addSat (ATTN_SKIPPED t) ATTN_SKIPPED_BLOCKS
    ((aRange d it.2.2.2).length - (itemBlocks d w.op aux it.2).length)
  let masked := if aSplit d = 1 then ((List.range rows).filter fun i =>
    (s.attnMerged w q aux it.2.1 (128 * it.2.2.1 + i)).masked).length else 0
  let s2 := s1.addSat (ATTN_MASKED_ROWS t) ATTN_MASKED_ROWS_ROWS masked
  match (tileItems d l).find? fun x => decide (it.1 < x.1) with
  | some nx =>
    let w1 := { w with attn := w.attn.map fun a => { a with items := tabSet a.items t nx.1 } }
    ((s2.showItem d t nx.2).setWork w1, w1)
  | none => (s2, w)

/-- A tile goes through its items from the one it is on: the blocks of item `it` still to be fetched before page `j`, in
order. -/
def State.fetchBelow (s : State) (w : Work) (t : Nat) (it : Nat × Nat × Nat × Nat) : List Nat → State × Option Work
  | [] => (s, some w)
  | b :: bs =>
    match s.fetchBlock w t it.1 it.2.1 b false false with
    | (s1, some w1) => s1.fetchBelow w1 t it bs
    | r => r

/-- A tile finishes the listed items, fetching what they still lack. -/
def State.finishItems (s : State) (w : Work) (q aux : List Byte) (l t : Nat) :
    List (Nat × Nat × Nat × Nat) → State × Option Work
  | [] => (s, some w)
  | it :: rest =>
    match s.fetchBelow w t it (itemBlocks w.desc w.op aux it.2) with
    | (s1, some w1) => let r := s1.endItem w1 q aux l t it; r.1.finishItems r.2 q aux l t rest
    | r => r

/-- The item that a tile is on. -/
def Work.itemOf (w : Work) (t : Nat) : Option Nat :=
  match w.attn with
  | some a => tabGet? a.items t
  | none => none

/-- The items of a tile from the one it is on. -/
def Work.itemsLeft (w : Work) (l t : Nat) : List (Nat × Nat × Nat × Nat) :=
  match w.itemOf t with
  | some n => (tileItems w.desc l).filter fun it => decide (n ≤ it.1)
  | none => []

/-- The item whose block `j` a tile fetches next: its present one, unless that has gone past the page. -/
def Work.itemFor (w : Work) (aux : List Byte) (l t j : Nat) : Option (Nat × Nat × Nat × Nat) :=
  (w.itemsLeft l t).find? fun it => (itemBlocks w.desc w.op aux it.2).contains j &&
    !((itemBlocks w.desc w.op aux it.2).any fun b => decide (j < b) && (w.blockEnt it.1 b).isSome)

/-- The rows of a tile's items that took part in a merge are finished by then: its fully masked rows (R145, R162). -/
def State.attnTileDone (s : State) (w : Work) (q aux : List Byte) (l t : Nat) : State :=
  let d := w.desc
  let masked := if aSplit d = 1 then 0 else ((tileItems d l).map fun it => if it.2.2.2 = 0 then
    ((List.range (min 128 (aRows d - 128 * it.2.2.1))).filter fun i =>
      (s.attnMerged w q aux it.2.1 (128 * it.2.2.1 + i)).masked).length else 0).sum
  (s.addSat (ATTN_MASKED_ROWS t) ATTN_MASKED_ROWS_ROWS masked).setBit (ATTN_STATUS t) ATTN_STATUS_ACTIVE false

/-- Every tile finishes its items, in logical order. -/
def State.finishTiles (s : State) (w : Work) (q aux : List Byte) : List (Nat × Nat) → State × Option Work
  | [] => (s, some w)
  | p :: ps =>
    match s.finishItems w q aux p.1 p.2 (w.itemsLeft p.1 p.2) with
    | (s1, some w1) => s1.finishTiles w1 q aux ps
    | r => r

/-- The reads of the query, the mask bitmap and the tree record: an uncorrectable one stops the work (R80, R159, R259). -/
def State.attnReadFails (s : State) (w : Work) : Option State :=
  ((aRegions w.desc w.op).filter fun r => !r.2.2.2).findSome? fun r =>
    if addrSpace w.desc r.1 = 0 then s.readFails w.ctx [(addrOf w.desc r.1, r.2.2.1)]
    else s.bankFails (logicalPieces w.tiles (addrOf w.desc r.1) r.2.2.1)

/-- Class words of an ATTEND's or VERIFY's record (R160). -/
def attnWords (masked pages fallback cycles : Nat) : Nat :=
  min masked 0xFFFFFF + 2 ^ 32 * (pages % 2 ^ 32) + 2 ^ 64 * (fallback % 2 ^ 32) + 2 ^ 96 * min cycles 0xFFFFFFFF

/-- The commit of a work whose blocks have all been fetched (R158, steps 7 to 9): output and statistics, the claims released
and the record written. A store that would touch the object of a running kernel fails it (R58). -/
def State.attnStore (s : State) (w : Work) (a : AttnWork) (q aux : List Byte) (cycles : Nat) : State :=
  let d := w.desc
  if addrSpace d 48 = 0 && (s.objectBusy (addrOf d 48) (aObytes d) ||
      s.objectBusy (addrOf d 48 + aStatsAt d) (aStatsLen d)) then s.stopAttn w stAccessDenied
  else
    let o := s.attnRun w q aux
    let s1 := (enumFrom' 0 w.tiles).foldl (fun t p => t.attnTileDone w q aux p.1 p.2) s
    let s2 := s1.slotWrite w.ctx w.tiles (addrSpace d 48) (addrOf d 48) o.out
    let s3 := if aStats d then s2.slotWrite w.ctx w.tiles (addrSpace d 48) (addrOf d 48 + aStatsAt d) o.stats else s2
    ((s3.releaseClaim w false).releaseHolds w).complete w stDone o.flags.toNat
      (attnWords o.masked a.ents.length a.fallbackPages cycles)

/-- ATTN_COMMIT (R158): every tile finishes its items, and the work commits. What it reads may be uncorrectable, and a page
unmapped or of a refused format: the work stops instead (R149, R159). -/
def attnCommit (r seq cycles : Nat) (s : State) : State :=
  match s.work? r seq with
  | some w =>
    if w.stage ≠ .running || w.attn.isNone then s
    else
      match s.attnReadFails w with
      | some s1 =>
        let t := w.tiles.headD 0
        ((s1.setBit (TILE_ERR_STATUS t) TILE_ERR_STATUS_MEM_UNCORR true).attnErr t ATTN_ERR_STATUS_MEM_UNCORR 0 0).stopAttn w
          stMemoryUncorrectable
      | none =>
        let aux := s.attnRead w 56 (aAuxLen w.desc w.op)
        let q := s.attnRead w 40 (aQbytes w.desc)
        match s.finishTiles w q aux (enumFrom' 0 w.tiles) with
        | (s1, some w1) => (match w1.attn with | some a => s1.attnStore w1 a q aux cycles | none => s1)
        | (s1, none) => s1
  | none => s

/-- ATTN_TIMEOUT (R159): TIMEOUT_MS has passed since the release (Table 5, step 6). -/
def attnTimeout (r seq : Nat) (s : State) : State :=
  match s.work? r seq with
  | some w =>
    if w.attn.isSome && w.stage == .running && w.late s.now (dF w.desc 22 2) then
      (s.tilesErr w TILE_ERR_STATUS_TIMEOUT).stopAttn w stTimeout else s
  | none => s

/-! ## ACCEPT (R152 to R155) -/

/-- The accepted path, and the bonus token. -/
def acceptPath (tree : List Byte) (ds ts : List Nat) : Nat → Option Nat → List Nat × Nat
  | 0, node => ([], (ts[match node with | some i => i + 1 | none => 0]?).getD 0)
  | n + 1, node =>
    let want := (ts[match node with | some i => i + 1 | none => 0]?).getD 0
    let up : Nat := match node with | some i => i | none => 0xFF
    match (List.range ds.length).find? (fun c => (match tree[c]? with | some p => p.toNat == up | none => false) && ds[c]? == some want) with
    | none => ([], want)
    | some c => let r := acceptPath tree ds ts n (some c); (c :: r.1, r.2)

/-- UINT32 tokens. -/
def tokensOf (n : Nat) (b : List Byte) : List Nat := (List.range n).map fun i => leNat ((b.drop (4 * i)).take 4)

/-- Bytes of slot `x` of a part: pieces of a frame (offset, bytes) for a KV head. -/
def slotPieces (h d k kf vf x : Nat) (values : Bool) : List (Nat × Nat) :=
  let f := if values then vf else kf
  let at_ := if values then valuesAt h d kf vf k else keysAt h d kf k
  if f = kvMxfp4 then [(at_ + x * (d / 2), d / 2), (at_ + 256 * (d / 2) + x * (d / 32), d / 32)]
  else [(at_ + x * tokenBytes f d, tokenBytes f d)]

/-- All pieces of slot `x` in a frame. -/
def Frame.slot (e : Frame) (h d x : Nat) : List (Nat × Nat) :=
  (List.range h).flatMap fun k => slotPieces h d k e.kfmt e.vfmt x false ++ slotPieces h d k e.kfmt e.vfmt x true

/-- Move slot `a` to slot `b` in a frame. -/
def State.moveSlot (s : State) (c h d : Nat) (e : Frame) (a b : Nat) : State :=
  ((e.slot h d a).zip (e.slot h d b)).foldl (fun t p =>
    (t.touch c (e.base + p.1.1) p.1.2 false).dramWrite c (e.base + p.2.1) (t.dramRead c (e.base + p.1.1) p.1.2)) s

/-- Slot `x` of a frame becomes undefined (R152). -/
def State.undefSlot (s : State) (c h d : Nat) (e : Frame) (x : Nat) : State :=
  (e.slot h d x).foldl (fun t p => t.dramUndef c (e.base + p.1) p.2) s

/-- Complete an ACCEPT: its hold ends with it. -/
def State.acceptDone (s : State) (w : Work) (status words : Nat) : State := (s.releaseHolds w).complete w status 0 words

/-- Class words of an ACCEPT's record (R154). -/
def acceptWords (path : List Nat) (bonus len : Nat) : Nat :=
  path.length + 2 ^ 16 * (path.map fun c => 2 ^ c).sum + 2 ^ 32 * bonus + 2 ^ 64 * len

/-- The pages that hold the candidate slots, one per layer. -/
def State.acceptFrames (s : State) (d : Desc) : List (Option Frame) :=
  (List.range (s.seq (aSeq d)).layers).map fun l =>
    (tabGet? (s.seq (aSeq d)).pages (512 * l + aQpos d / 256)).map s.frame

/-- The ACCEPT itself. An uncorrectable read fails it before its first move (R159; DESIGN CHOICE, notes/assumptions/25.md:
every source is read before a move is made). -/
def State.runAccept (s : State) (w : Work) : State :=
  let d := w.desc
  let c := w.ctx
  let n := aQlen d
  let q := s.seq (aSeq d)
  let s0 := ((s.touch c (addrOf d 40) (4 * n) false).touch c (addrOf d 48) (4 * (n + 1)) false).touch c (addrOf d 56) 16 false
  let tree := s0.dramRead c (addrOf d 56) 16
  let r := acceptPath (tree.take n) (tokensOf n (s0.dramRead c (addrOf d 40) (4 * n)))
    (tokensOf (n + 1) (s0.dramRead c (addrOf d 48) (4 * (n + 1)))) 8 none
  let moves := ((List.range r.1.length).zip r.1).filter fun m => m.1 != m.2
  let frames := s0.acceptFrames d
  let sources := (frames.filterMap id).flatMap fun f => moves.flatMap fun m =>
    (f.slot q.kvHeads q.headDim (aQpos d % 256 + m.2)).map fun p => (f.base + p.1, p.2)
  match s0.readFails c ([(addrOf d 40, 4 * n), (addrOf d 48, 4 * (n + 1)), (addrOf d 56, 16)] ++ sources) with
  | some t => t.acceptDone w stMemoryUncorrectable 0
  | none =>
  if moves ≠ [] ∧ frames.any Option.isNone then s0.acceptDone w stAccessDenied 0
  else if moves ≠ [] ∧ frames.any (fun e => match e with | some f => decide (1 < f.refs) | none => false) then
    let f := ((List.range q.layers).findSome? fun l =>
      (tabGet? q.pages (512 * l + aQpos d / 256)).filter fun g => decide (1 < (s0.frame g).refs)).getD 0
    (s0.kvErr KVP_ERR_STATUS_SHARED_WRITE (aSeq d) f).acceptDone w stAccessDenied 0
  else if moves ≠ [] ∧ frames.any (fun e => match e with | some f => s0.objectBusy f.base (4096 * f.size4k) | none => false) then
    s0.acceptDone w stAccessDenied 0
  else
    let sl := aQpos d % 256
    let s1 := frames.foldl (fun t e => match e with
      | some f => moves.foldl (fun u m => u.moveSlot c q.kvHeads q.headDim f (sl + m.2) (sl + m.1)) t
      | none => t) s0
    let s2 := frames.foldl (fun t e => match e with
      | some f => if f.refs ≤ 1 then ((List.range (n - r.1.length)).foldl (fun u i =>
          u.undefSlot c q.kvHeads q.headDim f (sl + r.1.length + i)) t) else t
      | none => t) s1
    let len := aQpos d + r.1.length
    (s2.setSeq (aSeq d) { s2.seq (aSeq d) with length := len }).acceptDone w stDone (acceptWords r.1 r.2 len)

/-- The start of an admitted ACCEPT when it is its turn: after the holds before it, and after the earlier ATTN and KERNEL
work of its ring; checks 6 to 8 again (R155, R156, R181). -/
def State.acceptStart (s : State) (w : Work) (x : SeqWork) : State :=
  if !(s.startable w x) || s.ringOrderWait w then s
  else if s.unbound x then s.acceptDone w stAccessDenied 0
  else match firstFail (s.attnSeq w.ctx 3 w.desc) with
    | some st => s.acceptDone w st 0
    | none => s.runAccept w

/-- An ATTN descriptor of one operation. -/
def attnCmd (r op : Nat) (s : State) : State := attnHead r op State.acceptStart s

/-- SEQ_START (R181): a SEQ operation or an ACCEPT that waits for its turn starts if it has come. -/
def seqStartCmd (r seq : Nat) (image : HostRd) (s : State) : State :=
  match s.work? r seq with
  | some w =>
    match w.seqw with
    | some x => if w.cls = clAttn then s.acceptStart w x else s.seqStart w x image
    | none => s
  | none => s

end Sys2Proof.Machine
end

