-- ==== Sys2Proof/Machine/Engine.lean ====
section
/-! DEFINITION. The Pointing Engines: access queues and their address streams, DRAM requests and their returns, Relief on
the way, and KVPAGE streams (Pointing Engines, Graphs and Set Operators, R96 to R104, R116; R67; R132 to R138; R172, R176).
A read queue's entries are numbered as its stream orders them, a write queue's as they are pushed. -/

namespace Sys2Proof.Machine

/-! ## Queues and slots (R96, R97, R99) -/

/-- The padding index (R103). -/
def padIndex : W32 := 0xFFFFFFFF

/-- Bank-space address of the slot of a queue's entry `n` (R96). -/
def slotAddr (t : Nat) (d : QueueDecl) (n : Nat) : Nat :=
  (8 * t + d.stageBank) * 0x100000 + d.stageAt + 64 * (n % 2 ^ d.depthLog2)

/-- Does the queue write to DRAM (R97, R176)? -/
def queueWrites (d : QueueDecl) : Bool :=
  d.kind == 7 || d.kind == 8 || (match d.kv with | some k => k.write | none => false)

/-- A requester's place in consumer and producer sets (R97). -/
def userOf : Requester → Option Nat
  | .sequencer => some 0
  | .vector => some 1
  | .me e => some (2 + e.val)
  | _ => none

/-- The entries that every member of the queue's set has released or pushed. -/
def PeQueue.common (x : PeQueue) : Nat :=
  match ((List.range 6).filter fun i => x.decl.users.getLsbD i).map fun i => tabGetD x.seen i 0 with
  | n :: ns => ns.foldl min n
  | [] => 0

/-- Replace a queue of a tile; PE_QUEUE shows its entries filled and not released (R116). -/
def State.setQueue (s : State) (t q : Nat) (x : PeQueue) : State :=
  let n := if queueWrites x.decl then x.common - x.issued else x.filled.length
  (s.setTile t { s.tile t with queues := tabSet (s.tile t).queues q x }).setFld (PE_QUEUE t q) PE_QUEUE_FILLED n

/-- Entries of a queue have left their slots. -/
def State.consumed (s : State) (t q n : Nat) : State := s.addWrap (PE_QUEUE t q) PE_QUEUE_CONSUMED n

/-- The slots that a read queue has free (R98, R99). -/
def PeQueue.room (x : PeQueue) : Nat := 2 ^ x.decl.depthLog2 - (x.issued - x.common)

/-- How many of the next `n` entries stand before every unreleased barrier mark of the stream (R67). -/
def State.unmarked (s : State) (t : Nat) (x : PeQueue) (n : Nat) : Nat :=
  x.decl.marks.foldl (fun m b =>
    if tabGetD (s.tile t).released b.bar 0 < b.uses then min m (b.entry - x.issued) else m) n

/-- The entry of a queue that a member of its set reads or writes next in a slot (R97): its first entry not yet released or
pushed that lies there. -/
def PeQueue.entryAt (x : PeQueue) (u slot : Nat) : Nat :=
  let n := tabGetD x.seen u 0
  let m := 2 ^ x.decl.depthLog2
  n + (slot + m - n % m) % m

/-- The slot number of a bank-space address in the queue's staging region. -/
def slotNumber (t : Nat) (d : QueueDecl) (a : Nat) : Option Nat :=
  let lo := slotAddr t d 0
  if lo ≤ a && a < lo + 64 * 2 ^ d.depthLog2 then some ((a - lo) / 64) else none

/-- Must an access wait for its queue: a consumer for an entry that is not filled, a producer for a slot that is not free
(R51, R99)? -/
def PeQueue.blocks (x : PeQueue) (t u a : Nat) (write : Bool) : Bool :=
  x.decl.users.getLsbD u && match slotNumber t x.decl a with
    | none => false
    | some i =>
      let n := x.entryAt u i
      if queueWrites x.decl then write && decide (x.issued + 2 ^ x.decl.depthLog2 ≤ n)
      else !write && !(x.filled.any fun e => e.1 == n)

/-- Must an access of a tile's engine wait for one of its queues? -/
def State.queueHolds (s : State) (t : Nat) (who : Requester) (a : Nat) (write : Bool) : Bool :=
  match userOf who with
  | some u => (s.tile t).queues.any fun p => p.2.blocks t u a write
  | none => false

/-- A member of the set is done with its next entry: DESIGN CHOICE (notes/assumptions/24.md), when its access of the last
byte of the entry's slot has been served. A slot that every consumer has released is free. -/
def State.userDone (s : State) (t q u : Nat) (x : PeQueue) : State :=
  let y := { x with seen := tabSet x.seen u (tabGetD x.seen u 0 + 1) }
  if queueWrites x.decl then s.setQueue t q y
  else (s.setQueue t q { y with filled := y.filled.filter fun e => decide (y.common ≤ e.1) }).consumed t q (y.common - x.common)

/-- Is the access the last one of a member's next entry? -/
def PeQueue.endsEntry (x : PeQueue) (t u a n : Nat) (write : Bool) : Bool :=
  let last := slotAddr t x.decl (tabGetD x.seen u 0) + 63
  x.decl.users.getLsbD u && queueWrites x.decl == write && decide (a ≤ last) && decide (last < a + n)

/-- A tile's engine was served at a bank: the entries that this releases or pushes (R97, R99). -/
def State.served (s : State) (who : Requester) (a n : Nat) (write : Bool) : State :=
  let t := bankOf a / 8
  match userOf who with
  | some u => (s.tile t).queues.foldl (fun v p => if p.2.endsEntry t u a n write then v.userDone t p.1 u p.2 else v) s
  | none => s

/-! ## Requests (R98, R100, R102, R103) -/

/-- The engine stops issuing at 256 outstanding requests (R98). -/
def State.peFull (s : State) (t : Nat) : Bool := decide (256 ≤ s.fld (PE_STATUS t) PE_STATUS_OUTSTANDING)

/-- Clocks blocked by the limit. -/
def State.peStallOut (s : State) (c t : Nat) : State :=
  (s.addSat (PE_OUTSTANDING_STALL t) PE_OUTSTANDING_STALL_CLOCKS 1).count 0x07 c t 1

/-- Clocks without a free slot. -/
def State.peStallRun (s : State) (t : Nat) : State := s.addSat (PE_RUNAHEAD_STALL t) PE_RUNAHEAD_STALL_CLOCKS 1

/-- Stop the work of a tile (R66, R159). -/
def State.stopTile (s : State) (w : Work) (status : Nat) : State :=
  if w.kern.isSome then s.stopKernel w status else s.stopAttn w status

/-- A refused DRAM request stops the work with ACCESS_DENIED and ADDR_RANGE (R103, R269, R270). -/
def State.peDeny (s : State) (w : Work) (t : Nat) (prot : Bool) : State :=
  let s1 := s.setBit (PE_ERR_STATUS t) PE_ERR_STATUS_ADDR_RANGE true
  (if prot then s1.protErr w.ctx else s1).stopTile w stAccessDenied

/-- An index out of range ends the kernel (R103). -/
def State.indexRange (s : State) (w : Work) (t q : Nat) (index : Nat) : State :=
  let s1 := if s.bit (PE_ERR_STATUS t) PE_ERR_STATUS_INDEX_RANGE then s
    else (s.setFld (PE_ERR_INFO t) PE_ERR_INFO_INDEX index).setFld (PE_ERR_INFO t) PE_ERR_INFO_QUEUE q
  (s1.setBit (PE_ERR_STATUS t) PE_ERR_STATUS_INDEX_RANGE true).stopTile w stAccessDenied

/-- Does the engine have an outstanding write of the granule (R100)? -/
def State.storing (s : State) (t addr : Nat) : Bool := (s.tile t).inFlight.any fun r => !r.use.reads && r.addr == addr

/-- A request joins those outstanding. -/
def State.peIssue (s : State) (w : Work) (t : Nat) (r : PeOut) : State :=
  let x := s.tile t
  let fs := x.inFlight ++ [{ r with at_ := s.now }]
  ((s.peCount w.ctx t).setTile t { x with inFlight := fs }).setFld (PE_STATUS t) PE_STATUS_OUTSTANDING fs.length

/-- A request is issued unless the limit is reached, an earlier write of its granule is outstanding, or its address is
refused; `k` is what else its issue changes. -/
def State.peAsk (s : State) (w : Work) (t : Nat) (r : PeOut) (k : State → State) : State :=
  if s.peFull t then s.peStallOut w.ctx t
  else if r.use.reads && s.storing t r.addr then s
  else match s.peRefused w r.addr 64 (!r.use.reads) with
    | some p => s.peDeny w t p
    | none => k (s.peIssue w t r)

/-- A fill reservation of a bank begins or ends (R87). -/
def State.reserve (s : State) (g : Nat) (up : Bool) : State :=
  let b := s.bankSt g
  s.setBank g { b with outstanding := if up then b.outstanding + 1 else b.outstanding - 1 }

/-- A read of granule `addr` that delivers blocks `first` on to the next `n` entries of its queue, which moves on to `y` (R98,
R99): it needs that many free slots, and reserves each one's bank. -/
def State.peRead (s : State) (w : Work) (t q : Nat) (x : PeQueue) (addr row first n : Nat) (y : Nat → PeQueue) : State :=
  let m := s.unmarked t x n
  if m = 0 then s
  else if x.room < m then s.peStallRun t
  else
    s.peAsk w t { q := q, addr := addr, use := .fill, idx := x.issued, row := row, first := first, n := m, at_ := 0 } fun u =>
      ((List.range m).foldl (fun v i => v.reserve (bankOf (slotAddr t x.decl (x.issued + i))) true) u).setQueue t q
        { y m with issued := x.issued + m }

/-- A queue needs element `e` of its index list, or of its pointer or row list: the granule that holds it is read into the
index buffer, unless that read is outstanding (R102). -/
def State.peIndex (s : State) (w : Work) (t q : Nat) (d : QueueDecl) (pointers : Bool) (e : Nat) : State :=
  let list := if pointers then d.pointers else d.index
  let a := (list + 4 * e) / 64 * 64
  let lo := (max a list - list) / 4
  let use : PeUse := .index pointers lo ((a + 64 - (list + 4 * lo)) / 4)
  if (s.tile t).inFlight.any fun r => r.q == q && r.use == use then s
  else s.peAsk w t { q := q, addr := a, use := use, at_ := 0 } id

/-- An entry becomes available to its consumers (R99). -/
def State.fillEntry (s : State) (f : PeFill) (bytes : List Byte) : State :=
  match tabGet? (s.tile f.tile).queues f.q with
  | none => s
  | some x =>
    (s.bankWrite (slotAddr f.tile x.decl f.entry) bytes).setQueue f.tile f.q { x with filled := x.filled ++ [(f.entry, f.row)] }

/-- A request has delivered everything: it is no longer outstanding. -/
def State.peRetire (s : State) (t : Nat) (r : PeOut) : State :=
  let x := s.tile t
  let fs := x.inFlight.erase r
  (s.setTile t { x with inFlight := fs }).setFld (PE_STATUS t) PE_STATUS_OUTSTANDING fs.length

/-- A fill write has been served: the entry is filled, its reservation ends, and the request that brought it is one block
nearer its end (R87, R98, R99). -/
def State.fillServed (s : State) (f : PeFill) (bytes : List Byte) : State :=
  let s1 := s.fillEntry f bytes
  if f.asked then
    let x := s1.tile f.tile
    let mine := fun r : PeOut => r.q == f.q && r.use == .fill && decide (r.idx ≤ f.entry) && decide (f.entry < r.idx + r.n)
    let fs := (x.inFlight.map fun r => if mine r then { r with left := r.left.map (· - 1) } else r).filter fun r =>
      !(mine r && r.left == some 0)
    let s2 := (s1.setTile f.tile { x with inFlight := fs }).setFld (PE_STATUS f.tile) PE_STATUS_OUTSTANDING fs.length
    match tabGet? x.queues f.q with
    | some y => let g := bankOf (slotAddr f.tile y.decl f.entry); (s2.reserve g false).advanceHandover g
    | none => s2
  else s1

/-- Can the bank take a fill write in this clock, no other request being presented? -/
def State.bankFree (s : State) (g : Nat) : Bool :=
  s.bankPwr g == pwrOn && !(s.bankClearing g) && (s.bankSt g).waiting == [] && (s.bankSt g).rmwAt.isNone

/-- A fill write goes to its bank: it is served at once when nothing contends for the port, and waits there otherwise (R82,
R83). -/
def State.fillSlot (s : State) (f : PeFill) (bytes : List Byte) : State :=
  match tabGet? (s.tile f.tile).queues f.q with
  | none => s
  | some x =>
    let a := slotAddr f.tile x.decl f.entry
    let g := bankOf a
    if s.bankFree g then s.fillServed f bytes
    else
      let b := s.bankSt g
      let req : BankReq := { who := .peFill, addr := a, len := 64, write := some bytes, ctx := s.bankCtx g }
      s.setBank g { b with waiting := b.waiting ++ [{ req := req, since := b.clock + 1, passed := true, fill := some f }] }

/-- The padding index delivers a zero granule without a DRAM access (R103). -/
def State.pePad (s : State) (t q : Nat) (x y : PeQueue) (row : Nat) : State :=
  if s.unmarked t x 1 = 0 then s
  else if x.room = 0 then s.peStallRun t
  else
    let s1 := (s.addSat (PE_PAD_COUNT t) PE_PAD_COUNT_GRANULES 1).setQueue t q { y with issued := x.issued + 1 }
    s1.fillSlot { tile := t, q := q, entry := x.issued, row := row, asked := false } (List.replicate 64 0)

/-! ## The address streams (Table 1) -/

/-- Where the stream stands: nothing is left, an element of the index buffer is missing (of the pointer or row list when
`pointers`), the next granules of the map or table, the padding index, an index out of range, or a row that delivers nothing,
in disorder or empty. -/
inductive PeNext where
  | done
  | index (pointers : Bool) (elem : Nat)
  | granule (block left row : Nat)
  | pad (row : Nat)
  | range (index : Nat)
  | skip (disorder : Bool)
  deriving DecidableEq, Repr

/-- The next granules of the feature row of an index (R101 to R103); `sub` is the row within a BELL block. -/
def PeQueue.feature (x : PeQueue) (elem row : Nat) : PeNext :=
  let d := x.decl
  match tabGet? x.indices elem with
  | none => .index false elem
  | some v =>
    if v = padIndex then .pad row
    else
      let r := if d.kind = 5 then v.toNat * d.block + x.sub else v.toNat
      if d.rows ≤ r then .range v.toNat
      else .granule (r * d.rowGranules + x.gran) (d.rowGranules - x.gran) row

/-- What the stream does next. DESIGN CHOICE (notes/assumptions/24.md): an index of BELL is out of range when a feature row
that it stands for is. -/
def PeQueue.next (x : PeQueue) : PeNext :=
  let d := x.decl
  match d.kind with
  | 0 => if x.gran < d.len then .granule x.gran (d.len - x.gran) 0 else .done
  | 8 => if x.gran < d.len then .granule x.gran (d.len - x.gran) 0 else .done
  | 1 => if x.row < d.rows then .granule (x.row * d.stride + x.gran) (d.rowGranules - x.gran) 0 else .done
  | 3 =>
    if d.lastRow < x.row then .done
    else match tabGet? x.ptrs x.row, tabGet? x.ptrs (x.row + 1) with
      | none, _ => .index true x.row
      | _, none => .index true (x.row + 1)
      | some a, some b =>
        if b.toNat < a.toNat then .skip true
        else if b.toNat ≤ a.toNat + x.elem then .skip false
        else if d.indexLen ≤ a.toNat + x.elem then .range (a.toNat + x.elem)
        else x.feature (a.toNat + x.elem) x.row
  | 4 =>
    if d.indexLen ≤ x.elem then .done
    else match tabGet? x.ptrs x.elem with
      | none => .index true x.elem
      | some r => x.feature x.elem r.toNat
  | 5 => if x.elem < d.indexLen then x.feature x.elem (x.elem / max 1 d.width) else .done
  | 6 => .done
  | _ => if x.elem < d.indexLen then x.feature x.elem 0 else .done

/-- Rows that one index of the queue stands for. -/
def indexRows (d : QueueDecl) : Nat := if d.kind = 5 then d.block else 1

/-- The stream after `n` granules. -/
def PeQueue.advance (x : PeQueue) (n : Nat) : PeQueue :=
  let d := x.decl
  let g := x.gran + n
  if d.kind = 0 ∨ d.kind = 8 then { x with gran := g }
  else if g < d.rowGranules then { x with gran := g }
  else if d.kind = 1 then { x with gran := 0, row := x.row + 1 }
  else if x.sub + 1 < indexRows d then { x with gran := 0, sub := x.sub + 1 }
  else { x with gran := 0, sub := 0, elem := x.elem + 1 }

/-- The DRAM address of a granule of the map or table, and the block within its compressed granule (R137). -/
def granuleAt (d : QueueDecl) (block : Nat) : Nat × Nat :=
  let r := reliefRatio d.relief
  (d.base + 64 * ((d.baseGranule + block) / r), (d.baseGranule + block) % r)

/-! ## Writes (R99, R100, R104, R138) -/

/-- A granule toward DRAM becomes an outstanding write. -/
def State.peStore (s : State) (w : Work) (t q addr : Nat) (bytes : List Byte) (k : State → State) : State :=
  s.peAsk w t { q := q, addr := addr, use := .store bytes, at_ := 0 } k

/-- The engine takes the next pushed entry of a write queue out of its slot and moves the queue on to `y`: the granule is
written, or gathered into a compressed granule that is written when it is whole or, with `last`, completed with zero blocks.
DESIGN CHOICE (notes/assumptions/24.md): the read of the slot is served in the clock of the request. -/
def State.peTake (s : State) (w : Work) (t q : Nat) (x y : PeQueue) (addr : Nat) (last : Bool) : State :=
  let slot := slotAddr t x.decl x.issued
  let g := s.bankRead slot 64
  match s.bankFails [(slot, 64)] with
  | some s1 => (s1.setBit (TILE_ERR_STATUS t) TILE_ERR_STATUS_MEM_UNCORR true).stopTile w stMemoryUncorrectable
  | none =>
    let z := { y with issued := x.issued + 1 }
    if x.decl.relief = 0 then s.peStore w t q addr g fun u => (u.setQueue t q z).consumed t q 1
    else
      let all := (if x.pushAddr = addr then x.pushed else []) ++ g
      if all.length < 64 * reliefRatio x.decl.relief && !last then
        (s.setQueue t q { z with pushed := all, pushAddr := addr }).consumed t q 1
      else
        let c := reliefGranule x.decl all
        s.peStore w t q addr c.1 fun u =>
          ((u.setQueue t q { z with pushed := [], pushAddr := addr }).reliefCount t c.2).consumed t q 1

/-- The next step of a write queue's stream: nothing before every producer has pushed the entry (R99). SCATTER drops the rows
of the padding index, granule by granule (R103). -/
def State.peWrite (s : State) (w : Work) (t q : Nat) (x : PeQueue) : State :=
  match x.next with
  | .index p e => s.peIndex w t q x.decl p e
  | .range i => s.indexRange w t q i
  | .granule b n _ =>
    if x.common ≤ x.issued || s.unmarked t x 1 == 0 then s
    else s.peTake w t q x (x.advance 1) (granuleAt x.decl b).1 (n == 1)
  | .pad _ =>
    if x.common ≤ x.issued then s
    else (((s.addSat (PE_PAD_COUNT t) PE_PAD_COUNT_GRANULES 1).setQueue t q { x.advance 1 with issued := x.issued + 1 }).consumed
      t q 1)
  | .done => s
  | .skip _ => s

/-- The next step of a read queue's stream (R101 to R103, R137): a compressed granule delivers the needed blocks that it
holds. -/
def State.peFill (s : State) (w : Work) (t q : Nat) (x : PeQueue) : State :=
  match x.next with
  | .done => s
  | .index p e => s.peIndex w t q x.decl p e
  | .range i => s.indexRange w t q i
  | .skip disorder =>
    (if disorder then s.setBit (PE_ERR_STATUS t) PE_ERR_STATUS_ROW_PTR_ORDER true else s).setQueue t q
      { x with row := x.row + 1, elem := 0, gran := 0 }
  | .pad row => s.pePad t q x (x.advance 1) row
  | .granule b n row =>
    let a := granuleAt x.decl b
    s.peRead w t q x a.1 row a.2 (min (reliefRatio x.decl.relief - a.2) n) x.advance

/-! ## KVPAGE streams (R172, R176) -/

/-- Where the granule at an offset of a page lies (Table 1 of KV Cache Paging, Pre-emption and Swap): its part (0 keys, 1
values, 2 scales), its KV head, and its first position in the page. A granule of the scales starts with a multiple of 8
heads. -/
def kvPlace (h d kf vf off : Nat) : Nat × Nat × Nat :=
  let inHead := fun f r => if f = kvMxfp4 then
      (if r < 128 * d then r / (d / 2) else (r - 128 * d) / (d / 32)) else r / max 1 (tokenBytes f d)
  if off < scaleArea h then (2, off / 8, 0)
  else if off < valuesAt h d kf vf 0 then
    let r := off - scaleArea h
    (0, r / (256 * tokenBytes kf d), inHead kf (r % (256 * tokenBytes kf d)))
  else
    let r := off - valuesAt h d kf vf 0
    (1, r / (256 * tokenBytes vf d), inHead vf (r % (256 * tokenBytes vf d)))

/-- Is the granule one that the declared stream covers (R176)? -/
def kvCovers (k : KvDecl) (page : Nat) (p : Nat × Nat × Nat) : Bool :=
  let pos := 256 * page + p.2.2
  p.1 == k.part && inR (if k.part = 2 then k.headLo / 8 * 8 else k.headLo) k.headHi p.2.1 &&
    (if k.part = 2 then inR (k.posLo / 256) (k.posHi / 256) page else inR k.posLo k.posHi pos)

/-- Bytes of the page in a frame, for a sequence. -/
def State.entBytes (s : State) (e : WalkEnt) : Nat :=
  pageBytes (s.seq e.seqId).kvHeads (s.seq e.seqId).headDim e.kfmt e.vfmt

/-- The translation of a page for a kernel's stream: the queue keeps it until the stream moves to another page (R175). A
failure stops the kernel (R172). -/
def State.kvTranslate (s : State) (w : Work) (t q : Nat) (x : PeQueue) (k : KvDecl) (j : Nat) (leafBad listBad : Bool) :
    State × Option (PeQueue × WalkEnt) :=
  match x.cur.filter (·.of w.ctx k.seqId k.layer j) with
  | some e => (s, some (x, e))
  | none =>
    match s.translate (t / 8) w.ctx k.seqId k.layer j leafBad listBad with
    | (s1, .inl (e, _)) => let y : PeQueue := { x with cur := some e }; (s1.setQueue t q y, some (y, e))
    | (s1, .inr true) =>
      (((s1.setBit (PE_ERR_STATUS t) PE_ERR_STATUS_MEM_UNCORR true).setBit (TILE_ERR_STATUS t) TILE_ERR_STATUS_MEM_UNCORR
        true).stopTile w stMemoryUncorrectable, none)
    | (s1, .inr false) => ((s1.attnErr t ATTN_ERR_STATUS_PAGE_UNMAPPED j 0).stopTile w stAccessDenied, none)

/-- A granule of a KV page for a kernel's queue. A write at or beyond the sequence's length, or to a shared frame, stops the
kernel (R176). DESIGN CHOICE (notes/assumptions/24.md): the position of a granule is the first that it holds. -/
def State.kvGranule (s : State) (w : Work) (t q : Nat) (x : PeQueue) (k : KvDecl) (j off : Nat) (leafBad listBad : Bool) : State :=
  if k.write && x.common ≤ x.issued then s
  else if s.peFull t then s.peStallOut w.ctx t
  else match s.kvTranslate w t q x k j leafBad listBad with
    | (s1, none) => s1
    | (s1, some (y, e)) =>
      let sq := s1.seq k.seqId
      let p := kvPlace sq.kvHeads sq.headDim e.kfmt e.vfmt off
      if s1.entBytes e ≤ off || !(kvCovers k j p) then s1
      else if k.write then
        if sq.length ≤ 256 * j + p.2.2 then s1.stopTile w stAccessDenied
        else if 1 < (s1.frame e.frame).refs then
          (s1.kvErr KVP_ERR_STATUS_SHARED_WRITE k.seqId e.frame).stopTile w stAccessDenied
        else s1.peTake w t q y y (e.base + off) true
      else s1.peRead w t q y (e.base + off) 0 0 1 fun _ => y

/-- The queue of an ATTN's block fetches: attention code declares none of its own. -/
def attnQueue (q : Nat) : PeQueue := { decl := { q := q, kind := 6, depthLog2 := 12, users := 0, stageBank := 0, stageAt := 0 } }

/-- A granule of a page for the item that a tile of an ATTN is on (R149, R159, R172). -/
def State.attnGranule (s : State) (w : Work) (l t q j off : Nat) (leafBad listBad : Bool) : State :=
  let aux := s.attnRead w 56 (aAuxLen w.desc w.op)
  let qs := s.attnRead w 40 (aQbytes w.desc)
  if s.peFull t then s.peStallOut w.ctx t
  else match w.itemFor aux l t j with
    | none => s
    | some it =>
      match s.finishItems w qs aux l t ((w.itemsLeft l t).filter fun i => decide (i.1 < it.1)) with
      | (s1, none) => s1
      | (s1, some w1) =>
        match s1.fetchBelow w1 t it ((itemBlocks w.desc w.op aux it.2).filter fun b => decide (b < j)) with
        | (s2, none) => s2
        | (s2, some w2) =>
          match s2.fetchBlock w2 t it.1 it.2.1 j leafBad listBad with
          | (s3, none) => s3
          | (s3, some w3) =>
            match w3.blockEnt it.1 j with
            | some e => if s3.entBytes e ≤ off then s3
              else s3.peAsk w3 t { q := q, addr := e.base + off, use := .page j e.kfmt e.vfmt, at_ := 0 } id
            | none => s3

/-! ## Commands -/

/-- The logical number of a placed tile. -/
def Work.logical (w : Work) (t : Nat) : Nat := w.tiles.findIdx (· == t)

/-- A step of a kernel's queue. -/
def State.peStep (s : State) (w : Work) (t q : Nat) (req : PeReq) : State :=
  match tabGet? (s.tile t).queues q with
  | none => s
  | some x =>
    match req, x.decl.kv with
    | .next, none => if queueWrites x.decl then s.peWrite w t q x else s.peFill w t q x
    | .kv j off lb tb, some k => s.kvGranule w t q x k j (off / 64 * 64) lb tb
    | _, _ => s

/-- PE_REQUEST (R96, R98): one step of a queue that the present kernel step declares, or a page granule of an ATTN. A later
step's first request enters that step, once nothing of the earlier one is outstanding. -/
def peRequest (t step q : Nat) (req : PeReq) (s : State) : State :=
  match s.tileWork t with
  | none => s
  | some w =>
    if w.stage ≠ .running ∨ 8 ≤ q then s
    else match w.kern, req with
      | some k, _ =>
        if step = (s.tile t).step then s.peStep w t q req
        else if (s.tile t).step < step && decide (step < k.entry.steps.length) && (s.tile t).inFlight == [] then
          (s.enterStep t k step).peStep w t q req
        else s
      | none, .kv j off lb tb => s.attnGranule w (w.logical t) t q j (off / 64 * 64) lb tb
      | none, .next => s

/-- The blocks that a granule brings go to their slots, decoded under Relief (R135 to R137). -/
def State.deliver (s : State) (c t : Nat) (r : PeOut) (d : QueueDecl) (bytes : List Byte) : State :=
  let fill := fun (u : State) (i : Nat) (b : List Byte) =>
    u.fillSlot { tile := t, q := r.q, entry := r.idx + i, row := r.row, asked := true } b
  if d.relief = 0 then fill s 0 bytes
  else
    let f := (fmtOf d.fmt).getD .int8
    let n := reliefBlockBytes d.relief
    (List.range r.n).foldl (fun u i =>
      let b := reliefDecodeBlock f d.relief ((bytes.drop (n * (r.first + i))).take n)
      let u1 := ((u.addSat (PE_RELIEF_DEC t) PE_RELIEF_DEC_GRANULES 1).addSat (PE_RELIEF_GROUPS t) PE_RELIEF_GROUPS_SPECIAL
        b.2.1).addSat (PE_RELIEF_GROUPS t) PE_RELIEF_GROUPS_ODD_GROUPS b.2.2
      fill (u1.count 0x08 c t 1) i b.1) s

/-- The elements that an index read brings, by number. -/
def indexElems (addr list lo n : Nat) (bytes : List Byte) : Tab W32 :=
  (List.range n).map fun i => (lo + i, BitVec.ofNat 32 (leNat ((bytes.drop (list + 4 * (lo + i) - addr)).take 4)))

/-- The data of a clean or corrected read arrive: what the granule held when the engine's own later writes of it had not been
accepted (R100). -/
def State.peArrive (s : State) (w : Work) (t : Nat) (r : PeOut) : State :=
  let c := w.ctx
  let s1 := (s.touch c r.addr 64 false).sample 0x03 c t ((s.now - r.at_) * s.fld (GLB_CLU_FREQ (t / 8)) GLB_CLU_FREQ_MHZ)
  let bytes := r.before.getD (s1.dramRead c r.addr 64)
  match r.use, tabGet? (s1.tile t).queues r.q with
  | .fill, some x =>
    let y := s1.tile t
    let s2 := s1.setTile t { y with inFlight := y.inFlight.map fun e => if e == r then { e with left := some r.n } else e }
    s2.deliver c t r x.decl bytes
  | .index p lo n, some x =>
    let es := indexElems r.addr (if p then x.decl.pointers else x.decl.index) lo n bytes
    (s1.peRetire t r).setQueue t r.q (if p then { x with ptrs := es.foldl (fun m e => tabSet m e.1 e.2) x.ptrs }
      else { x with indices := es.foldl (fun m e => tabSet m e.1 e.2) x.indices })
  | _, _ => s1.peRetire t r

/-- An uncorrectable read stops its work (R66, R159). -/
def State.peUncorrected (s : State) (w : Work) (t : Nat) (r : PeOut) : State :=
  let s1 := ((s.touch w.ctx r.addr 64 false).ueDemand r.addr w.ctx).peRetire t r
  let s2 := (s1.setBit (PE_ERR_STATUS t) PE_ERR_STATUS_MEM_UNCORR true).setBit (TILE_ERR_STATUS t)
    TILE_ERR_STATUS_MEM_UNCORR true
  (if w.attn.isSome then s2.attnErr t ATTN_ERR_STATUS_MEM_UNCORR (match r.use with | .page j _ _ => j | _ => 0) 0
    else s2).stopTile w stMemoryUncorrectable

/-- The write of a request that is accepted: the engine's oldest outstanding one of its granule (R100). -/
def oldestStore (rs : List PeOut) (addr : Nat) : Option PeOut := rs.find? fun r => !r.use.reads && r.addr == addr

/-- PE_FILL_RETURN (R98 to R100): the answer to the oldest request of a queue that has none yet: a read's data, or a write's
acceptance by its cache slice. -/
def peFillReturn (t q : Nat) (ecc : Ecc) (s : State) : State :=
  match s.tileWork t, (s.tile t).inFlight.find? (fun r => r.q == q && r.left.isNone) with
  | some w, some r =>
    if !r.use.reads then
      (match oldestStore (s.tile t).inFlight r.addr with
      | some r0 => (match r0.use with | .store bs => s.acceptStore w.ctx t r0 bs | _ => s)
      | none => s)
    else (match (if (s.badLine r.addr 64).isSome then Ecc.uncorrectable else ecc) with
      | .clean => s.peArrive w t r
      | .corrected => (s.eccCorrected (dramChannel r.addr)).peArrive w t r
      | .uncorrectable => s.peUncorrected w t r)
  | _, _ => s

end Sys2Proof.Machine
end

