-- ==== Sys2Proof/Machine/Codec.lean ====
section
/-! DEFINITION. CODEC work: streams, slots, the coded picture buffer, pictures and their stops (Video Decode and Encode,
R212 to R230). The coding choices and the decoded samples come with the command (notes/assumptions/4.md). -/

namespace Sys2Proof.Machine

/-! ## Streams -/

def State.stream? (s : State) (n : Nat) : Option Stream := tabGet? s.vcd.streams n
def State.setStream (s : State) (n : Nat) (x : Stream) : State :=
  { s with vcd := { s.vcd with streams := tabSet s.vcd.streams n x } }

/-- The lowest free stream number (R213). -/
def State.freeStream (s : State) : Option Nat := (List.range 64).find? fun n => (s.stream? n).isNone

/-- Is a stream registered to a context? -/
def State.streamOf (s : State) (c n : Nat) : Bool := match s.stream? n with | some x => x.ctx == c | none => false

/-- Arrival rate (Table 3). -/
def Stream.rate (x : Stream) : Nat := if x.rateMode = 2 then x.peakRate else x.bitrate

/-- Bits per picture interval, rounded down (R222). -/
def Stream.perInterval (x : Stream) : Nat := x.rate * x.fpsDen / x.fpsNum

/-- HEIGHT rounded up (R215). -/
def halOf (codec height : Nat) : Nat := if codec = 1 then (height + 63) / 64 * 64 else (height + 15) / 16 * 16

/-- SLOT_LEN (R215). -/
def slotLen (codec height pitch : Nat) : Nat := 4096 * ((64 + pitch * halOf codec height * 3 / 2 + 4095) / 4096)

/-- STATE_LEN (R215). -/
def stateLen (codec width height slots : Nat) : Nat :=
  (262144 + slots * 16 * ((width + 15) / 16) * ((halOf codec height + 15) / 16) + 4095) / 4096 * 4096

/-- Bytes of an input picture (R215). -/
def pictureLen (codec height pitch : Nat) : Nat := pitch * halOf codec height * 3 / 2

def Stream.slotLen (x : Stream) : Nat := Sys2Proof.Machine.slotLen x.codec x.height x.pitch
def Stream.stateLen (x : Stream) : Nat := Sys2Proof.Machine.stateLen x.codec x.width x.height x.dpbSlots

/-- DRAM address of a slot. -/
def Stream.slotAt (x : Stream) (i : Nat) : Nat := x.dpbAddr + i * x.slotLen

/-- CTB or macroblock columns (R223). -/
def Stream.columns (x : Stream) : Nat := if x.codec = 1 then (x.width + 63) / 64 else (x.width + 15) / 16

/-- LOW_LATENCY. -/
def Stream.lowLatency (x : Stream) : Bool := x.flags.getLsbD 0

/-- Slots in use (R226). -/
def Stream.inUse (x : Stream) : BitVec 16 := if x.encode then 0 else x.refs ||| x.waits ||| x.outs

/-- The lowest free slot of a decode stream. -/
def Stream.freeSlot (x : Stream) : Option Nat := (List.range x.dpbSlots).find? fun i => !(x.inUse.getLsbD i)

/-- Set an error bit of VCD_ERR_STATUS; VCD_ERR_INFO takes the stream of the first error. -/
def State.vcdErr (s : State) (b : Bits) (n : Nat) : State := s.raise VCD_ERR_STATUS b VCD_ERR_INFO VCD_ERR_INFO_STREAM n

/-! ## The parameter block (R214, checks 5 and 6 of R228) -/

/-- A signed byte. -/
def sByte (b : Nat) : Int := if b < 128 then (b : Int) else (b : Int) - 256

/-- The largest coded picture buffer of a level, in bits (the standards' tables, VCL factors of the profiles encoded:
notes/assumptions/18.md). -/
def levelCpb (codec level : Nat) : Nat :=
  if codec = 1 then
    1000 * (if level < 60 then 350 else if level < 63 then 1500 else if level < 90 then 3000 else if level < 93 then 6000
      else if level < 120 then 10000 else if level < 123 then 12000 else if level < 150 then 20000 else if level < 153 then 25000
      else 40000)
  else
    1250 * (if level < 11 then 175 else if level < 12 then 500 else if level < 13 then 1000 else if level < 21 then 2000
      else if level < 30 then 4000 else if level < 31 then 10000 else if level < 32 then 14000 else if level < 40 then 20000
      else if level < 41 then 25000 else if level < 50 then 62500 else if level < 51 then 135000 else 240000)

/-- Check 5: CODEC, PROFILE, LEVEL and BIT_DEPTH within Table 1; Main 10 is reserved in version 1. -/
def blockFormatOk (b : List Byte) (version : Nat) : Bool :=
  let enc := bf b 1 1 == 1
  let dp := bf b 5 1
  if bf b 0 1 = 1 then
    (bf b 2 1 == 1 || (bf b 2 1 == 2 && version != 1)) && inR 1 (if enc then 153 else 183) (bf b 3 1) &&
      (dp == 8 || (dp == 10 && bf b 2 1 == 2))
  else bf b 0 1 == 2 && bf b 2 1 == 100 && inR 1 52 (bf b 3 1) && dp == 8

/-- Picture size limits of Table 1. -/
def blockSizeOk (codec : Nat) (enc : Bool) (w h : Nat) : Bool :=
  if enc then
    if codec = 1 then inR 64 8192 w && inR 64 8192 h && w % 2 == 0 && h % 2 == 0 && decide (w * h ≤ 8912896)
    else inR 64 4096 w && inR 64 4096 h && w % 2 == 0 && h % 2 == 0 && decide (w * h ≤ 9437184)
  else if codec = 1 then inR 1 8192 w && inR 1 8192 h && decide (w * h ≤ 35651584)
  else inR 1 8688 w && inR 1 8688 h && decide (w * h ≤ 9437184)

/-- The rate fields of an encode stream (Table 3). -/
def blockRateOk (b : List Byte) : Bool :=
  let mode := bf b 14 1
  let rate := if mode = 2 then bf b 20 4 else bf b 16 4
  decide (mode ≤ 2) && (if mode = 0 then bf b 16 4 == 0 else inR 64000 800000000 (bf b 16 4)) &&
  (if mode = 2 then decide (bf b 16 4 ≤ bf b 20 4) else bf b 20 4 == 0) &&
  (if mode = 0 then bf b 24 4 == 0 && bf b 28 4 == 0
   else decide (2 * rate * bf b 36 4 ≤ bf b 24 4 * bf b 32 4) && decide (bf b 24 4 ≤ levelCpb (bf b 0 1) (bf b 3 1)) &&
     decide (bf b 28 4 * rate / 1000000 ≤ bf b 24 4)) &&
  decide (0 < bf b 36 4) && decide (bf b 36 4 ≤ bf b 32 4) && decide (bf b 32 4 ≤ 240 * bf b 36 4)

/-- A QP within the range of the depth. -/
def qpOk (ten : Bool) (q : Int) : Bool := decide ((if ten then -12 else 0) ≤ q) && decide (q ≤ 51)

/-- The QP and refresh fields of an encode stream (Table 3). -/
def blockQpOk (b : List Byte) : Bool :=
  let ten := bf b 5 1 == 10
  let cqp := bf b 14 1 == 0
  let low := bf b 4 1 % 2 == 1
  qpOk ten (sByte (bf b 40 1)) && qpOk ten (sByte (bf b 41 1)) && decide (sByte (bf b 40 1) ≤ sByte (bf b 41 1)) &&
  (if cqp then qpOk ten (sByte (bf b 42 1)) && qpOk ten (sByte (bf b 43 1)) else bf b 42 2 == 0) &&
  (if low then inR 2 256 (bf b 44 2) && bf b 46 2 == 0 else bf b 44 2 == 0)

/-- Check 6 for a REGISTER: the block within Table 3. -/
def blockOk (b : List Byte) : Bool :=
  let enc := bf b 1 1 == 1
  let fl := bf b 4 1
  decide (bf b 1 1 ≤ 1) && decide (fl < 8) && (enc || fl % 2 == 0) && (fl / 2 % 2 == 0 || (enc && bf b 0 1 == 2)) &&
  (fl / 4 % 2 == 0 || (!enc && bf b 0 1 == 1)) &&
  (if enc then inR 1 4 (bf b 7 1) && bf b 6 1 == bf b 7 1 + 1 else inR 2 16 (bf b 6 1) && bf b 7 1 == 0 && bf b 14 1 == 0) &&
  blockSizeOk (bf b 0 1) enc (bf b 8 2) (bf b 10 2) && bf b 12 2 % 64 == 0 &&
  decide (bf b 8 2 * (if bf b 5 1 = 10 then 2 else 1) ≤ bf b 12 2) && bf b 15 1 == 0 &&
  (if enc then blockRateOk b && blockQpOk b else bf b 20 4 == 0 && bf b 42 4 == 0) &&
  bf b 48 8 % 4096 == 0 && decide (bf b 48 8 < 2 ^ 40) && bf b 56 8 % 4096 == 0 && decide (bf b 56 8 < 2 ^ 40) &&
  (b.drop 64).all (· == 0)

/-- The stream that a block registers. -/
def streamOfBlock (c : Nat) (b : List Byte) : Stream :=
  let x : Stream :=
    { ctx := c, codec := bf b 0 1, encode := bf b 1 1 == 1, flags := BitVec.ofNat 8 (bf b 4 1), depth := bf b 5 1
      dpbSlots := bf b 6 1, width := bf b 8 2, height := bf b 10 2, pitch := bf b 12 2, rateMode := bf b 14 1
      profile := bf b 2 1, level := bf b 3 1, refCount := bf b 7 1, qpMin := sByte (bf b 40 1), qpMax := sByte (bf b 41 1)
      qpI := sByte (bf b 42 1), qpP := sByte (bf b 43 1), bitrate := bf b 16 4, peakRate := bf b 20 4, cpbBits := bf b 24 4, fpsNum := bf b 32 4, fpsDen := bf b 36 4
      refresh := bf b 44 2, idrInterval := bf b 46 2, stateAddr := bf b 48 5, dpbAddr := bf b 56 5 }
  { x with f := if x.encode && x.rateMode != 0 then bf b 28 4 * x.rate / 1000000 else 0 }

/-! ## The descriptor (R227, R228) -/

def vStream (d : Desc) : Nat := dF d 9 1
def vAddr (d : Desc) : Nat := dF d 16 5
def vLen (d : Desc) : Nat := dF d 24 4
def vOut (d : Desc) : Nat := dF d 32 8
def vOutLen (d : Desc) : Nat := dF d 40 4

/-- Check 1. Table 6 reserves no bits of OUT_ADDR, so an address beyond module DRAM fails check 4. -/
def codecReservedOk (d : Desc) (op version : Nat) : Bool :=
  inR 1 5 op && decide (dF d 10 1 < (if version = 1 then 2 else 4)) && dZero d 21 3 && dZero d 28 4 && dZero d 44 20

/-- Check 2. -/
def codecFieldsOk (d : Desc) (op : Nat) : Bool :=
  (if op = 1 then vStream d == 0 else decide (vStream d < 64)) && (op == 3 || (dZero d 10 2 && dZero d 32 12)) &&
  (op != 3 || (decide (0 < dF d 11 1) && vOut d % 64 == 0 && inR 64 67108864 (vOutLen d))) &&
  (op == 2 || op == 4 || dZero d 12 2) && (op == 2 || op == 3 || dZero d 14 2) &&
  (match op with
   | 1 => vAddr d % 64 == 0 && vLen d == 128
   | 2 => inR 1 16777216 (vLen d)
   | 3 => vAddr d % 4096 == 0 && vLen d == 0
   | _ => dZero d 16 8 && vLen d == 0)

/-- The regions of a CODEC descriptor: address, bytes, written (check 4). -/
def codecRegions (d : Desc) (op : Nat) (b : List Byte) (x : Option Stream) : List (Nat × Nat × Bool) :=
  if op = 1 then
    [(vAddr d, 128, false), (bf b 48 5, stateLen (bf b 0 1) (bf b 8 2) (bf b 10 2) (bf b 6 1), true),
     (bf b 56 5, bf b 6 1 * slotLen (bf b 0 1) (bf b 10 2) (bf b 12 2), true)]
  else match x with
    | none => []
    | some y =>
      [(y.stateAddr, y.stateLen, true), (y.dpbAddr, y.dpbSlots * y.slotLen, true)] ++
      (if op = 2 then [(vAddr d, vLen d, false)]
       else if op = 3 then [(vAddr d, pictureLen y.codec y.height y.pitch, false), (vOut d, vOutLen d, true)] else [])

/-- The checks of Table 7. -/
def State.codecChecks (s : State) (c op : Nat) (f : Fetched) (b : List Byte) : List (Bool × Nat) :=
  let d := f.desc
  let x := s.stream? (vStream d)
  [ (codecReservedOk d op (dF d 2 2), stBadDescriptor),
    (codecFieldsOk d op, stBadDescriptor),
    (if op = 1 then s.freeStream.isSome else s.streamOf c (vStream d), stAccessDenied),
    ((codecRegions d op b x).all (fun r => if r.2.2 then s.dramOkW c r.1 r.2.1 else s.dramOk c r.1 r.2.1), stAccessDenied),
    (op != 1 || blockFormatOk b (dF d 2 2), stFormatUnsupported),
    (if op = 1 then blockOk b else match x with
      | some y => op == 5 || (if op = 3 then y.encode else !y.encode)
      | none => false, stBadDescriptor) ]

/-- PROTECTED_ACCESS for the regions that failed check 4 for it. -/
def State.noteCodec (s : State) (c : Nat) (rs : List (Nat × Nat × Bool)) : State :=
  rs.foldl (fun t r => if r.2.2 then t.noteProtW c r.1 r.2.1 else t.noteProt c r.1 r.2.1) s

/-! ## Completions (R230) -/

/-- Class words of a DECODE's or FLUSH's record. -/
def decodeWords (slot outMask units first cycles : Nat) : Nat :=
  slot % 32 + 2 ^ 16 * (outMask % 65536) + 2 ^ 32 * (units % 2 ^ 24) + 2 ^ 64 * (first % 2 ^ 24) + 2 ^ 96 * (cycles % 2 ^ 32)

/-- Class words of an ENCODE's record. -/
def encodeWords (bytes f qp attempts cycles : Nat) : Nat :=
  bytes % 2 ^ 32 + 2 ^ 32 * (f % 2 ^ 32) + 2 ^ 64 * (qp % 256) + 2 ^ 72 * attempts + 2 ^ 96 * (cycles % 2 ^ 32)

/-- Bits of the codec flags byte. -/
def cfConcealed : Nat := 1
def cfRefConcealed : Nat := 2
def cfParam : Nat := 4
def cfNoSlot : Nat := 8
def cfFiller : Nat := 16
def cfRetry : Nat := 32
def cfIdr : Nat := 64
def cfRefresh : Nat := 128

/-! ## FLUSH and UNREGISTER -/

/-- Is a work a CODEC descriptor on stream `n`? -/
def Work.onStream (w : Work) (n : Nat) : Bool := match w.pic with | some p => p.stream == n | none => false

/-- Is the work the oldest of its stream? -/
def State.streamHead (s : State) (w : Work) (n : Nat) : Bool := !(s.hif.works.any fun v => v.onStream n && decide (v.age < w.age))

/-- FLUSH emits every remaining picture; the stream then expects an IRAP or IDR picture (R226). -/
def State.runFlush (s : State) (w : Work) (n : Nat) : State :=
  match s.stream? n with
  | some x =>
    let s1 := s.setStream n { x with outs := x.outs ||| x.waits, waits := 0, refs := 0, awaitIrap := true }
    s1.complete w stDone 0 (decodeWords 0x1F x.waits.toNat 0 0 0)
  | none => s.complete w stAccessDenied 0 (s.idleWords w.ring w.desc)

/-- UNREGISTER frees the stream; what was admitted for it afterwards names an unregistered stream (R213). -/
def State.runUnregister (s : State) (w : Work) (n : Nat) : State :=
  match s.stream? n with
  | some _ =>
    let s1 := ({ s with vcd := { s.vcd with streams := tabDel s.vcd.streams n } }).complete w stDone 0 0
    (s1.hif.works.filter (·.onStream n)).foldl (fun t v => t.complete v stAccessDenied 0 (t.idleWords v.ring v.desc)) s1
  | none => s.complete w stAccessDenied 0 0

/-- FLUSHes and UNREGISTERs whose turn has come run, at most `n` of them. -/
def State.codecNext : Nat → State → State
  | 0, s => s
  | k + 1, s =>
    match s.hif.works.find? (fun w => match w.pic with
      | some p => (w.op == 4 || w.op == 5) && s.streamHead w p.stream
      | none => false) with
    | some w =>
      match w.pic with
      | some p => State.codecNext k (if w.op = 4 then s.runFlush w p.stream else s.runUnregister w p.stream)
      | none => s
    | none => s

/-- Everything of the codec that its order lets run by itself. -/
def State.codecSettle (s : State) : State := State.codecNext s.hif.works.length s

/-! ## Admission -/

/-- A REGISTER's parameter block, once the checks before check 4 pass and the context reaches it, cannot be read (R259). -/
def State.blockFails (s : State) (c op : Nat) (f : Fetched) : Option State :=
  if op = 1 ∧ (firstFail ((s.codecChecks c op f []).take 3)).isNone ∧ s.dramOk c (vAddr f.desc) 128 then
    s.readFails c [(vAddr f.desc, 128)]
  else none

/-- A CODEC descriptor of one operation at the head of a ring (R228). REGISTER keeps PD_V0 ON and is done at once; the
others are admitted, and the slots of RELEASE_MASK are released (R226). -/
def codecCmd (r op : Nat) (s : State) : State :=
  s.withHead r clCodec op fun f =>
    match ringCtx r with
    | none => s
    | some c =>
      let d := f.desc
      let b := s.dramRead c (vAddr d) (if op = 1 then 128 else 0)
      match s.blockFails c op f, firstFail (s.codecChecks c op f b) with
      | some t, _ => t.reject r f stMemoryUncorrectable
      | none, some st =>
        (if st = stAccessDenied ∧ (firstFail ((s.codecChecks c op f b).take 3)).isNone then
          s.noteCodec c (codecRegions d op b (s.stream? (vStream d))) else s).reject r f st
      | none, none =>
        if s.roleGated c then s.reject r f stFailedOver
        else if op = 1 then
          match s.freeStream with
          | some n =>
            let s1 := if s.isOn (.codec 0) then s else s.powerOn (.codec 0)
            ((s1.touch c (vAddr d) 128 false).setStream n (streamOfBlock c b)).finishNow r f stDone 0 n
          | none => s.reject r f stAccessDenied
        else
          let n := vStream d
          let s1 := match s.stream? n with
            | some x => s.setStream n { x with outs := x.outs &&& ~~~(BitVec.ofNat 16 (dF d 12 2)) }
            | none => s
          (((s1.popHead r).addWork { mkWork r f op .waiting with pic := some { stream := n } }).settle).codecSettle

/-! ## The division of a picture (R218, R219) -/

/-- Part i of n parts of k units, divided as evenly as uniform spacing does: its first unit and the first one after it. -/
def partSpan (k n i : Nat) : Nat × Nat := (i * k / n, (i + 1) * k / n)

/-- Is every part of a dimension of `len` luma samples, in 64-sample CTBs, at least `least` samples long? -/
def partsAtLeast (len n least : Nat) : Bool :=
  (List.range n).all fun i =>
    let p := partSpan ((len + 63) / 64) n i
    decide (64 * p.1 + least ≤ min len (64 * p.2))

/-- Does a grid of tiles fit an HEVC picture (R219)? -/
def gridFits (w h : Nat) (g : Nat × Nat) : Bool := partsAtLeast w g.1 256 && partsAtLeast h g.2 64

/-- The units of a picture: of an encode from its size, of a decode from its slices. -/
def Stream.units (x : Stream) (a : PicShape) : Nat :=
  if x.encode then
    if x.codec = 1 then
      (if [(4, 2), (2, 4), (1, 8)].any (gridFits x.width x.height) then 8 else (x.height + 63) / 64)
    else min 8 ((x.height + 15) / 16)
  else if x.codec = 1 then (if 1 < a.tiles then a.tiles else if a.wavefront then a.ctbRows else 1)
  else a.slices

/-- Cores that hold a unit: unit u goes to core u mod min(8, units). -/
def Stream.coreMask (x : Stream) (a : PicShape) : Nat := 2 ^ min 8 (max 1 (x.units a)) - 1

/-! ## The state area and the slot headers (R215, R217) -/

/-- Has another party written the state area or the header of a slot in use since the engine did? What the engine wrote there
is compared with what stands there (DEDUCED, notes/assumptions/18.md). -/
def State.streamTampered (s : State) (x : Stream) : Bool :=
  (match x.saved with
   | some k => s.dramRead x.ctx x.stateAddr x.stateLen != freeBytes k x.stateLen
   | none => false) ||
    x.heads.any fun e => x.inUse.getLsbD e.1 && s.dramRead x.ctx (x.slotAt e.1) 64 != e.2

/-- The state of the stream on the cores goes to its state area. Its layout is not documented: its bytes are free values. -/
def State.saveStream (s : State) : State :=
  match s.vcd.onCores with
  | some (m, c) =>
    match s.stream? m with
    | some x =>
      if x.ctx = c && x.saved.isNone then
        let k := s.free
        (({ s with free := k + x.stateLen }).dramWrite c x.stateAddr (freeBytes k x.stateLen)).setStream m
          { x with saved := some k }
      else s
    | none => s
  | none => s

/-- A picture of a stream is about to start: a switch saves the previous stream's state and restores this one's, and a change of
context clears the cores' buffers, which then hold this context's data alone (R217). -/
def State.switchStream (s : State) (n c : Nat) : State :=
  let s1 := if s.vcd.onCores = some (n, c) then s else s.saveStream
  let s2 := match s1.stream? n with
    | some x => s1.setStream n { x with saved := none }
    | none => s1
  { s2 with vcd := { s2.vcd with onCores := some (n, c) } }

/-! ## Pictures (R216 to R225) -/

/-- The running picture. -/
def State.runningPic (s : State) : Option Work := s.hif.works.find? fun w => w.pic.isSome && w.phase == .running

/-- The chosen picture starts on the cores (steps 3 and 4 of Table 5). -/
def State.beginPicture (s : State) (w : Work) (p : PicWork) (x : Stream) (a : PicShape) : State :=
  let bad := s.streamTampered x
  let s1 := (s.wakeCodec.switchStream p.stream w.ctx).setWork { w with
    phase := .running, startAt := s.now, pic := some { p with slot := x.freeSlot.getD 0, tampered := bad } }
  (((s1.setBit VCD_STATUS VCD_STATUS_ACTIVE true).setFld VCD_STATUS VCD_STATUS_STREAM p.stream).setFld VCD_STATUS
    VCD_STATUS_CTX w.ctx).setFld VCD_STATUS VCD_STATUS_CORES_BUSY (x.coreMask a)

/-- PICTURE_START (R216): a free engine starts the oldest DECODE or ENCODE whose stream has no earlier work; the gate delays
it (R220). A decode without a free slot ends here (R226). -/
def pictureStart (a : PicShape) (s : State) : State :=
  if s.runningPic.isSome || s.gateClosed then s
  else match s.hif.works.find? (fun w => match w.pic with
      | some p => (w.op == 2 || w.op == 3) && s.streamHead w p.stream
      | none => false) with
    | none => s
    | some w =>
      match w.pic with
      | none => s
      | some p =>
        match s.stream? p.stream with
        | none => (s.complete w stAccessDenied 0 (s.idleWords w.ring w.desc)).codecSettle
        | some x =>
          if x.ctx ≠ w.ctx then (s.complete w stAccessDenied 0 (s.idleWords w.ring w.desc)).codecSettle
          else if w.op = 2 ∧ x.freeSlot.isNone then
            ((s.vcdErr VCD_ERR_STATUS_NO_SLOT p.stream).complete w stBadDescriptor cfNoSlot (decodeWords 0x1F 0 0 0 0)).codecSettle
          else s.beginPicture w p x a

/-- The cores are idle again. -/
def State.coresIdle (s : State) : State :=
  (s.setBit VCD_STATUS VCD_STATUS_ACTIVE false).setFld VCD_STATUS VCD_STATUS_CORES_BUSY 0

/-- What waits behind an ended picture goes on, unless a scrub ends it as well (R213). -/
def State.afterPicture (s : State) (status : Nat) : State := if status = stContextScrubbed then s else s.codecSettle

/-- A picture stops early (R225): the slot or output buffer being written is undefined, the stream state is unchanged. -/
def State.stopPicture (s : State) (w : Work) (status : Nat) : State :=
  match w.pic with
  | none => s
  | some p =>
    if w.phase = .running then
      let s1 := match s.stream? p.stream with
        | some x => if w.op = 3 then s.dramUndefOwn w.ctx (vOut w.desc) (vOutLen w.desc)
            else s.dramUndefOwn w.ctx (x.slotAt p.slot) x.slotLen
        | none => s
      (s1.coresIdle.complete w status 0 (s.idleWords w.ring w.desc)).afterPicture status
    else (s.complete w status 0 (s.idleWords w.ring w.desc)).afterPicture status

/-- A picture completes: counters and the stream's count, and what VCD_STREAM_INFO shows (R231). -/
def State.pictureCount (s : State) (c n : Nat) (x : Stream) : State :=
  ((s.setStream n { x with
    pictures := min (2 ^ 32 - 1) (x.pictures + 1), shownUse := x.inUse }).addSat VCD_PICTURES VCD_PICTURES_COUNT 1).count 0x31 c 0 1

/-! ### Decoding (R212, R224) -/

/-- Do the parameter sets lie within Table 1, Table 2 and the stream's registration? A Main Still Picture stream is one of
Main. -/
def Stream.accepts (x : Stream) (q : PicParams) : Bool :=
  !q.absentTool && decide (q.level ≤ x.level) && decide (q.width ≤ x.width) && decide (q.height ≤ x.height) &&
    (q.depth == 8 || q.depth == 10) && decide (q.depth ≤ x.depth) &&
    (if x.codec = 1 then (q.profile == 3 || inR 1 x.profile q.profile) && (!q.highTier || x.flags.getLsbD 2)
     else [66, 77, 100].contains q.profile && !q.highTier)

/-- Columns and number of the units that concealment counts: CTBs or macroblocks. -/
def unitCols (q : PicParams) : Nat := (q.width + q.ctb - 1) / q.ctb
def unitCount (q : PicParams) : Nat := unitCols q * ((q.height + q.ctb - 1) / q.ctb)

/-- Is the whole picture concealed? An access unit without a decodable slice, one whose stream another party tampered with, and
one after a FLUSH that is no IRAP or IDR picture (DEDUCED, notes/assumptions/18.md: nothing that it predicts from stands). -/
def wholly (x : Stream) (p : PicWork) (r : PicResult) : Bool := r.noSlice || p.tampered || (x.awaitIrap && !r.irap)

/-- The units concealed, in raster order. -/
def concealed (x : Stream) (p : PicWork) (r : PicResult) : List Nat :=
  if wholly x p r then List.range (unitCount r.params)
  else if r.undecoded = [] then [] else (List.range (unitCount r.params)).filter fun u => r.undecoded.contains u

/-- The picture order count: one above the previous decoded picture's for a picture concealed as a whole. -/
def pocOf (x : Stream) (p : PicWork) (r : PicResult) : W32 := if wholly x p r then x.lastPoc + 1 else r.poc

/-- Does it predict from a concealed picture, or one derived from such? An IDR, IRAP or recovery point ends that. -/
def refHurt (x : Stream) (r : PicResult) : Bool := !r.irap && !r.recovery && (r.usedRefs &&& x.hurt) != 0

/-- Distance of two picture order counts. -/
def pocGap (a b : W32) : Nat := (a.toInt - b.toInt).natAbs

/-- The reference picture nearest in POC; of two as near, the one in the lower slot (DESIGN CHOICE, notes/assumptions/18.md). -/
def Stream.nearest (x : Stream) (poc : W32) : Option Nat :=
  let ks := (List.range x.dpbSlots).filter fun i => x.refs.getLsbD i
  ks.find? fun i => ks.all fun j => decide (pocGap (tabGetD x.pocs i 0) poc ≤ pocGap (tabGetD x.pocs j 0) poc)

/-- Bytes of a sample: NV12, or P010 with the sample in bits [15:6] (R215). -/
def sampleBytes (depth v : Nat) : List Byte := if depth = 10 then leBytes 2 (v % 1024 * 64) else leBytes 1 v

/-- A sample of a slot's row at an offset of it. -/
def State.slotSample (s : State) (x : Stream) (slot off depth i : Nat) : Nat :=
  let n := if depth = 10 then 2 else 1
  leNat (s.dramRead x.ctx (x.slotAt slot + off + n * i) n) / (if depth = 10 then 64 else 1)

/-- A row of a picture's plane, whose luma row is `y`: the samples decoded, and for a concealed unit those of the nearest
reference picture, or the middle of the range where there is none. -/
def State.pictureRow (s : State) (x : Stream) (q : PicParams) (hid : List Nat) (ref : Option Nat) (off y : Nat) (row : List Nat) :
    List Byte :=
  if hid = [] then row.flatMap (sampleBytes q.depth)
  else (List.range q.width).flatMap fun i =>
    if hid.contains (y / q.ctb * unitCols q + i / q.ctb) then
      (match ref with
       | some k => sampleBytes q.depth (s.slotSample x k off q.depth i)
       | none => sampleBytes q.depth (2 ^ (q.depth - 1)))
    else sampleBytes q.depth (row[i]?.getD 0)

/-- The flags byte of a slot header. -/
def headFlags (q : PicParams) (hid : List Nat) (hurt : Bool) : Nat :=
  (if hid = [] then 0 else 1) + (if hurt then 2 else 0) + (if q.depth = 10 then 4 else 0)

/-- A slot header (Table 4). -/
def slotHeader (x : Stream) (p : PicWork) (r : PicResult) : List Byte :=
  let hid := concealed x p r
  leBytes 4 (pocOf x p r).toNat ++ leBytes 4 x.decoded ++ leBytes 2 r.params.width ++ leBytes 2 r.params.height ++
    leBytes 8 r.crop.toNat ++ leBytes 1 (headFlags r.params hid (refHurt x r)) ++ leBytes 3 0 ++ leBytes 4 hid.length ++
    List.replicate 36 0

/-- What a decoded picture writes: its slot header, and its rows with those of the CbCr plane after them (R215). What stands
between the rows is not documented, and is left as it is. -/
def State.pictureWrites (s : State) (x : Stream) (p : PicWork) (r : PicResult) : List (Nat × List Byte) :=
  let q := r.params
  let hid := concealed x p r
  let ref := x.nearest (pocOf x p r)
  let at_ := x.slotAt p.slot
  let half := 64 + x.pitch * halOf x.codec x.height
  (at_, slotHeader x p r) ::
    ((List.range q.height).filterMap fun y =>
      if hid = [] && r.luma[y]?.isNone then none
      else some (at_ + 64 + x.pitch * y, s.pictureRow x q hid ref (64 + x.pitch * y) y (r.luma[y]?.getD []))) ++
    ((List.range (q.height / 2)).filterMap fun y =>
      if hid = [] && r.chroma[y]?.isNone then none
      else some (at_ + half + x.pitch * y, s.pictureRow x q hid ref (half + x.pitch * y) (2 * y) (r.chroma[y]?.getD [])))

/-- Several writes of a context, in order. -/
def State.dramWrites (s : State) (c : Nat) (es : List (Nat × List Byte)) : State :=
  es.foldl (fun t e => t.dramWrite c e.1 e.2) s

/-- The stream after a decoded picture (R224, R226). -/
def Stream.afterDecoded (x : Stream) (p : PicWork) (r : PicResult) : Stream :=
  let bit : BitVec 16 := 1#16 <<< p.slot
  let held := x.waits ||| (if r.shown then bit else 0)
  let bad := concealed x p r != [] || refHurt x r
  let clear := r.irap || r.recovery
  { x with
    decoded := x.decoded + 1, lastPoc := pocOf x p r, pocs := tabSet x.pocs p.slot (pocOf x p r)
    refs := (r.stillRefs ||| (if wholly x p r then bit else 0)) &&& (x.inUse ||| bit)
    waits := held &&& ~~~r.outMask, outs := x.outs ||| (held &&& r.outMask)
    hurt := ((if clear then 0 else x.hurt) &&& ~~~bit) ||| (if bad then bit else 0)
    heads := tabSet (if p.tampered then [] else x.heads) p.slot (slotHeader x p r)
    awaitIrap := x.awaitIrap && !r.irap, refused := false }

/-- A decode commits (R224, R226, step 6 of Table 5). Pictures that follow refused parameter sets are refused up to the next
IRAP or IDR picture whose sets are accepted. -/
def State.doneDecode (s : State) (w : Work) (p : PicWork) (x : Stream) (r : PicResult) : State :=
  let c := w.ctx
  let s1 := s.coresIdle
  let fp := if r.paramDiscarded then cfParam else 0
  let s2 := if r.paramDiscarded then s1.vcdErr VCD_ERR_STATUS_PARAM_DISCARDED p.stream else s1
  if !(x.accepts r.params) || (x.refused && !r.irap) then
    ((s2.vcdErr VCD_ERR_STATUS_UNSUPPORTED p.stream).setStream p.stream { x with refused := true }).complete w
      stFormatUnsupported fp (decodeWords 0x1F 0 0 0 r.cycles)
  else if r.noOutput then
    (s2.pictureCount c p.stream x).complete w stDone fp (decodeWords 0x1F 0 0 0 r.cycles)
  else if s2.objectBusy (x.slotAt p.slot) x.slotLen then
    (s2.dramUndefOwn c (x.slotAt p.slot) x.slotLen).complete w stAccessDenied fp (decodeWords 0x1F 0 0 0 0)
  else
    let hid := concealed x p r
    let held := x.waits ||| (if r.shown then 1#16 <<< p.slot else 0)
    let s3 := s2.dramWrites c (s.pictureWrites x p r)
    let s4 := if hid = [] then s3
      else ((s3.addSat VCD_CONCEALED VCD_CONCEALED_UNITS hid.length).vcdErr VCD_ERR_STATUS_CONCEALED p.stream).count 0x32 c 0
        hid.length
    let fl := fp + (if hid = [] then 0 else cfConcealed) + (if refHurt x r then cfRefConcealed else 0)
    (s4.pictureCount c p.stream (x.afterDecoded p r)).complete w
      (if hid = [] && !(refHurt x r) then stDone else stStreamConcealed) fl
      (decodeWords p.slot (held &&& r.outMask).toNat hid.length (hid.headD 0) r.cycles)

/-! ### Encoding (R222, R223, R229) -/

/-- What the model of R222 decides for a picture. -/
structure CpbStep where
  skip : Bool
  attempts : Nat
  bits : Nat
  filler : Nat
  f : Nat
  deriving DecidableEq, Repr

/-- The coded picture buffer model (R222). -/
def Stream.cpb (x : Stream) (intervals bits1 bits2 : Nat) : CpbStep :=
  if x.rateMode = 0 then { skip := false, attempts := 1, bits := bits1, filler := 0, f := 0 }
  else
    let rr := x.perInterval
    let f0 := if x.pictures = 0 then x.f else x.f + intervals * rr - rr
    let b := if bits1 ≤ f0 then bits1 else bits2
    let n := if bits1 ≤ f0 then 1 else 2
    if f0 < b then { skip := true, attempts := n, bits := 0, filler := 0, f := f0 + rr }
    else
      let f1 := f0 - b + rr
      if x.rateMode = 1 then
        if x.cpbBits < f1 then { skip := false, attempts := n, bits := b, filler := f1 - x.cpbBits, f := x.cpbBits }
        else { skip := false, attempts := n, bits := b, filler := 0, f := f1 }
      else { skip := false, attempts := n, bits := b, filler := 0, f := min f1 x.cpbBits }

/-- Is the next coded picture an IDR picture (R223)? -/
def Stream.idrNext (x : Stream) (force : Bool) : Bool :=
  x.coded == 0 || force || (!x.lowLatency && x.idrInterval != 0 && decide (x.idrInterval ≤ x.sinceIdr))

/-- QP_AVG: the fixed QP under CQP, QP_MAX for a second attempt, and else a choice within QP_MIN to QP_MAX (R222). -/
def Stream.qpUsed (x : Stream) (idr : Bool) (attempts : Nat) (chosen : BitVec 8) : BitVec 8 :=
  BitVec.ofInt 8 (if x.rateMode = 0 then (if idr then x.qpI else x.qpP)
    else if attempts = 2 then x.qpMax else max x.qpMin (min x.qpMax chosen.toInt))

/-- Columns that each picture after an IDR picture intra-codes (R223). -/
def Stream.refreshCols (x : Stream) : Nat := if x.refresh = 0 then 0 else (x.columns + x.refresh - 1) / x.refresh

/-- The refresh column of the next coded picture. -/
def Stream.refreshAt (x : Stream) (again : Bool) : Nat := if again then 0 else x.col

/-- Does a refresh cycle begin with it? -/
def Stream.refreshStart (x : Stream) (idr again : Bool) : Bool := x.lowLatency && !idr && x.refreshAt again == 0

/-- What the next access unit carries. -/
def Stream.unitOf (x : Stream) (n intervals attempts : Nat) (idr again : Bool) (qp : BitVec 8) : CodedUnit :=
  { stream := n, idr := idr, intraFrom := if idr then 0 else x.refreshAt again
    intraCols := if idr then x.columns else x.refreshCols
    recovery := if x.refreshStart idr again then some (x.refresh - 1) else none
    hrd := x.rateMode != 0, delay := x.delay + intervals, qp := x.qpUsed idr attempts qp }

/-- The stream after a coded picture; the position wraps at the right edge. -/
def Stream.afterCoded (x : Stream) (idr forceRefresh : Bool) (f : Nat) : Stream :=
  let col := x.refreshAt forceRefresh
  { x with
    f := f, coded := x.coded + 1, sinceIdr := if idr then 1 else x.sinceIdr + 1, delay := 0
    col := if idr then 0 else if col + x.refreshCols < x.columns then col + x.refreshCols else 0 }

/-- An encode commits (R222, R223, R229). -/
def State.doneEncode (s : State) (w : Work) (p : PicWork) (x : Stream) (r : PicResult) : State :=
  let c := w.ctx
  let d := w.desc
  let s1 := s.coresIdle
  let m := x.cpb (dF d 11 1) r.bits1 r.bits2
  let retry := if m.attempts = 2 then cfRetry else 0
  if m.skip then
    let s2 := ((s1.addSat VCD_SKIPPED VCD_SKIPPED_COUNT 1).vcdErr VCD_ERR_STATUS_SKIPPED p.stream).pictureCount c p.stream
      { x with f := m.f, delay := x.delay + dF d 11 1 }
    s2.complete w stPictureSkipped retry (encodeWords 0 m.f 0 m.attempts r.cycles)
  else
    let bytes := (m.bits + m.filler + 7) / 8
    if vOutLen d < bytes then s1.complete w stLengthLimit retry (encodeWords 0 x.f 0 m.attempts r.cycles)
    else if s1.objectBusy (vOut d) bytes then
      (s1.dramUndefOwn c (vOut d) (vOutLen d)).complete w stAccessDenied 0 (encodeWords 0 x.f 0 0 0)
    else
      let idr := x.idrNext (dF d 10 1 % 2 == 1)
      let again := dF d 10 1 / 2 % 2 == 1
      let u := x.unitOf p.stream (dF d 11 1) m.attempts idr again r.qpAvg
      let s2 := (s1.dramWrite c (vOut d) (r.stream.take bytes)).pictureCount c p.stream (x.afterCoded idr again m.f)
      ({ s2 with vcd := { s2.vcd with lastUnit := some u } }).complete w stDone
        (retry + (if 0 < m.filler then cfFiller else 0) + (if idr then cfIdr else 0) +
          (if x.refreshStart idr again then cfRefresh else 0)) (encodeWords bytes m.f u.qp.toNat m.attempts r.cycles)

/-! ### The end of a picture -/

/-- The DRAM that a picture reads: its access unit or input picture, and the stream's state area and slots. -/
def pictureReads (w : Work) (x : Stream) : List (Nat × Nat) :=
  (vAddr w.desc, if w.op = 2 then vLen w.desc else pictureLen x.codec x.height x.pitch) ::
    (x.stateAddr, x.stateLen) :: ((List.range x.dpbSlots).filter fun i => x.inUse.getLsbD i).map fun i => (x.slotAt i, x.slotLen)

/-- An uncorrectable word in what the picture read: known before, or found by it (R225, R259). -/
def State.pictureFails (s : State) (w : Work) (x : Stream) (r : PicResult) : Option State :=
  match s.readFails w.ctx (pictureReads w x), r.uncorrectable with
  | some t, _ => some t
  | none, some i => some (s.ueDemand (vAddr w.desc + i % max 1 (if w.op = 2 then vLen w.desc else pictureLen x.codec x.height x.pitch)) w.ctx)
  | none, none => none

/-- PICTURE_DONE (R221). An encode stream that another party tampered with is a memory error (R215). -/
def pictureDone (r : PicResult) (s : State) : State :=
  match s.runningPic with
  | none => s
  | some w =>
    match w.pic with
    | none => s
    | some p =>
      match s.stream? p.stream with
      | none => s.stopPicture w stAccessDenied
      | some x =>
        match s.pictureFails w x r with
        | some t => (t.vcdErr VCD_ERR_STATUS_MEM_UNCORR p.stream).stopPicture w stMemoryUncorrectable
        | none =>
          if w.op = 3 && p.tampered then (s.vcdErr VCD_ERR_STATUS_MEM_UNCORR p.stream).stopPicture w stMemoryUncorrectable
          else (if w.op = 2 then s.doneDecode w p x r else s.doneEncode w p x r).codecSettle

/-- PICTURE_TIMEOUT (R225, R227): TIMEOUT_MS has passed since the picture's start. -/
def pictureTimeout (s : State) : State :=
  match s.runningPic with
  | some w => if w.pictureLate s.now then s.stopPicture w stTimeout else s
  | none => s

end Sys2Proof.Machine
end

