-- ==== Sys2Proof/Machine/Sentinel.lean ====
section
/-! DEFINITION. The Stream Sentinel: STN_CTRL, channels and their entries, doorbells and windows, the quantile tracker,
verdict records, result digests and the SENT class (Stream Sentinel: Power-Stage Fault Prediction, R189 to R211; Olper
Links, Cascades and Hot-Standby Pairs, R337). -/

namespace Sys2Proof.Machine

/-! ## BAR2 windows (R235, R238) -/

/-- DOORBELL_DROPPED in a context's HIF_CTX_ERR_STATUS. -/
def State.dropDoorbell (s : State) (c ring : Nat) : State := s.ctxErr c HIF_CTX_ERR_STATUS_DOORBELL_DROPPED ring

/-- The context window that a BAR2 offset of a function names, and the offset in it (Table 3). -/
def bar2Window (fn off : Nat) : Option (Nat × Nat) :=
  if fn = 0 then (if off < 0x200000 then some (off / 0x10000, off % 0x10000) else none)
  else if fn ≤ 32 then some (fn - 1, off % 0x10000) else none

/-- Does the function reach that context's window (R235)? -/
def State.servesWindow (s : State) (fn c : Nat) : Bool := if fn = 0 then !(s.vfServed c) else s.vfServed c && fn == c + 1

/-! ## Channel entries (R192) -/

def Chan.f (x : Chan) (i n : Nat) : Nat := bf x.entry i n
def Chan.flag (x : Chan) (i : Nat) : Bool := x.f 0 1 / 2 ^ i % 2 == 1
def Chan.signals (x : Chan) : Nat := x.f 1 1
def Chan.samples (x : Chan) : Nat := x.f 2 2
def Chan.model (x : Chan) : Nat := x.f 4 1
def Chan.stateKib (x : Chan) : Nat := x.f 5 1
def Chan.warmup (x : Chan) : Nat := x.f 16 4
def Chan.staleUs (x : Chan) : Nat := x.f 48 4
def Chan.stateOffset (x : Chan) : Nat := x.f 12 2
def Chan.configured (x : Chan) : Bool := x.entry != []
def Chan.w (x : Chan) (i : Nat) : W32 := BitVec.ofNat 32 (x.f i 4)

/-- Verdict codes (Table 3). -/
def vLearning : Nat := 0
def vNormal : Nat := 1
def vAlarm : Nat := 2
def vTrip : Nat := 3
def vNoData : Nat := 4

def State.chan (s : State) (n : Nat) : Chan := tabGetD s.stn.chans n {}
def State.setChan (s : State) (n : Nat) (x : Chan) : State := { s with stn := { s.stn with chans := tabSet s.stn.chans n x } }

/-- Is a binary32 word finite? -/
def finiteF32 (w : Nat) : Bool := decide (w / 0x800000 % 256 ≠ 255)

/-- Is it normal and finite? -/
def normalF32 (w : Nat) : Bool := inR 1 254 (w / 0x800000 % 256)

/-- Every field of an entry within Table 2, and reserved bits zero (R193). -/
def Chan.fieldsOk (x : Chan) : Bool :=
  decide (x.f 0 1 < 8) && inR 1 32 x.signals && inR 64 4096 x.samples && decide (x.samples % 16 = 0) &&
  decide (x.signals * x.samples ≤ 32768) && decide (x.model < 16) && inR 1 16 x.stateKib && decide (x.f 6 1 < 16) &&
  decide (1 ≤ x.f 7 1) && decide (1 ≤ x.f 8 1) && decide (x.f 9 1 = 0) && decide (1 ≤ x.f 10 2) &&
  decide (x.stateOffset ≤ 7167) && inR 1 32768 (x.f 14 2) && decide (x.warmup < 2 ^ 24) &&
  inR 0x08800000 0x71800000 (x.f 20 4) && [24, 28, 32, 36, 40, 44].all (fun i => finiteF32 (x.f i 4)) &&
  decide (x.staleUs ≤ 60000000) && decide (1 ≤ x.f 52 2) && decide (1 ≤ x.f 54 2) && decide (x.f 56 8 % 64 = 0) &&
  (List.range 32).all fun i =>
    if i < x.signals then normalF32 (x.f (64 + 8 * i) 4) && finiteF32 (x.f (68 + 8 * i) 4)
    else decide (x.f (64 + 8 * i) 8 = 0)

/-- Do two state blocks overlap? -/
def Chan.blocksMeet (x y : Chan) : Bool := overlaps x.stateOffset x.stateKib y.stateOffset y.stateKib

/-- MODEL_CLOCKS for a number of values: the first declared bound that serves so many; none where the object declares none. How
an object declares its bounds is not documented (DESIGN CHOICE, notes/assumptions/26.md). -/
def modelClocks (m : ModelDecl) (values : Nat) : Option Nat := (m.clocks.find? fun e => decide (values ≤ e.1)).map (·.2)

/-- The checks of one entry by itself (R193). -/
def State.entryOk (s : State) (n : Nat) (x : Chan) : Bool :=
  x.fieldsOk && !(s.chan n).enabled && decide (x.stateOffset + x.stateKib ≤ 7168) &&
  match tabGet? s.stn.models x.model with
  | some m => inR m.decl.signalsLo m.decl.signalsHi x.signals && inR m.decl.samplesLo m.decl.samplesHi x.samples &&
      inR m.decl.stateLo m.decl.stateHi x.stateKib &&
      (match modelClocks m.decl (x.signals * x.samples) with | some k => decide (k ≤ 3200) | none => false)
  | none => false

/-- The lowest failing channel of a CONFIGURE: entries by themselves, then their blocks against each other's and those
of the other configured channels of the tile (R193). -/
def State.entriesBad (s : State) (es : List (Nat × Chan)) : Option Nat :=
  let good := es.filter fun e => s.entryOk e.1 e.2
  let others := s.stn.chans.filter fun e => e.2.configured && !(es.any fun x => x.1 == e.1)
  (es.find? fun e => !(s.entryOk e.1 e.2) ||
    (good ++ others).any fun o => o.1 != e.1 && o.1 % 8 == e.1 % 8 && o.2.blocksMeet e.2).map (·.1)

/-! ## The Sentinel cluster and its banks (R189, R191) -/

/-- The tile of a channel. -/
def State.chanTile (s : State) (n : Nat) : Nat := 8 * s.fld STN_CTRL STN_CTRL_CLUSTER + n % 8

/-- The bank-space address of a channel's state block (Table 1). -/
def State.stateAddr (s : State) (n : Nat) : Nat := s.chanTile n * 0x800000 + 1024 * (s.chan n).stateOffset

/-- The banks that a bank-space region touches. -/
def banksIn (a len : Nat) : List Nat :=
  if len = 0 then [] else (List.range ((a + len - 1) / 0x100000 + 1 - a / 0x100000)).map (a / 0x100000 + ·)

/-- The part of a bank-space region in each bank that it touches. -/
def bankPieces (a len : Nat) : List (Nat × Nat) :=
  (banksIn a len).map fun g =>
    (max a (g * 0x100000), min (a + len) ((g + 1) * 0x100000) - max a (g * 0x100000))

/-- A bank served a write of the region: it is not clean, and whole groups that were written are good again (R80, R88). -/
def State.bankTouched (s : State) (a n g : Nat) : State :=
  let b := s.bankSt g
  (s.bankDirty g).setBank g { b with
    lastAccess := s.now, bad := b.bad.filter fun x => !(decide (a ≤ 8 * x) && decide (8 * x + 8 ≤ a + n)) }

/-- Bytes are written across bank boundaries. -/
def State.banksWrite (s : State) (a : Nat) (bs : List Byte) : State :=
  (s.bankPut a bs).each (banksIn a bs.length) fun t g => t.bankTouched a bs.length g

/-- A bank-space region is filled with zero. -/
def State.banksFillZero (s : State) (a len : Nat) : State :=
  let s1 := { s with mem := { s.mem with bank := memZero s.mem.bank a (a + len) } }
  s1.each (banksIn a len) fun t g => t.bankTouched a len g

/-- A channel's state block is filled with zero. -/
def State.zeroState (s : State) (n : Nat) : State := s.banksFillZero (s.stateAddr n) (1024 * (s.chan n).stateKib)

/-- Does the Sentinel serve (STN_STATUS.RUNNING)? -/
def State.stnRunning (s : State) : Bool := s.bit STN_STATUS STN_STATUS_RUNNING

/-- Set an error bit of STN_ERR_STATUS; STN_ERR_INFO takes the channel of the first. -/
def State.stnErr (s : State) (b : Bits) (n : Nat) : State := s.raise STN_ERR_STATUS b STN_ERR_INFO STN_ERR_INFO_CHANNEL n

/-- Work that the Sentinel partition was admitted before the acceptance and has not completed (R189). -/
def State.sentBusy (s : State) : Bool :=
  s.hif.works.any fun w => w.claims && match ringCtx w.ring with
    | some c => (match s.partOf c with | some p => s.sentPart p | none => false)
    | none => false

/-- The cluster's hub, tiles and banks are brought ON and to the Sentinel context, and its clock to exactly 320 MHz (R189,
R190). -/
def State.holdCluster (s : State) : State :=
  let cl := s.fld STN_CTRL STN_CTRL_CLUSTER
  let c := s.fld STN_CTRL STN_CTRL_CTX
  let s1 := (s.each (clusterTiles cl) fun t i => t.wakeTile i).setFld (GLB_CLU_FREQ cl) GLB_CLU_FREQ_MHZ nominalMhz
  s1.each ((clusterTiles cl).flatMap tileBanks) fun t g => t.handTo c g

/-- RUNNING sets when the last work of the partition has completed, except in the ISOLATED role, in which the Sentinel
is stopped (R189, R190). -/
def State.startServing (s : State) : State :=
  if s.bit STN_CTRL STN_CTRL_ENABLE && !s.sentBusy && s.role != roleIsolated then s.setBit STN_STATUS STN_STATUS_RUNNING true
  else s

/-- Enabled channels. -/
def State.enabledChans (s : State) : List Nat := (s.stn.chans.filter fun e => e.2.enabled).map (·.1)

/-- SETUP_REFUSED (R189). No channel is concerned; STN_ERR_INFO then reads channel 0. -/
def State.setupRefused (s : State) : State := s.stnErr STN_ERR_STATUS_SETUP_REFUSED 0

/-- Does the cluster alone form a partition whose current context is `c` (R189)? -/
def State.aloneFor (s : State) (cl c : Nat) : Bool :=
  match s.clusterPart cl with
  | some p => (s.part p).clusters == BitVec.ofNat 8 (2 ^ cl) && (s.part p).current == some c && !(s.part p).switching
  | none => false

/-- The Sentinel's cluster and context as a write would leave them: RWL fields (R7). -/
def State.stnFields (s : State) (v : W32) : Nat × Nat :=
  if s.bit GLB_SETUP_LOCK GLB_SETUP_LOCK_LOCK then (s.fld STN_CTRL STN_CTRL_CLUSTER, s.fld STN_CTRL STN_CTRL_CTX)
  else (v.toNat / 256 % 8, v.toNat % 32)

/-- A write of STN_CTRL (R189). -/
def State.stnCtrlWrite (s : State) (v : W32) : State :=
  let on := v.toNat / 2 ^ 31 % 2 = 1
  let asked := (v.toNat / 256 % 8, v.toNat % 32)
  let held := (s.fld STN_CTRL STN_CTRL_CLUSTER, s.fld STN_CTRL STN_CTRL_CTX)
  let put := fun (t : State) (x : Nat × Nat) => (t.setFld STN_CTRL STN_CTRL_CLUSTER x.1).setFld STN_CTRL STN_CTRL_CTX x.2
  if s.bit STN_CTRL STN_CTRL_ENABLE then
    if on then (if asked = held then s else s.setupRefused)
    else if s.enabledChans ≠ [] then s.setupRefused
    else put (((s.setBit STN_CTRL STN_CTRL_ENABLE false).setBit STN_STATUS STN_STATUS_RUNNING false)) (s.stnFields v)
  else
    let x := s.stnFields v
    let s1 := put s x
    if !on then s1
    else if s1.aloneFor x.1 x.2 then ((s1.setBit STN_CTRL STN_CTRL_ENABLE true).holdCluster).startServing
    else s1.setupRefused

/-! ## Lines and records (R203 to R205) -/

/-- The static lines that the channels assert (R205). -/
def State.lineMask (s : State) : Nat :=
  (List.range 8).foldl (fun m k =>
    if s.stn.chans.any (fun e => e.2.enabled && e.2.f 6 1 == 8 + k &&
      (e.2.verdict == vTrip || (e.2.verdict == vAlarm && e.2.flag 2))) then m + 2 ^ k else m) 0

/-- What the line pins show: the channels' lines; in ISOLATED, without core rails and in a Cast freeze they are de-asserted
(R205, R327, R332, R379, R391). -/
def State.lineLevels (s : State) : Nat :=
  if s.role = roleIsolated || !s.aon.core || s.aon.cast.frozen then 0 else s.lineMask

/-- The line pins follow the channels. -/
def State.updateLines (s : State) : State :=
  if s.fld VRD_STATUS VRD_STATUS_LINES = s.lineLevels then s else s.setFld VRD_STATUS VRD_STATUS_LINES s.lineLevels

/-- Queue a verdict record, or coalesce it into the channel's queued one (R204). -/
def State.queueRecord (s : State) (r : VRec) : State :=
  let q := if s.stn.records.any (fun o => o.chan == r.chan) then
      s.stn.records.map fun o => if o.chan = r.chan then
        { r with prev := o.prev, flags := o.flags ||| r.flags ||| 1 } else o
    else s.stn.records ++ [r]
  { s with stn := { s.stn with records := q } }

/-- The record of a channel's change; the marks GAP and STATE_ERR go with it (R195, R198). -/
def State.recordChange (s : State) (n prev : Nat) (score : W32) (flags : BitVec 8) (at_ : Option Nat) : State :=
  let x := s.chan n
  ((s.traceUnit 4 s.sentCtx (n + 2 ^ 12 * x.verdict)).setChan n { x with marks := 0 }).queueRecord
    { chan := n, seq := x.lastSeq, verdict := x.verdict, prev := prev, score := score, est := x.est
      flags := flags ||| x.marks, at_ := at_ }

/-- SCORE of a record without a valid window. -/
def noScore : W32 := 0x7FC00000

/-! ## The tracker (R199) -/

/-- ENABLE and RESET of a channel's tracker. -/
def Chan.init (x : Chan) (now : Nat) : Chan :=
  { x with
    est := x.w 24, n := 0, above := 0, below := 0, tripN := 0, invalidRun := 0, first := true, since := now
    verdict := if x.warmup = 0 then vNormal else vLearning }

/-- An invalid window. -/
def Chan.onInvalid (x : Chan) : Chan :=
  let y := { x with invalidRun := min 65535 (x.invalidRun + 1), above := 0, below := 0, tripN := 0 }
  if y.f 54 2 ≤ y.invalidRun ∧ y.verdict ≠ vTrip then { y with verdict := vNoData } else y

/-- The thresholds hi and lo, from the estimate before the window. -/
def Chan.thresholds (x : Chan) : Num × Num :=
  let e := decodeF32 x.est
  let hi := (vFma e (decodeF32 (x.w 28)) (decodeF32 (x.w 32))).1
  (hi, vMin (vFma e (decodeF32 (x.w 36)) (decodeF32 (x.w 40))).1 hi)

/-- The verdict steps of a valid window with score `sc`. -/
def Chan.judge (x : Chan) (sc : Num) : Chan :=
  let t := x.thresholds
  let trip := if numLt (decodeF32 (x.w 44)) sc then min 255 (x.tripN + 1) else 0
  let above := if numLt t.1 sc then min 255 (x.above + 1) else 0
  let below := if numLt sc t.2 then min 65535 (x.below + 1) else 0
  let v := if x.verdict ≠ vTrip ∧ x.f 8 1 ≤ trip then vTrip
    else if x.verdict = vNormal ∧ x.f 7 1 ≤ above then vAlarm
    else if x.verdict = vAlarm ∧ x.f 10 2 ≤ below then vNormal
    else x.verdict
  { x with tripN := trip, above := above, below := below, verdict := v }

/-- The estimate after a valid window: E + STEP × q or E − STEP × qt. -/
def Chan.nextEst (x : Chan) (sc : Num) : Num :=
  let e := decodeF32 x.est
  let step := decodeF32 (x.w 20)
  if numLt e sc then (vAdd e (vMul step (.fin false (65536 - x.f 14 2) (-16))).1).1
  else (vSub e (vMul step (.fin false (x.f 14 2) (-16))).1).1

/-- The estimate step of a valid window, and whether TRACKER_SAT sets. -/
def Chan.learn (x : Chan) (sc : Num) : Chan × Bool :=
  if x.flag 1 ∧ (x.verdict = vAlarm ∨ x.verdict = vTrip) then (x, false)
  else
    let e2 := encodeF32 (x.nextEst sc)
    let ok := finiteF32 e2.toNat
    ({ x with est := if ok then e2 else x.est, n := min (2 ^ 24 - 1) (x.n + 1) }, !ok)

/-- A valid window with a score: the channel after it, and whether TRACKER_SAT sets. -/
def Chan.onValid (x : Chan) (score : W32) : Chan × Bool :=
  let sc := decodeF32 score
  let x0 := { x with
    invalidRun := 0, score := score
    verdict := if x.verdict = vNoData then (if x.n < x.warmup then vLearning else vNormal) else x.verdict }
  let y := (x0.judge sc).learn sc
  ({ y.1 with verdict := if y.1.verdict = vLearning ∧ y.1.warmup ≤ y.1.n then vNormal else y.1.verdict }, y.2)

/-! ## Digests (R337) -/

/-- Is the module paired with DIGEST_EN? -/
def State.digesting (s : State) : Bool := s.bit OLP_PAIR OLP_PAIR_PAIRED && s.bit OLP_PAIR OLP_PAIR_DIGEST_EN

/-- Key of a channel's block. -/
def digKey (n b : Nat) : Nat := 2 ^ 18 * n + b

/-- Both digests of a block are known: it is compared, or skipped. -/
def State.digResolve (s : State) (n b : Nat) (mine theirs : Bool × W64) : State :=
  let s1 := { s with stn := { s.stn with
    closed := tabDel s.stn.closed (digKey n b)
    theirs := tabDel s.stn.theirs (digKey n b)
    settled := tabSet s.stn.settled n b } }
  if mine.1 || theirs.1 then s1.addSat OLP_HEALTH OLP_HEALTH_SKIPPED 1
  else
    let s2 := s1.addSat OLP_HEALTH OLP_HEALTH_COMPARED 1
    if mine.2 = theirs.2 then s2
    else
      let s3 := (s2.addSat OLP_HEALTH OLP_HEALTH_MISMATCHES 1).setBit OLP_ERR_STATUS OLP_ERR_STATUS_DIGEST_MISMATCH true
      ({ s3 with stn := { s3.stn with mismatchAt := some s3.now } }).report evSentinel n

/-- The DIGEST frame of a block (Table 3 of Olper Links). -/
def State.sendDigest (s : State) (n b : Nat) (skip : Bool) (d : W64) : State :=
  s.sendFrame 0 { ftype := 0x11, vc := 0, addr := 0
                  payload := leBytes 2 n ++ leBytes 3 b ++ leBytes 1 (if skip then 1 else 0) ++ leBytes 8 d.toNat }

/-- Insert a result in ascending order of s. -/
def insResult (e : Nat × Bool × W32) : List (Nat × Bool × W32) → List (Nat × Bool × W32)
  | [] => [e]
  | x :: xs => if e.1 < x.1 then e :: x :: xs else if e.1 = x.1 then e :: xs else x :: insResult e xs

/-- The bytes that a block's digest covers. -/
def digBytes (es : List (Nat × Bool × W32)) : List Byte :=
  es.flatMap fun e => leBytes 3 e.1 ++ leBytes 1 (if e.2.1 then 1 else 0) ++ leBytes 4 (if e.2.1 then e.2.2.toNat else 0)

/-- A window result reaches the channel's digest block; the block's last window closes it. A SKIP frame's digest is not
stated: a free value. -/
def State.digestResult (s : State) (n seq : Nat) (valid : Bool) (score : W32) (skip : Bool) : State :=
  let b := seq / 64
  if !s.digesting || tabGet? s.stn.settled n == some b then s
  else
    let old := match tabGet? s.stn.open_ n with
      | some o => if o.block = b then o else { block := b }
      | none => { block := b }
    let blk : DigBlock := { old with entries := insResult (seq, valid, score) old.entries, skip := old.skip || skip }
    if seq % 64 ≠ 63 then { s with stn := { s.stn with open_ := tabSet s.stn.open_ n blk } }
    else
      let sk := blk.skip || decide (blk.entries.length < 64)
      let d : W64 := if sk then s.freeWord else BitVec.ofNat 64 (leNat (shakeBytes (digBytes blk.entries) 8))
      let s1 := if sk then s.bump else s
      let s2 := ({ s1 with stn := { s1.stn with open_ := tabDel s1.stn.open_ n } }).sendDigest n b sk d
      match tabGet? s2.stn.theirs (digKey n b) with
      | some t => s2.digResolve n b (sk, d) (t.1, t.2.1)
      | none => { s2 with stn := { s2.stn with closed := tabSet s2.stn.closed (digKey n b) (sk, d) } }

/-! ## Windows (R194 to R198) -/

/-- Bytes of a window slot (R194). -/
def windowBytes (x : Chan) : Nat := 64 + 64 * ((2 * x.signals * x.samples + 63) / 64)

/-- The host address of window s: its slot is s mod RING_WINDOWS (R194). -/
def windowAddr (x : Chan) (s : Nat) : Nat := x.f 56 8 + s % x.f 52 2 * windowBytes x

/-- The windows of a tile, in order. -/
def State.tileWindows (s : State) (l : Nat) : List StnWin := s.stn.windows.filter fun w => w.chan % 8 == l

/-- Windows accepted and not yet started on the tile (PENDING). -/
def State.pendingWins (s : State) (n : Nat) : Nat := (s.stn.windows.filter fun w => w.chan == n && !w.started).length

/-- Is a window of the channel on its tile? -/
def State.chanOnTile (s : State) (n : Nat) : Bool := s.stn.windows.any fun w => w.chan == n && w.started

/-- Step 1 to step 7 time in units of 10 ns, from the uptime. -/
def State.latOf (s : State) (w : StnWin) : Nat := 100 * (s.now - w.at_)

/-- The latency counters and histogram of a processed window (R207, R376). -/
def State.noteLatency (s : State) (lat : Nat) : State :=
  let s1 := s.setFld STN_LAT_MAX STN_LAT_MAX_TIME (max (s.fld STN_LAT_MAX STN_LAT_MAX_TIME) (min lat 0xFFFFFFFF))
  let s2 := if 1700 < lat then s1.addSat STN_LAT_OVER STN_LAT_OVER_COUNT 1 else s1
  s2.sample 0x01 0 0 lat

/-- Count a gap (R195). -/
def Chan.noteGap (x : Chan) (seq : Nat) : Chan × Bool :=
  let gap := !x.first && seq != (x.lastSeq + 1) % 2 ^ 24
  ({ x with
     first := false, lastSeq := seq
     gaps := if gap then min 255 (x.gaps + 1) else x.gaps
     marks := if gap then x.marks ||| 2 else x.marks }, gap)

/-- A window result reaches the tracker (R199, R203): `score` is none for an invalid window. -/
def State.windowResult (s : State) (w : StnWin) (score : Option W32) (lat : Nat) : State :=
  let g := (s.chan w.chan).noteGap w.s
  let old := g.1.verdict
  let r := match score with | some v => g.1.onValid v | none => (g.1.onInvalid, false)
  let s1 := ((s.setChan w.chan r.1).addSat STN_WINDOWS STN_WINDOWS_COUNT 1).noteLatency lat
  let s2 := s1.count 0x30 (s1.fld STN_CTRL STN_CTRL_CTX) 0 1
  let s3 := if r.2 then s2.stnErr STN_ERR_STATUS_TRACKER_SAT w.chan else s2
  let all := r.1.flag 0
  let fl : BitVec 8 := (if score.isNone then 4 else 0) ||| (if all then 0x80 else 0)
  let s4 := if r.1.verdict ≠ old || all then s3.recordChange w.chan old (score.getD noScore) fl (some w.at_) else s3
  (s4.updateLines).digestResult w.chan w.s score.isSome (score.getD 0) (g.2 || w.readErr)

/-- Drop the first window of a channel. -/
def dropFirstWin (n : Nat) : List StnWin → List StnWin
  | [] => []
  | w :: ws => if w.chan = n then ws else w :: dropFirstWin n ws

/-- Change the first window of a channel. -/
def mapFirstWin (n : Nat) (f : StnWin → StnWin) : List StnWin → List StnWin
  | [] => []
  | w :: ws => if w.chan = n then f w :: ws else w :: mapFirstWin n f ws

def State.setWins (s : State) (ws : List StnWin) : State := { s with stn := { s.stn with windows := ws } }

/-- Let a tile go on: a fetched window at its head starts on it, or, when it does not run, reaches the tracker at once
as an invalid one (R196). -/
def State.pumpTile (l : Nat) : Nat → State → State
  | 0, s => s
  | n + 1, s =>
    match s.tileWindows l with
    | [] => s
    | w :: _ =>
      if w.started || !w.fetched then s
      else if w.run then s.setWins (mapFirstWin w.chan (fun v => { v with started := true }) s.stn.windows)
      else
        State.pumpTile l n ((s.setWins (dropFirstWin w.chan s.stn.windows)).windowResult w none (s.latOf w))

def State.pumpTiles (s : State) (l : Nat) : State := State.pumpTile l (s.tileWindows l).length s

/-! ## The SENT descriptor that waits for running windows (R202, R209, R210) -/

/-- The STN_CHAN_STATUS, STN_CHAN_COUNTS, STN_CHAN_ESTIMATE and STN_CHAN_SCORE values of a channel (Table 11). -/
def State.chanStatus (s : State) (n : Nat) : Nat :=
  let x := s.chan n
  x.verdict * 2 ^ 61 + (if x.enabled then 2 ^ 60 else 0) + (if x.configured then 2 ^ 59 else 0) +
    (if s.stn.records.any (fun r => r.chan == n) then 2 ^ 58 else 0) + s.pendingWins n % 4 * 2 ^ 56 + x.above * 2 ^ 48 +
    x.tripN * 2 ^ 40 + x.below * 2 ^ 24 + x.lastSeq

def State.chanCounts (s : State) (n : Nat) : Nat :=
  let x := s.chan n
  x.n * 2 ^ 40 + x.invalidRun * 2 ^ 24 + x.gaps * 2 ^ 16 + x.overruns * 2 ^ 8 + x.stateErrs

/-- Bytes that READ_STATE writes of a channel. -/
def State.readStateLen (s : State) (n : Nat) : Nat := 64 + 1024 * (s.chan n).stateKib

/-- What READ_STATE writes of a channel (Table 9). -/
def State.readStateBytes (s : State) (n : Nat) : List Byte :=
  leBytes 8 (s.chanStatus n) ++ leBytes 8 (s.chanCounts n) ++ leBytes 4 (s.chan n).est.toNat ++
    leBytes 4 (s.chan n).score.toNat ++ leBytes 40 0 ++ s.bankRead (s.stateAddr n) (1024 * (s.chan n).stateKib)

/-- CHAN_FIRST, CHAN_COUNT and the channels of a SENT descriptor (Table 7). -/
def sentFirst (d : Desc) : Nat := dF d 12 2
def sentCount (d : Desc) : Nat := dF d 14 2
def sentChans (d : Desc) : List Nat := (List.range (sentCount d)).map (sentFirst d + ·)
def sentAddr (d : Desc) : Nat := dF d 16 8

/-- Where READ_STATE writes a channel's bytes. -/
def State.readStateAt (s : State) (d : Desc) (n : Nat) : Nat :=
  sentAddr d + ((sentChans d).filter fun i => decide (i < n)).foldl (fun k i => k + s.readStateLen i) 0

/-- The rest of a SENT on a channel whose running window has ended: RESET's zero fill, or READ_STATE's copy. -/
def State.sentChan (s : State) (d : Desc) (op n : Nat) : State :=
  if op = 4 then s.zeroState n
  else if op = 8 then s.dramWrite (s.fld STN_CTRL STN_CTRL_CTX) (s.readStateAt d n) (s.readStateBytes n)
  else s

/-- Class words of a SENT that acted on `k` channels. -/
def sentWords (k : Nat) : Nat := k + 0xFFF * 2 ^ 16

/-- Complete the running SENT when it waits for no window any more. -/
def State.sentDone (s : State) : State :=
  match s.stn.op with
  | some o =>
    if o.waits = [] then
      let s1 := { s with stn := { s.stn with op := none } }
      match s1.work? o.ring o.seq with
      | some w => s1.complete w stDone 0 (sentWords (sentCount w.desc))
      | none => s1
    else s
  | none => s

/-- Would READ_STATE's copy of the channel meet the object of a running kernel (R58)? -/
def State.sentMeets (s : State) (d : Desc) (op n : Nat) : Bool :=
  op == 8 && s.objectBusy (s.readStateAt d n) (s.readStateLen n)

/-- A channel's window has left its tile. A copy that would meet the object of a kernel that runs by then fails the SENT, and
the channels before it have been acted on (R58). -/
def State.sentAdvance (s : State) (n : Nat) : State :=
  match s.stn.op with
  | some o =>
    if o.waits.contains n then
      match s.work? o.ring o.seq with
      | some w =>
        if s.sentMeets w.desc o.op n then
          ({ s with stn := { s.stn with op := none } }).complete w stAccessDenied 0
            (sentWords (sentCount w.desc - o.waits.length))
        else
        let s1 := s.sentChan w.desc o.op n
        ({ s1 with stn := { s1.stn with op := some { o with waits := o.waits.filter (· != n) } } }).sentDone
      | none => { s with stn := { s.stn with op := none } }
    else s
  | none => s

/-- The window on a channel's tile ends: its result, unless it was discarded, and what waited for it. -/
def State.endWindow (s : State) (w : StnWin) (score : Option W32) (lat : Nat) : State :=
  let s1 := s.setWins (dropFirstWin w.chan s.stn.windows)
  let s2 := if w.dead then s1 else s1.windowResult w score lat
  (s2.sentAdvance w.chan).pumpTiles (w.chan % 8)

/-- The window of the channel that is on its tile. -/
def State.tileWin? (s : State) (n : Nat) : Option StnWin := s.stn.windows.find? fun w => w.chan == n && w.started

/-! ## Stops (R190) -/

/-- Pending windows of a channel are discarded; one on the tile goes on, and its result is discarded (R202). -/
def State.discardWins (s : State) (n : Nat) : State :=
  (s.setWins ((s.stn.windows.filter fun w => !(w.chan == n && !w.started)).map fun w =>
    if w.chan = n then { w with dead := true } else w)).pumpTiles (n % 8)

/-- The Sentinel stops: windows end without a result, and what a model had written of its state block by then is left
open; a SENT that waited for a window completes. -/
def State.stopSentinel (s : State) : State :=
  let on := (s.stn.windows.filter fun w => w.started).map (·.chan)
  let s1 := s.each on fun t n => (t.bankUndef (t.stateAddr n) (1024 * (t.chan n).stateKib)).each
    (banksIn (t.stateAddr n) (1024 * (t.chan n).stateKib)) fun u g => u.bankDirty g
  let s2 := (s1.setWins []).setBit STN_STATUS STN_STATUS_RUNNING false
  s2.each on fun t n => t.sentAdvance n

/-- DISABLE of one channel (R202, Table 9). -/
def State.disableChan (s : State) (n : Nat) : State :=
  let s1 := s.discardWins n
  let x := s1.chan n
  ((s1.setChan n { x with enabled := false, verdict := vNoData }).recordChange n x.verdict noScore 0x40 none).updateLines

/-- Step 3 of a scrub of the Sentinel context (R275): every channel disabled, every slot emptied, ENABLE clear. -/
def State.scrubSentinel (s : State) : State :=
  let s1 := s.stopSentinel
  let s2 := s1.each s1.enabledChans fun t n => t.disableChan n
  ({ s2 with stn := { s2.stn with models := [] } }).setBit STN_CTRL STN_CTRL_ENABLE false

/-! ## SENT (R208 to R210) -/

/-- Reserved bytes of a SENT (Table 7). -/
def sentReserved (d : Desc) : Bool := dZero d 10 2 && dZero d 28 4 && dZero d 48 16 && decide (dF d 16 8 < 2 ^ 40)

/-- Fields within Table 7 and zero where unused. -/
def sentFields (d : Desc) (op : Nat) : Bool :=
  let model := op == 6 || op == 7
  (if model then decide (dF d 9 1 < 16) && dZero d 12 4
   else dZero d 9 1 && inR 1 4096 (sentCount d) && decide (sentFirst d + sentCount d ≤ 4096)) &&
  (if op = 6 then decide (sentAddr d % 4096 = 0) && inR 4096 1048576 (dF d 24 4)
   else dZero d 24 4 && dZero d 32 16 && (if op = 1 || op = 8 then decide (sentAddr d % 64 = 0) else dZero d 16 8))

/-- Bytes of the ADDR region. -/
def State.sentBytes (s : State) (d : Desc) (op : Nat) : Nat :=
  if op = 1 then 320 * sentCount d else if op = 6 then dF d 24 4
  else if op = 8 then ((sentChans d).map s.readStateLen).sum else 0

/-- KiB of weights and of code that the loaded models use (R197). -/
def State.weightsUsed (s : State) : Nat := (s.stn.models.map fun e => e.2.decl.weightsKib).sum
def State.codeUsed (s : State) : Nat := (s.stn.models.map fun e => e.2.decl.codeKib).sum

/-- Where a model's copy is placed: the lowest end of another copy, or 0, at which it meets none. -/
def State.modelPlace (s : State) (k : Nat) : Nat :=
  ((0 :: s.stn.models.map fun e => e.2.at_ + e.2.decl.weightsKib).find? fun a =>
    decide (a + k ≤ 768) && !(s.stn.models.any fun e => overlaps a k e.2.at_ e.2.decl.weightsKib)).getD 0

/-- Check 7 of LOAD_MODEL: digest, Sentinel entry, slot empty and room. -/
def State.modelOk (s : State) (d : Desc) (o : ObjFacts) : Bool :=
  decide (dF d 32 16 = o.digest.toNat % 2 ^ 128) && (tabGet? s.stn.models (dF d 9 1)).isNone &&
  match o.model with
  | some m => decide (s.weightsUsed + m.weightsKib ≤ 768) && decide (s.codeUsed + m.codeKib ≤ 48)
  | none => false

/-- The precondition of Table 9 for a channel. -/
def State.sentReady (s : State) (op n : Nat) : Bool :=
  let x := s.chan n
  if op = 2 then x.configured && !x.enabled
  else if op = 4 then x.enabled && x.verdict != vTrip
  else if op = 1 then !x.enabled
  else x.enabled

/-- The entries of a CONFIGURE, as DRAM holds them. -/
def State.sentEntries (s : State) (c : Nat) (d : Desc) : List (Nat × Chan) :=
  (List.range (sentCount d)).map fun k =>
    (sentFirst d + k, { s.chan (sentFirst d + k) with entry := s.dramRead c (sentAddr d + 320 * k) 320 })

/-- Check 8: the lowest failing channel, none where none fails; 0xFFF for an UNLOAD_MODEL whose slot a configured channel
names. -/
def State.sentBad (s : State) (c : Nat) (d : Desc) (op : Nat) : Option Nat :=
  if op = 1 then s.entriesBad (s.sentEntries c d)
  else if op = 6 then none
  else if op = 7 then
    (if s.stn.chans.any (fun e => e.2.configured && e.2.model == dF d 9 1) then some 0xFFF else none)
  else (sentChans d).find? fun n => !(s.sentReady op n)

/-- Checks 1 to 7 of Table 8. -/
def State.sentChecks (s : State) (c : Option Nat) (d : Desc) (op : Nat) (o : ObjFacts) : List (Bool × Nat) :=
  let cx := c.getD 0
  let len := s.sentBytes d op
  [(sentReserved d && inR 1 (if dF d 2 2 = 1 then 7 else 8) op, stBadDescriptor),
   (s.stnRunning && c.isSome && c == s.sentCtx, stAccessDenied),
   (sentFields d op, stBadDescriptor),
   (decide (len = 0) || (if op = 8 then s.dramOkW cx (sentAddr d) len && !(s.objectBusy (sentAddr d) len)
      else s.dramOk cx (sentAddr d) len), stAccessDenied)] ++
  (if op = 6 then
    [(o.signed && s.wrappedFor cx o, stAccessDenied),
     (decide (o.version = 1) || decide (o.version = 2), stVersionMismatch),
     (s.modelOk d o, stBadDescriptor)] else [])

/-- ENABLE of one channel. Frames of a SOLO module that stopped on a link loss start again with it (Pair.lean). -/
def State.enableChan (s : State) (n : Nat) : State :=
  let s1 := s.setChan n { (s.chan n).init s.now with enabled := true }
  (s1.zeroState n).updateLines

/-- RESET of one channel: after the window on its tile, the state block is zero-filled (R202). -/
def State.resetChan (s : State) (d : Desc) (n : Nat) : State :=
  let s1 := s.discardWins n
  let old := (s1.chan n).verdict
  let s2 := s1.setChan n ((s1.chan n).init s1.now)
  let s3 := if (s2.chan n).verdict ≠ old then s2.recordChange n old noScore 0 none else s2
  let s4 := s3.updateLines
  if s4.chanOnTile n then s4 else s4.sentChan d 4 n

/-- ACK of one channel (R200). -/
def State.ackChan (s : State) (n : Nat) : State :=
  let x := s.chan n
  if x.verdict = vTrip then
    let y := { x with
      verdict := if x.n < x.warmup then vLearning else vNormal
      above := 0, below := 0, tripN := 0, invalidRun := 0, since := s.now }
    ((s.setChan n y).recordChange n vTrip noScore 0x20 none).updateLines
  else s

/-- LOAD_MODEL: a copy in every tile's model region; how an object lays out its weights is not documented, so the bytes
are free values. -/
def State.loadModel (s : State) (d : Desc) (o : ObjFacts) : State :=
  match o.model with
  | some m =>
    let at_ := s.modelPlace m.weightsKib
    let s1 := s.each (clusterTiles (s.fld STN_CTRL STN_CTRL_CLUSTER)) fun t i =>
      let a := (8 * i + 7) * 0x100000 + 1024 * at_
      (t.bankUndef a (1024 * m.weightsKib)).bankTouched a (1024 * m.weightsKib) (8 * i + 7)
    { s1 with stn := { s1.stn with models := tabSet s1.stn.models (dF d 9 1) { decl := m, digest := o.digest, at_ := at_ } } }
  | none => s

/-- The effect of a SENT at its admission, in ascending channel order (R202, R210). -/
def State.sentEffect (s : State) (c : Nat) (d : Desc) (op : Nat) (o : ObjFacts) : State :=
  match op with
  | 1 => (s.sentEntries c d).foldl (fun t e => t.setChan e.1 e.2) (s.touch c (sentAddr d) (320 * sentCount d) false)
  | 2 => s.each (sentChans d) fun t n => t.enableChan n
  | 3 => s.each (sentChans d) fun t n => t.disableChan n
  | 4 => s.each (sentChans d) fun t n => t.resetChan d n
  | 5 => s.each (sentChans d) fun t n => t.ackChan n
  | 6 => (s.touch c (sentAddr d) (dF d 24 4) false).loadModel d o
  | 7 => { s with stn := { s.stn with models := tabDel s.stn.models (dF d 9 1) } }
  | _ => s.each (sentChans d) fun t n => if t.chanOnTile n then t else t.sentChan d 8 n

/-- The channels whose running window the descriptor waits for. -/
def State.sentWaits (s : State) (d : Desc) (op : Nat) : List Nat :=
  if op = 3 || op = 4 || op = 8 then (sentChans d).filter s.chanOnTile else []

/-- The DRAM that the checks of a SENT read, once its first four checks pass: the entries of a CONFIGURE and the object of a
LOAD_MODEL. An uncorrectable line fails it (R259). -/
def State.sentReads (s : State) (c : Nat) (d : Desc) (op : Nat) (o : ObjFacts) : Option State :=
  if (op == 1 || op == 6) && (firstFail ((s.sentChecks (some c) d op o).take 4)).isNone then
    s.readFails c [(sentAddr d, s.sentBytes d op)]
  else none

/-- A SENT descriptor at the head of its ring: one at a time, module-wide (R209). -/
def State.sentHead (s : State) (r op : Nat) (o : ObjFacts) (f : Fetched) : State :=
  if s.stn.op.isSome then s
  else
    let c := ringCtx r
    let d := f.desc
    match s.sentReads (c.getD 0) d op o, firstFail (s.sentChecks c d op o) with
    | some t, _ => t.reject r f stMemoryUncorrectable
    | none, some st => ((if st = stAccessDenied then
        (if op = 8 then s.noteProtW (c.getD 0) (sentAddr d) (s.sentBytes d op)
         else s.noteProt (c.getD 0) (sentAddr d) (s.sentBytes d op)) else s)).reject r f st
    | none, none =>
      match s.sentBad (c.getD 0) d op with
      | some n => s.rejectWith r f stBadDescriptor (n * 2 ^ 16)
      | none =>
        let s1 := (s.popHead r).addWork (mkWork r f op .committing)
        let s2 := s1.sentEffect (c.getD 0) d op o
        let waits := s2.sentWaits d op
        ({ s2 with stn := { s2.stn with op := some { ring := r, seq := f.seq, op := op, waits := waits } } }).sentDone.settle

/-! ## The commands -/

/-- STN_CTRL_ENABLE (R189). -/
def stnCtrlEnable (v : W32) (s : State) : State := if v.toNat / 2 ^ 31 % 2 = 1 then s.stnCtrlWrite v else s

/-- STN_CTRL_DISABLE (R189). -/
def stnCtrlDisable (v : W32) (s : State) : State := if v.toNat / 2 ^ 31 % 2 = 0 then s.stnCtrlWrite v else s

/-- SENTINEL_RUNNING (R189). -/
def sentinelRunning (s : State) : State := s.startServing

/-- An accepted or refused doorbell of the Sentinel context's window (R194, R195). -/
def State.windowDoorbell (s : State) (v : W64) : State :=
  let n := v.toNat % 4096
  let seq := v.toNat / 2 ^ 16 % 2 ^ 24
  let clean := decide (v.toNat / 4096 % 16 = 0) && decide (v.toNat < 2 ^ 40)
  if !clean || !(s.chan n).enabled || !s.stnRunning then
    (s.addSat STN_DROPPED STN_DROPPED_COUNT 1).stnErr STN_ERR_STATUS_DOORBELL_DROPPED n
  else if 2 ≤ s.pendingWins n then
    let x := s.chan n
    ((s.setChan n { x with overruns := min 255 (x.overruns + 1) }).addSat STN_DROPPED STN_DROPPED_COUNT 1).stnErr
      STN_ERR_STATUS_OVERRUN n
  else (s.setChan n { s.chan n with since := s.now }).setWins (s.stn.windows ++ [{ chan := n, s := seq, at_ := s.now }])

/-- SENTINEL_DOORBELL (R194, R238): a write to the Sentinel doorbell area of a context window. A module that is not READY, as
on a narrow link, takes no doorbell (R232). -/
def sentinelDoorbell (fn off bits : Nat) (v : W64) (s : State) : State :=
  match bar2Window fn off with
  | some (c, o) =>
    if !(inR 0x1000 0x1FFF o) then s
    else if !(s.servesWindow fn c) then (if fn = 0 then s.dropDoorbell c 0 else s)
    else if o % 8 ≠ 0 || bits != 64 || !s.ready || s.sentCtx != some c then s.dropDoorbell c 0
    else s.windowDoorbell v
  | none => s

/-- The converted value of a sample (R196). -/
def convertSample (x : Chan) (i : Nat) (code : Nat) : Num :=
  (vFma (Num.ofInt (signedOf 16 code)) (decodeF32 (x.w (64 + 8 * i))) (decodeF32 (x.w (68 + 8 * i)))).1

/-- The samples of a window, converted, in the order of R194. -/
def convertWindow (x : Chan) (b : List Byte) : List Num :=
  (List.range (x.signals * x.samples)).map fun k => convertSample x (k % x.signals) (bf b (64 + 2 * k) 2)

/-- Is a value finite? -/
def Num.isFin : Num → Bool
  | .fin _ _ _ => true
  | _ => false

/-- The staging slot that a window takes: the one that no other fetched window of its tile holds. -/
def State.freeSlot (s : State) (l : Nat) : Nat :=
  if (s.tileWindows l).any fun w => w.fetched && w.run && w.slot == 0 then 1 else 0

/-- May the window's fetch be under way? The tile has two staging slots (Table 1, Table 6 step 3). -/
def State.fetching (s : State) (n : Nat) : Option StnWin :=
  ((s.tileWindows (n % 8)).take 2).find? fun w => w.chan == n && !w.fetched

/-- Mark the channel's first window that is not fetched. -/
def markFetched (n : Nat) (f : StnWin → StnWin) : List StnWin → List StnWin
  | [] => []
  | w :: ws => if w.chan = n && !w.fetched then f w :: ws else w :: markFetched n f ws

/-- The data of a window arrives (R196). -/
def State.windowData (s : State) (n : Nat) (w : StnWin) (b : List Byte) : State :=
  let x := s.chan n
  let s0 := s.hostReceived (s.servingFn (128 * s.fld STN_CTRL STN_CTRL_CTX)) (windowAddr x w.s) (windowBytes x)
  if bf b 0 4 ≠ w.s then s0.setWins (markFetched n (fun v => { v with fetched := true }) s0.stn.windows)
  else
    let vals := convertWindow x b
    let ok := decide (bf b 4 4 % 2 ^ x.signals = 0) && vals.all Num.isFin
    let slot := s0.freeSlot (n % 8)
    let s1 := s0.banksWrite ((8 * s0.chanTile n + 7) * 0x100000 + 0xC0000 + 0x20000 * slot)
      (vals.flatMap fun v => leBytes 4 (encodeF32 v).toNat)
    s1.setWins (markFetched n (fun v => { v with fetched := true, run := true, valid := ok, slot := slot }) s1.stn.windows)

/-- WINDOW_FETCH_DONE (R196). -/
def windowFetchDone (n : Nat) (rd : HostRd) (s : State) : State :=
  match s.fetching n with
  | some w =>
    match rd with
    | .data b => (s.windowData n w b).pumpTiles (n % 8)
    | .error e =>
      let s0 := s.hostAsk (s.servingFn (128 * s.fld STN_CTRL STN_CTRL_CTX)) (windowAddr (s.chan n) w.s) (windowBytes (s.chan n))
      let s1 := s0.stnErr STN_ERR_STATUS_HOST_READ_ERR n
      let s2 := s1.noteHostErr (128 * s1.fld STN_CTRL STN_CTRL_CTX) e
      (s2.setWins (markFetched n (fun v => { v with fetched := true, readErr := true }) s2.stn.windows)).pumpTiles (n % 8)
  | none => s

/-- The copy of a channel's model in its tile's model region: address and bytes (R191, R197). -/
def State.modelAt (s : State) (n : Nat) : Nat × Nat :=
  match tabGet? s.stn.models (s.chan n).model with
  | some m => ((8 * s.chanTile n + 7) * 0x100000 + 1024 * m.at_, 1024 * m.decl.weightsKib)
  | none => (0, 0)

/-- The converted values of a window, as its staging slot holds them. -/
def State.stagedWindow (s : State) (w : StnWin) : List Byte :=
  s.bankRead ((8 * s.chanTile w.chan + 7) * 0x100000 + 0xC0000 + 0x20000 * w.slot)
    (4 * (s.chan w.chan).signals * (s.chan w.chan).samples)

/-- A model faults: zero state, an invalid window, STATE_ERRS and MODEL_FAULT; an uncorrectable word of the state block sets
STATE_UNCORR (R198). -/
def State.faultWindow (s : State) (w : StnWin) (stateBad : Bool) : State :=
  let n := w.chan
  let s1 := s.zeroState n
  let x := s1.chan n
  let s2 := (s1.setChan n { x with
    stateErrs := min 255 (x.stateErrs + 1), marks := x.marks ||| 8 }).stnErr STN_ERR_STATUS_MODEL_FAULT n
  let s3 := if stateBad then s2.stnErr STN_ERR_STATUS_STATE_UNCORR n else s2
  s3.endWindow w none (s3.latOf w)

/-- A model ends: its score, and the state block as it leaves it, are functions of its object, the window's converted values
and the state block (R44, R197). -/
def State.scoreWindow (s : State) (w : StnWin) (latency : Nat) : State :=
  let n := w.chan
  let x := s.chan n
  let dig := match tabGet? s.stn.models x.model with | some m => m.digest | none => 0
  let st := s.bankRead (s.stateAddr n) (1024 * x.stateKib)
  let win := s.stagedWindow w
  let s1 := s.banksWrite (s.stateAddr n) ((List.range (1024 * x.stateKib)).map (Config.modelState dig x.signals win st))
  s1.endWindow w (if w.valid then some (Config.modelScore dig x.signals win st) else none) latency

/-- MODEL_DONE (R197, R198). A model reads its whole copy and its whole state block, so that a word of them that has been
found uncorrectable, and not been rewritten, faults it: which of them a run reads is not documented (DESIGN CHOICE,
notes/assumptions/26.md). -/
def modelDone (n latency : Nat) (s : State) : State :=
  match s.tileWin? n with
  | some w =>
    match s.bankFails (bankPieces (s.stateAddr n) (1024 * (s.chan n).stateKib)), s.bankFails [s.modelAt n] with
    | some t, _ => t.faultWindow w true
    | none, some t => t.faultWindow w false
    | none, none => s.scoreWindow w latency
  | none => s

/-- MODEL_FAULT (R198): for an uncorrectable word, it is the one at a byte of the state block or of the model's copy. -/
def modelFault (n : Nat) (kind : FaultKind) (offset : Nat) (s : State) : State :=
  match s.tileWin? n with
  | some w =>
    let k := 1024 * (s.chan n).stateKib
    let a := if kind = .stateUncorr then s.stateAddr n + offset % k else (s.modelAt n).1 + offset % (s.modelAt n).2
    let s1 := if kind = .stateUncorr || kind = .modelUncorr then s.bankUncorrected (bankOf a) (a / 8) else s
    s1.faultWindow w (kind == .stateUncorr)
  | none => s

/-- STALE_TIMEOUT (R201). -/
def staleTimeout (n : Nat) (s : State) : State :=
  let x := s.chan n
  if x.enabled && s.stnRunning && decide (x.staleUs ≠ 0) && decide (x.verdict ≤ vAlarm) && decide (x.since + x.staleUs ≤ s.now) then
    ((s.setChan n { x with verdict := vNoData }).recordChange n x.verdict noScore 0x10 none).updateLines
  else s

/-- A SENT descriptor (R208 to R210); the object's facts matter to LOAD_MODEL alone. -/
def sentCmd (r op : Nat) (o : ObjFacts) (s : State) : State := s.withHead r clSent op (s.sentHead r op o)

end Sys2Proof.Machine
end

