-- ==== Sys2Proof/Machine/Dma.lean ====
section
/-! DEFINITION. The DMA class, and how the admitted work of any class stops (Host Interface, Command Rings and
Completions, R249, R250, R255; the stop rules of R66, R115, R159, R184, R225). -/

namespace Sys2Proof.Machine

/-! ## The DMA body (Table 7) -/

def mSrcSpace (d : Desc) : Nat := dF d 9 1
def mDstSpace (d : Desc) : Nat := dF d 10 1
def mKey (d : Desc) : Nat := dF d 11 1
def mSrc (d : Desc) : Nat := dF d 16 8
def mDst (d : Desc) : Nat := dF d 24 8
def mLen (d : Desc) : Nat := dF d 32 8

/-- Unused address bits of a space are zero. -/
def mAddrOk (space a : Nat) : Bool := if space = 0 then decide (a < 2 ^ 40) else if space = 1 then decide (a < 2 ^ 29) else true

/-- Check 1 of R249. -/
def dmaFieldsOk (d : Desc) (op : Nat) : Bool :=
  dZero d 48 16 && decide (mSrcSpace d < 3) && decide (mDstSpace d < 3) && decide (mKey d < 8) &&
  inR 1 17179869184 (mLen d) && mAddrOk (mSrcSpace d) (mSrc d) && mAddrOk (mDstSpace d) (mDst d) &&
  (if op = 2 then decide (mSrcSpace d = 0) && decide (mSrc d = 0) else dZero d 40 8)

/-- Check 2 of R249: no host-to-host transfer, and no overlap in one space. -/
def dmaShapeOk (d : Desc) (op : Nat) : Bool :=
  op == 2 || !(mSrcSpace d == 2 && mDstSpace d == 2) &&
    !(mSrcSpace d == mDstSpace d && overlaps (mSrc d) (mLen d) (mDst d) (mLen d))

/-- The pieces of a DMA's bank region, physical or under a placement. -/
def dmaPieces (key : Nat) (tiles : List Nat) (addr len : Nat) : List (Nat × Nat) :=
  if key = 0 then physPieces addr len else logicalPieces tiles addr len

/-- Check 4 of R249 for one bank region. -/
def State.dmaBankOk (s : State) (c key addr len : Nat) : Bool :=
  if key = 0 then decide (addr + len ≤ 2 ^ 29) && (banksIn addr len).all fun g => s.bankOwnerSeen g == some c
  else s.keyTiles c key != [] && decide (addr + len ≤ (s.keyTiles c key).length * 0x800000)

/-- The checks of R249, and the write refusal of R58. -/
def State.dmaChecks (s : State) (c op : Nat) (d : Desc) : List (Bool × Nat) :=
  let reads := op == 1
  [(dmaFieldsOk d op, stBadDescriptor), (dmaShapeOk d op, stBadDescriptor),
   ((!(reads && mSrcSpace d == 0) || s.dramOk c (mSrc d) (mLen d)) &&
      (mDstSpace d != 0 || s.dramOkW c (mDst d) (mLen d)), stAccessDenied),
   ((!(reads && mSrcSpace d == 1) || s.dmaBankOk c (mKey d) (mSrc d) (mLen d)) &&
      (mDstSpace d != 1 || s.dmaBankOk c (mKey d) (mDst d) (mLen d)), stAccessDenied)]

/-- The banks that a DMA names. -/
def State.dmaBanks (s : State) (c op : Nat) (d : Desc) : List Nat :=
  let tiles := s.keyTiles c (mKey d)
  ((if op = 1 && mSrcSpace d = 1 then dmaPieces (mKey d) tiles (mSrc d) (mLen d) else []) ++
    (if mDstSpace d = 1 then dmaPieces (mKey d) tiles (mDst d) (mLen d) else [])).map fun p => bankOf p.1

/-- PROTECTED_ACCESS where that is why a DMA was refused (R270). -/
def State.noteDma (s : State) (c op : Nat) (d : Desc) : State :=
  let s1 := if op = 1 && mSrcSpace d = 0 then s.noteProt c (mSrc d) (mLen d) else s
  if mDstSpace d = 0 then s1.noteProtW c (mDst d) (mLen d) else s1

/-- A DMA at the head of its ring: admitted, it waits for the gate and its banks (R250, R289). -/
def State.dmaHead (s : State) (r op : Nat) (f : Fetched) : State :=
  match ringCtx r with
  | none => s
  | some c =>
    match firstFail (s.dmaChecks c op f.desc) with
    | some st =>
      (if (firstFail ((s.dmaChecks c op f.desc).take 2)).isNone then s.noteDma c op f.desc else s).reject r f st
    | none =>
      let w := { mkWork r f op .waiting with
        banks := (s.dmaBanks c op f.desc).eraseDups, tiles := s.keyTiles c (mKey f.desc) }
      ((s.popHead r).addWork w).settle

/-- The destination of a DMA becomes undefined where the module holds it. -/
def State.dmaUndef (s : State) (w : Work) : State :=
  if mDstSpace w.desc = 0 then s.dramUndefOwn w.ctx (mDst w.desc) (mLen w.desc)
  else if mDstSpace w.desc = 1 then
    (dmaPieces (mKey w.desc) w.tiles (mDst w.desc) (mLen w.desc)).foldl (fun t p =>
      (t.bankUndef p.1 p.2).bankDirty (bankOf p.1)) s
  else s

/-- A DMA stops early (R250): its destination is undefined, and BYTES counts what was written before, `written` where the
command says so and a free value up to LEN otherwise. -/
def State.stopDma (s : State) (w : Work) (status : Nat) (written : Option Nat) : State :=
  if w.phase = .waiting then s.complete w status 0 0
  else
    let n := match written with
      | some k => min k (mLen w.desc)
      | none => s.freeWord.toNat % (mLen w.desc + 1)
    ((s.bump).dmaUndef w).complete w status 0 n

/-- The bytes that a DMA writes, from its source or its pattern. -/
def State.dmaBytes (s : State) (w : Work) (rd : HostRd) : List Byte :=
  if w.op = 2 then (List.range (mLen w.desc)).map fun i => BitVec.ofNat 8 (dF w.desc (40 + i % 8) 1)
  else if mSrcSpace w.desc = 0 then s.dramRead w.ctx (mSrc w.desc) (mLen w.desc)
  else if mSrcSpace w.desc = 1 then
    (dmaPieces (mKey w.desc) w.tiles (mSrc w.desc) (mLen w.desc)).flatMap fun p => s.bankRead p.1 p.2
  else match rd with
    | .data b => b.take (mLen w.desc)
    | .error _ => []

/-- The reads of a DMA are counted. -/
def State.dmaSource (s : State) (w : Work) : State :=
  if w.op = 2 then s
  else if mSrcSpace w.desc = 0 then s.touch w.ctx (mSrc w.desc) (mLen w.desc) false
  else if mSrcSpace w.desc = 2 then s.hostReceived (s.servingFn w.ring) (mSrc w.desc) (mLen w.desc)
  else s

/-- The writes of a DMA. -/
def State.dmaStore (s : State) (w : Work) (bs : List Byte) : State :=
  if mDstSpace w.desc = 0 then s.dramWrite w.ctx (mDst w.desc) bs
  else if mDstSpace w.desc = 1 then s.piecesWrite (dmaPieces (mKey w.desc) w.tiles (mDst w.desc) (mLen w.desc)) bs
  else s.hostWrite (s.servingFn w.ring) (mDst w.desc) bs

/-- The pieces of a DMA's bank source or destination. -/
def Work.dmaSrcPieces (w : Work) : List (Nat × Nat) :=
  if w.op = 1 && mSrcSpace w.desc = 1 then dmaPieces (mKey w.desc) w.tiles (mSrc w.desc) (mLen w.desc) else []
def Work.dmaDstPieces (w : Work) : List (Nat × Nat) :=
  if mDstSpace w.desc = 1 then dmaPieces (mKey w.desc) w.tiles (mDst w.desc) (mLen w.desc) else []

/-- The bank-space address of byte `i` of pieces. -/
def pieceByte : List (Nat × Nat) → Nat → Nat
  | [], _ => 0
  | p :: ps, i => if i < p.2 then p.1 + i else pieceByte ps (i - p.2)

/-- What the error code of a memory source showed at byte `i` of it (R80, R259): the state after, and whether the read
failed. -/
def State.dmaEcc (s : State) (w : Work) (ecc : Ecc) (i : Nat) : State × Bool :=
  if w.op = 1 && mSrcSpace w.desc = 0 then
    match s.readFails w.ctx [(mSrc w.desc, mLen w.desc)], ecc with
    | some t, _ => (t, true)
    | none, .clean => (s, false)
    | none, .corrected => (s.eccCorrected (dramChannel (mSrc w.desc + i)), false)
    | none, .uncorrectable => (s.ueDemand (mSrc w.desc + i) w.ctx, true)
  else if w.op = 1 && mSrcSpace w.desc = 1 then
    let a := pieceByte w.dmaSrcPieces i
    match s.bankFails w.dmaSrcPieces, ecc with
    | some t, _ => (t, true)
    | none, .clean => (s, false)
    | none, .corrected => (s.bankCorrected (bankOf a), false)
    | none, .uncorrectable => (s.bankUncorrected (bankOf a) (a / 8), true)
  else (s, false)

/-- The open send windows of its context that a DMA writes, by 16 · port + WIN (R320). -/
def State.dmaWindows (s : State) (w : Work) : List Nat :=
  if mDstSpace w.desc = 0 then
    (s.olp.windows.filter fun e => e.2.isSend && e.2.ctx == w.ctx && overlaps e.2.base e.2.len (mDst w.desc) (mLen w.desc)).map (·.1)
  else []

/-- Every write of a DMA is issued: one that writes a send window completes only after the peer has acknowledged its last
frame (R320). -/
def State.dmaIssued (s : State) (w : Work) : State :=
  if s.dmaWindows w = [] then s.complete w stDone 0 (mLen w.desc) else s.setWork { w with phase := .committing }

/-- The data of a running DMA have come, and its banks serve it (R58, R80, R250, R259). -/
def State.moveDma (s : State) (w : Work) (rd : HostRd) (ecc : Ecc) (i : Nat) : State :=
  match s.dmaEcc w ecc (i % mLen w.desc) with
  | (s1, true) => s1.stopDma w stMemoryUncorrectable none
  | (s1, false) =>
    match s1.bankPartFails w.dmaDstPieces with
    | some t => t.stopDma w stMemoryUncorrectable none
    | none =>
      if mDstSpace w.desc = 0 && s.objectBusy (mDst w.desc) (mLen w.desc) then s1.stopDma w stAccessDenied none
      else ((s1.dmaSource w).dmaStore w (s.dmaBytes w rd)).dmaIssued w

/-- The last destination write of a running DMA is due (R250, R251). Its bank accesses are checked as the bank then stands: a
bank with another owner, pending or not, fails it, and one that is not at rest and ON yet holds it (R81, R86, R87, R91,
R93). -/
def State.finishDma (s : State) (w : Work) (rd : HostRd) (ecc : Ecc) (i : Nat) : State :=
  let host := w.op = 1 && mSrcSpace w.desc = 2
  match host, rd with
  | true, .error e => ((s.hostAsk (s.servingFn w.ring) (mSrc w.desc) (mLen w.desc)).noteHostErr w.ring e).stopDma w (hostErrStatus e) none
  | _, _ =>
    match w.banks.find? fun g => s.bankOwnerSeen g != some w.ctx with
    | some g => (s.bankDenied (g / 8) (g * 0x100000)).stopDma w stAccessDenied none
    | none =>
      if w.banks.any fun g => !(s.bankReadyFor w.ctx g) then s.each w.banks fun t g => t.wakeForReq g
      else s.moveDma w rd ecc i

/-- A DMA descriptor of one operation. -/
def dmaCmd (r op : Nat) (s : State) : State := s.withHead r clDma op (s.dmaHead r op)

/-- DMA_DONE (R250): `ecc` is what the error code shows at byte `i` of a memory source. -/
def dmaDone (r seq : Nat) (rd : HostRd) (ecc : Ecc) (i : Nat) (s : State) : State :=
  match s.work? r seq with
  | some w => if w.cls == clDma && w.phase == .running then s.finishDma w rd ecc i else s
  | none => s

/-- DMA_TIMEOUT (R250): TIMEOUT_MS has passed since its start. Time at the gate counts toward no TIMEOUT_MS, and a DMA that
waits has not started (R289). -/
def dmaTimeout (r seq written : Nat) (s : State) : State :=
  match s.work? r seq with
  | some w =>
    if w.cls == clDma && w.phase != .waiting && w.late s.now (dF w.desc 12 4) then s.stopDma w stTimeout (some written) else s
  | none => s

/-! ## Stopping the work of any class -/

/-- A SENT that waits for running windows is ended (R275). -/
def State.stopSent (s : State) (w : Work) (status : Nat) : State :=
  let s1 := match s.stn.op with
    | some o => if o.ring = w.ring && o.seq = w.seq then { s with stn := { s.stn with op := none } } else s
    | none => s
  s1.complete w status 0 (sentWords (sentCount w.desc))

/-- Admitted work stops under its class's stop rule, with a status. -/
def State.stopWork (s : State) (w : Work) (status : Nat) : State :=
  if w.cls = clKernel then s.stopKernel w status
  else if w.cls = clAttn then (if w.op = 3 then s.acceptDone w status 0 else s.stopAttn w status)
  else if w.cls = clSort then s.stopSort w status
  else if w.cls = clSeq then
    (match w.seqw with | some x => s.stopSeq w x status | none => s.complete w status 0 0)
  else if w.cls = clCodec then s.stopPicture w status
  else if w.cls = clDma then s.stopDma w status none
  else if w.cls = clFence then s.complete w status 0 (fenceWords w)
  else if w.cls = clSent then s.stopSent w status
  else if w.cls = clAdmin && w.op = 0x30 then
    let s1 := s.endInject
    s1.complete w status 0 (s1.fld MGT_UPDATE MGT_UPDATE_CHUNKS + 2 ^ 32 * s1.fld MGT_UPDATE MGT_UPDATE_STATE)
  else s.complete w status 0 0

/-- Stop every admitted descriptor that `p` picks, at most `n` of them, oldest first. -/
def State.stopWorks (p : Work → Bool) (status : Nat) : Nat → State → State
  | 0, s => s
  | n + 1, s =>
    match s.hif.works.find? p with
    | some w => State.stopWorks p status n (s.stopWork w status)
    | none => s

/-- Stop every admitted descriptor that `p` picks. -/
def State.stopAll (s : State) (p : Work → Bool) (status : Nat) : State := State.stopWorks p status s.hif.works.length s

/-- The target state of Table 13 for an admitted descriptor: a SEQ RELEASE has passed its last point at admission. -/
def Work.abortState (w : Work) : Nat :=
  if w.phase = .committing || (w.cls = clSeq && !(seqAbortable w)) then 3
  else if w.phase = .waiting then 1 else 2

end Sys2Proof.Machine
end

