-- ==== Sys2Proof/Machine/Rings.lean ====
section
/-! DEFINITION. Doorbells, descriptor fetch and the header checks, FENCE, ABORT, ring creation and deletion, ring and
version registers, and the patrol (Host Interface, Command Rings and Completions, R238 to R241, R243 to R248, R255 to
R258, R260, R262). -/

namespace Sys2Proof.Machine

/-! ## Halting and doorbells (R238, R240) -/

/-- Size of a ring. -/
def Ring.size (g : Ring) : Nat := 2 ^ g.log2

/-- Does the ring take doorbells? -/
def State.takesDoorbell (s : State) (r : Nat) : Bool := s.ready && (s.ring r).exists_ && (s.ring r).enabled

/-- A ring halts: HALT in the context's error register, MGMT_HALTED for the management ring. The trace record names the
descriptor at HEAD. -/
def State.haltRing (s : State) (r : Nat) (why : Option Bits) : State :=
  let s1 := (s.setRing r { s.ring r with halted := true }).traceRing 6 r (s.ring r).head.toNat 0 0
  match ringCtx r with
  | some c =>
    let s2 := match why with | some b => s1.ctxErr c b (r % 128) | none => s1
    s2.ctxErr c HIF_CTX_ERR_STATUS_HALT (r % 128)
  | none => s1.hifErr HIF_ERR_STATUS_MGMT_HALTED 0

/-- A doorbell is dropped. -/
def State.dropBell (s : State) (r : Nat) : State :=
  match ringCtx r with
  | some c => s.dropDoorbell c (r % 128)
  | none => s.hifErr HIF_ERR_STATUS_MGMT_DOORBELL 0

/-- Is a doorbell's value within the ring's range above `base` (R240)? -/
def inRange (v : W64) (base : W32) (size : Nat) : Bool :=
  decide (v.toNat < 2 ^ 32) && decide ((v.truncate 32 - base).toNat ≤ size)

/-- A submission tail doorbell of a ring (R240). -/
def State.tailBell (s : State) (r : Nat) (v : W64) : State :=
  let g := s.ring r
  if !(s.takesDoorbell r) then s.dropBell r
  else if inRange v g.head g.size then s.setRing r { g with tail := v.truncate 32, bellAt := some (g.bellAt.getD s.now) }
  else s.haltRing r (some HIF_CTX_ERR_STATUS_TAIL_RANGE)

/-- A completion head doorbell of a ring: the records written lie at most the ring's size above it (R240). -/
def State.headBell (s : State) (r : Nat) (v : W64) : State :=
  let g := s.ring r
  if !(s.takesDoorbell r) then s.dropBell r
  else if decide (v.toNat < 2 ^ 32) && decide ((g.records - v.truncate 32).toNat ≤ g.size) then
    s.setRing r { g with cqHead := v.truncate 32 }
  else s.haltRing r (some HIF_CTX_ERR_STATUS_TAIL_RANGE)

/-- A write to BAR2 of a function (R235, R238, Table 3). A VF has no other window than its own, and none that it does not
serve. A doorbell is one naturally aligned write of 64 bits. -/
def State.bar2Write (s : State) (fn off bits : Nat) (v : W64) : State :=
  if fn = 0 && off = 0x200000 && bits = 64 then s.tailBell mgmtRing v
  else if fn = 0 && off = 0x200400 && bits = 64 then s.headBell mgmtRing v
  else match bar2Window fn off with
    | none => if fn = 0 then s.hifErr HIF_ERR_STATUS_MGMT_DOORBELL 0 else s
    | some (c, o) =>
      if !(s.servesWindow fn c) then (if fn = 0 then s.dropDoorbell c 0 else s)
      else if o % 8 ≠ 0 || bits != 64 then s.dropDoorbell c 0
      else if o < 0x400 then s.tailBell (128 * c + o / 8) v
      else if o < 0x800 then s.headBell (128 * c + (o - 0x400) / 8) v
      else if inR 0x1000 0x1FFF o then sentinelDoorbell fn off bits v s
      else s.dropDoorbell c 0

/-- SUBMISSION_TAIL_DOORBELL (R240). -/
def submissionTailDoorbell (fn off bits : Nat) (v : W64) (s : State) : State :=
  (s.tlpIn fn (bits / 8)).bar2Write fn off bits v

/-- COMPLETION_HEAD_DOORBELL (R240). -/
def completionHeadDoorbell (fn off bits : Nat) (v : W64) (s : State) : State := (s.tlpIn fn (bits / 8)).bar2Write fn off bits v

/-! ## Fetch and the header (R241, R244, R245) -/

/-- The OP codes that a class lists; a class without an OP byte lists all. -/
def opListed (cls op : Nat) : Bool :=
  if cls = clDma then inR 1 2 op
  else if cls = clSeq then inR 1 8 op
  else if cls = clAttn then inR 1 3 op
  else if cls = clCodec then inR 1 5 op
  else if cls = clSent then inR 1 8 op
  else if cls = clSort then inR 1 5 op
  else if cls = clAdmin then inR 1 2 op || inR 0x10 0x19 op || inR 0x20 0x21 op || inR 0x30 0x35 op || inR 0x40 0x47 op
  else true

/-- The highest format version that a ring takes. -/
def State.ringVersion (s : State) (r : Nat) : Nat :=
  match ringCtx r with
  | some c => s.fld (HIF_VERSION_SELECT c) HIF_VERSION_SELECT_VERSION
  | none => 2

/-- The header check of R245, with the class check that every class makes of its OP byte. -/
def State.headerStatus (s : State) (r : Nat) (d : Desc) : Option Nat :=
  let ver := dF d 2 2
  let cls := dF d 0 1
  firstFail [(inR 1 2 ver && decide (ver ≤ s.ringVersion r), stVersionMismatch), (inR 1 0xB cls, stBadDescriptor),
    (decide (dF d 1 1 < 4), stBadDescriptor),
    (r != mgmtRing || cls == clAdmin || cls == clFence || cls == clAbort, stAccessDenied),
    (opListed cls (dF d 8 1), stBadDescriptor)]

/-- How many of `count` descriptors may be fetched now (R241). -/
def State.fetchable (s : State) (r count : Nat) : Nat :=
  let g := s.ring r
  if s.takesDoorbell r && s.linkUp && !g.closing && !g.halted then
    let left := (g.tail - g.head).toNat
    let used := (g.head - g.cqHead).toNat
    min (min count left) (min (16 - g.queue.length) (g.size - used))
  else 0

/-- A fetched descriptor: its header is checked, and an ABORT that came before it holds (R255). -/
def State.fetchedOf (s : State) (r seq : Nat) (b : List Byte) : Fetched :=
  let d : Desc := BitVec.ofNat 512 (leNat (b.take 64))
  { seq := seq, desc := d, header := s.headerStatus r d, aborted := (s.ring r).early.contains seq }

/-- The descriptors' addresses: number n lies in slot n mod size (R239), and a read does not run past the ring's end. -/
def State.fetchReads (s : State) (r n : Nat) : List (Nat × Nat) :=
  let g := s.ring r
  let i := g.head.toNat % g.size
  let k := min n (g.size - i)
  (g.sqBase.toNat + 64 * i, 64 * k) :: if k < n then [(g.sqBase.toNat, 64 * (n - k))] else []

/-- The context of a ring in the round robin; the management ring, which belongs to none, takes its turn as a context of its
own (DESIGN CHOICE, notes/assumptions/19.md). -/
def turnCtx (r : Nat) : Nat := (ringCtx r).getD 32

/-- How far a ring is from its turn: contexts round robin, and the rings of a context round robin (R241). -/
def State.turnOf (s : State) (r : Nat) : Nat :=
  128 * ((turnCtx r + 32 - s.hif.lastCtx) % 33) + (r % 128 + 127 - tabGetD s.hif.lastRing (turnCtx r) 127) % 128

/-- Is it the ring's turn to be fetched from (R241)? -/
def State.fetchTurn (s : State) (r : Nat) : Bool :=
  !(s.hif.rings.any fun p => s.fetchable p.1 1 != 0 && decide (s.turnOf p.1 < s.turnOf r))

/-- The ring has had its turn. -/
def State.tookTurn (s : State) (r : Nat) : State :=
  { s with hif := { s.hif with lastCtx := turnCtx r, lastRing := tabSet s.hif.lastRing (turnCtx r) (r % 128) } }

/-- The data of a fetch arrives. -/
def State.fetchData (s : State) (r n : Nat) (b : List Byte) : State :=
  let g := s.ring r
  let fs := (List.range n).map fun i => s.fetchedOf r ((g.head + BitVec.ofNat 32 i).toNat) (b.drop (64 * i))
  let s1 := (s.fetchReads r n).foldl (fun t p => t.hostReceived (s.servingFn r) p.1 p.2) (s.tookTurn r)
  let s2 := match g.bellAt with | some t => s1.sample 0x05 (ringCtxD r) 0 (100 * (s.now - t)) | none => s1
  (s2.setRing r { g with
    queue := g.queue ++ fs, head := g.head + BitVec.ofNat 32 n, bellAt := none
    early := g.early.filter fun q => !(fs.any fun f => f.seq == q) }).settle

/-- A fetch read completes with an error: the ring halts, and one record of CLASS 0 carries HEAD and the status of
Table 8 (R241, R251). -/
def State.fetchError (s : State) (r n : Nat) (e : HostErr) : State :=
  let s0 := (s.fetchReads r n).foldl (fun t p => t.hostAsk (s.servingFn r) p.1 p.2) (s.tookTurn r)
  let s1 := (s0.noteHostErr r e).haltRing r (some HIF_CTX_ERR_STATUS_FETCH_ERR)
  s1.putRecord r 0 (s1.ring r).head.toNat 0 (hostErrStatus e) 0 0 true

/-- DESCRIPTOR_FETCH (R241): a ring whose turn it is. -/
def descriptorFetch (r count : Nat) (rd : HostRd) (s : State) : State :=
  let n := s.fetchable r (min count 16)
  if n = 0 || !(s.fetchTurn r) then s
  else match rd with
    | .data b => s.fetchData r n b
    | .error e => s.fetchError r n e

/-- HOLDOFF_EXPIRY (R243). -/
def holdoffExpiry (r : Nat) (s : State) : State :=
  let g := s.ring r
  if !g.holding then s
  else if g.due then (s.msixSend (s.servingFn r) g.vector).setRing r { g with due := false }
  else s.setRing r { g with holding := false }

/-- The pending messages of a function that may be sent now are sent. -/
def State.msixFlush (s : State) (fn : Nat) : State :=
  let due := s.hif.msixPending.filter fun x => x.1 == fn && s.msixOpen x.1 x.2
  due.foldl (fun t x => t.msixSend x.1 x.2) { s with hif := { s.hif with
    msixPending := s.hif.msixPending.filter fun x => !(x.1 == fn && s.msixOpen x.1 x.2) } }

/-- MSIX_UNMASK (R243): a pending message is sent. -/
def msixUnmask (fn vector : Nat) (s : State) : State :=
  if fn ≤ 32 && decide (vector < if fn = 0 then 2048 else 64) then
    let pend := s.hif.msixPending.contains (fn, vector)
    let s1 := { s with hif := { s.hif with
      unmasked := if s.hif.unmasked.contains (fn, vector) then s.hif.unmasked else s.hif.unmasked ++ [(fn, vector)]
      msixPending := s.hif.msixPending.filter fun x => x != (fn, vector) } }
    if pend then s1.msixSend fn vector else s1
  else s

/-! ## FENCE (R248) -/

/-- The fields of a FENCE (Table 6). -/
def fenceOk (d : Desc) : Bool :=
  let signal := dF d 9 1 / 2 % 2 == 1
  decide (dF d 8 1 < 2) && decide (dF d 9 1 < 4) && dZero d 10 6 && dZero d 32 32 &&
    (if signal then decide (dF d 16 8 % 8 = 0) else dZero d 16 16)

/-- Does the FENCE cover its whole context? On the management ring it covers that ring alone. -/
def fenceWide (r : Nat) (d : Desc) : Bool := decide (dF d 8 1 = 1) && (ringCtx r).isSome

/-- The admitted descriptors that a FENCE waits on: those of its context, or the earlier ones of its ring. -/
def State.fenceCovers (s : State) (r seq : Nat) (d : Desc) : List (Nat × Nat) :=
  (s.hif.works.filter fun w => if fenceWide r d then ringCtx w.ring == ringCtx r else w.ring == r && seqBefore w.seq seq).map
    fun w => (w.ring, w.seq)

/-- A failure that a covered descriptor has already completed with, under CHECK. -/
def State.fenceFailed (s : State) (r seq : Nat) (d : Desc) : Option (Nat × Nat) :=
  if dF d 9 1 % 2 = 0 then none
  else if fenceWide r d then (match ringCtx r with | some c => tabGet? s.hif.ctxFail c | none => none)
  else ((s.ring r).fails.find? fun q => seqBefore q seq).map fun q => (q, r)

/-- A FENCE at the head of its ring. -/
def State.fenceHead (s : State) (r : Nat) (f : Fetched) : State :=
  if !(fenceOk f.desc) then s.reject r f stBadDescriptor
  else
    let cov := s.fenceCovers r f.seq f.desc
    let w := { mkWork r f 0 .waiting with
      covered := cov, coveredCount := cov.length, failed := s.fenceFailed r f.seq f.desc }
    ((s.popHead r).addWork w).settle

/-- FENCE (R248). -/
def fenceCmd (r : Nat) (s : State) : State := s.withHeadAny r clFence (s.fenceHead r)

/-! ## ABORT (R255) -/

def abortRing (r : Nat) (d : Desc) : Nat := match ringCtx r with | some c => 128 * c + dF d 8 1 | none => mgmtRing
def abortSeqNo (d : Desc) : Nat := dF d 12 4
def abortTag (d : Desc) : Nat := dF d 16 4

/-- The fields of an ABORT (Table 14). -/
def abortOk (r : Nat) (d : Desc) : Bool :=
  dZero d 9 3 && dZero d 20 44 && (if (ringCtx r).isSome then decide (dF d 8 1 < 128) else dZero d 8 1)

/-- Is the sequence number below TAIL? Numbers are counted modulo 2^32; one less than half the range below TAIL counts as
below (notes/assumptions/19.md). -/
def belowTail (g : Ring) (seq : Nat) : Bool := decide ((g.tail - 1 - BitVec.ofNat 32 seq).toNat < 2 ^ 31)

/-- Complete an ABORT of the queue: it is admitted, ahead of its ring's order. -/
def State.endAbort (s : State) (r : Nat) (f : Fetched) (status words : Nat) : State :=
  ((s.noteAdmit r f.seq (BitVec.ofNat 32 (dF f.desc 4 4))).finishHead r f status 0 words).settle

/-- An ABORT that completes with BAD_DESCRIPTOR. -/
def State.badAbort (s : State) (r : Nat) (f : Fetched) : State := s.reject r f stBadDescriptor

/-- The target is admitted: it is stopped, and the ABORT's record follows its record; past its last point of abort, it is
too late (Table 13). -/
def State.abortWork (s : State) (r : Nat) (f : Fetched) (w : Work) : State :=
  if w.cls = clAbort || w.tag.toNat != abortTag f.desc then s.badAbort r f
  else if w.abortState = 3 then s.endAbort r f stAbortTooLate (abortWords 3 w.cls)
  else
    let s1 := (s.popSeq r f.seq).addWork (mkWork r f 0 .committing)
    let w1 := { w with aborters := w.aborters ++ [(r, f.seq, w.abortState)] }
    ((s1.setWork w1).stopWork w1 stAborted).settle

/-- The target is fetched and not admitted: it will complete ABORTED when reached. -/
def State.abortFetched (s : State) (r : Nat) (f : Fetched) (tr : Nat) (t : Fetched) : State :=
  if dF t.desc 0 1 = clAbort || dF t.desc 4 4 != abortTag f.desc then s.badAbort r f
  else
    let g := s.ring tr
    (s.setRing tr { g with queue := g.queue.map fun x => if x.seq = t.seq then { x with aborted := true } else x }).endAbort
      r f stDone (abortWords 0 (dF t.desc 0 1))

/-- The target stands below TAIL and has not been fetched. Its CLASS and SW_TAG are read from its slot, since the ABORT is
refused by them; a read that fails gives the ABORT the status of Table 8 (DEDUCED, notes/assumptions/19.md). -/
def State.abortUnfetched (s : State) (r : Nat) (f : Fetched) (tr q : Nat) (rd : HostRd) : State :=
  let g := s.ring tr
  let at_ := g.sqBase.toNat + 64 * (q % g.size)
  match rd with
  | .error e => ((s.hostAsk (s.servingFn tr) at_ 64).noteHostErr r e).reject r f (hostErrStatus e)
  | .data b =>
    let s1 := s.hostReceived (s.servingFn tr) at_ 64
    if bf b 0 1 = clAbort || bf b 4 4 != abortTag f.desc then s1.badAbort r f
    else (s1.setRing tr { g with early := if g.early.contains q then g.early else g.early ++ [q] }).endAbort r f stDone
      (abortWords 0 (bf b 0 1))

/-- An ABORT decides (Table 13): of a target older than the state-word window nothing is known any more, and TARGET_CLASS is
a free value. -/
def State.decideAbort (s : State) (r : Nat) (f : Fetched) (rd : HostRd) : State :=
  let d := f.desc
  let tr := abortRing r d
  let q := abortSeqNo d
  let g := s.ring tr
  let ahead := decide ((g.tail - 1 - BitVec.ofNat 32 q).toNat < (g.tail - g.head).toNat)
  if !(abortOk r d) || !g.exists_ || !(belowTail g q) then s.badAbort r f
  else if ahead then s.abortUnfetched r f tr q rd
  else match g.queue.find? fun x => x.seq == q with
    | some t => s.abortFetched r f tr t
    | none =>
      if !(g.inWindow q) then s.bump.endAbort r f stAbortTooLate (abortWords 4 s.freeByte.toNat)
      else match s.work? tr q with
        | some w => s.abortWork r f w
        | none =>
          match g.words.find? fun x => x.seq == q with
          | some x =>
            if x.cls = clAbort || x.tag.toNat != abortTag d then s.badAbort r f
            else s.endAbort r f stAbortTooLate (abortWords 4 x.cls)
          | none => s.bump.endAbort r f stAbortTooLate (abortWords 4 s.freeByte.toNat)

/-- The first ABORT of a ring's queue whose header passed: it is admitted ahead of what stands before it. -/
def State.abortIn (s : State) (r : Nat) : Option Fetched :=
  (s.ring r).queue.find? fun f => dF f.desc 0 1 == clAbort && f.header.isNone && !f.aborted

/-- ABORT (R255): `rd` is what its target's slot holds, where the target has not been fetched. -/
def abortCmd (r : Nat) (rd : HostRd) (s : State) : State :=
  match s.abortIn r with
  | some f => s.decideAbort r f rd
  | none => s

/-! ## Ring creation and deletion (R257) -/

/-- MSI-X table size of the function that serves a context. -/
def State.msixSize (s : State) (c : Nat) : Nat := if s.vfServed c then 64 else 2048

/-- The fields of a RING_CREATE. -/
def State.ringCreateOk (s : State) (c : Nat) (d : Desc) : Bool :=
  let v := dF d 12 2
  inR 1 127 (dF d 9 1) && inR 4 16 (dF d 10 1) && dZero d 11 1 && decide (v / 2 ^ 11 % 16 = 0) && decide (dF d 14 2 ≤ 1023) &&
    dZero d 32 32 && !(s.ring (128 * c + dF d 9 1)).exists_ && decide (dF d 16 8 % 4096 = 0) && decide (dF d 24 8 % 4096 = 0) &&
    decide (v % 2 ^ 11 < s.msixSize c)

/-- The ring that a RING_CREATE makes. -/
def createdRing (d : Desc) : Ring :=
  { exists_ := true, enabled := true, log2 := dF d 10 1, sqBase := BitVec.ofNat 64 (dF d 16 8)
    cqBase := BitVec.ofNat 64 (dF d 24 8), vector := dF d 12 2 % 2 ^ 11, intrEn := decide (dF d 12 2 / 2 ^ 15 = 1)
    holdoffUs := dF d 14 2 }

/-- RING_CREATE (R257). -/
def ringCreate (r : Nat) (s : State) : State :=
  s.withAdmin r 0x01 (onRing0 r) fun f =>
    if !(s.ringCreateOk (r / 128) f.desc) then s.reject r f stBadDescriptor
    else (s.setRing (r + dF f.desc 9 1) (createdRing f.desc)).finishNow r f stDone 0 0

/-- RING_DELETE (R257): fetching stops at once, what is not admitted gets no record, and it completes after the last
record of the ring's admitted work. -/
def ringDelete (r : Nat) (s : State) : State :=
  s.withAdmin r 0x02 (onRing0 r) fun f =>
    let d := f.desc
    let t := r + dF d 9 1
    if !(inR 1 127 (dF d 9 1)) || !(dZero d 10 54) || !(s.ring t).exists_ || (s.ring t).closing then s.reject r f stBadDescriptor
    else
      let s1 := (s.popHead r).addWork (mkWork r f 0x02 .committing)
      (s1.setRing t { s1.ring t with closing := true, queue := [], early := [], deleting := some (r, f.seq) }).settle

/-! ## Ring 0 and management ring registers (R241, R262, Table 19) -/

/-- The registers of a ring that is set up through registers. -/
def ringRegs (r : Nat) : Nat × Nat := if r = mgmtRing then (HIF_MGMT_SQ, HIF_MGMT_CQ) else (HIF_CTX_SQ0 (r / 128), HIF_CTX_CQ0 (r / 128))

/-- A refused write or enable: MGMT_CONFIG, or RING_CONFIG. -/
def State.ringConfigErr (s : State) (r : Nat) : State :=
  match ringCtx r with
  | some c => s.ctxErr c HIF_CTX_ERR_STATUS_RING_CONFIG (r % 128)
  | none => s.hifErr HIF_ERR_STATUS_MGMT_CONFIG 0

/-- A ring as its registers set it up, at its enable (R239). -/
def State.setupRing (s : State) (r : Nat) : Ring :=
  let sq := (ringRegs r).1
  let cq := (ringRegs r).2
  { exists_ := true, enabled := true, log2 := s.fld sq HIF_SQ_LOG2_ENTRIES
    sqBase := BitVec.ofNat 64 (s.fld sq HIF_SQ_BASE * 4096), cqBase := BitVec.ofNat 64 (s.fld cq HIF_CQ_BASE * 4096)
    vector := s.fld cq HIF_CQ_VECTOR, intrEn := s.bit cq HIF_CQ_INTR_EN }

/-- Is a scrub of the ring's context pending a fresh draw (R274)? Its rings stay disabled. -/
def State.ringScrubbing (s : State) (r : Nat) : Bool := match ringCtx r with | some c => (s.ctx c).scrubbing | none => false

/-- A write of HIF_MGMT_SQ or HIF_CTX_SQ0. -/
def State.sqWrite (s : State) (r : Nat) (v : W64) : State :=
  let sq := (ringRegs r).1
  let base := getBits v HIF_SQ_BASE
  let log2 := getBits v HIF_SQ_LOG2_ENTRIES
  let on := getBits v HIF_SQ_ENABLE = 1
  let g := s.ring r
  if g.enabled then
    if base ≠ s.fld sq HIF_SQ_BASE || log2 ≠ s.fld sq HIF_SQ_LOG2_ENTRIES then s.ringConfigErr r
    else if on then s
    else (s.setRing r { g with closing := true, queue := [], early := [] }).settle
  else
    let s1 := (s.setFld sq HIF_SQ_BASE base).setFld sq HIF_SQ_LOG2_ENTRIES log2
    if !on then s1
    else if !(inR 4 16 log2) || s1.ringScrubbing r then s1.ringConfigErr r
    else s1.setRing r (s1.setupRing r)

/-- A write of HIF_MGMT_CQ or HIF_CTX_CQ0: fixed while the paired ENABLE reads 1. -/
def State.cqWrite (s : State) (r : Nat) (v : W64) : State :=
  let cq := (ringRegs r).2
  let w := putBits (putBits (putBits 0 HIF_CQ_BASE (getBits v HIF_CQ_BASE)) HIF_CQ_INTR_EN
    (getBits v HIF_CQ_INTR_EN)) HIF_CQ_VECTOR (getBits v HIF_CQ_VECTOR)
  if (s.ring r).enabled then (if w = s.reg cq then s else s.ringConfigErr r)
  else s.setReg cq w

/-- Does the function reach the context's register window (R235, R262)? -/
def State.reachesCtx (s : State) (fn c : Nat) : Bool := decide (c < 32) && (fn == 0 || (fn == c + 1 && s.vfServed c))

/-- Is every ring of the context disabled? -/
def State.ringsOff (s : State) (c : Nat) : Bool := !(s.hif.rings.any fun p => ringCtx p.1 == some c && p.2.exists_ && p.2.enabled)

/-- Rings of a context that are enabled (HIF_CTX_STATUS.RINGS_ON). -/
def State.ringsOn (s : State) (c : Nat) : Nat :=
  (s.hif.rings.filter fun p => ringCtx p.1 == some c && p.2.exists_ && p.2.enabled).length

/-- VERSION_SELECT_WRITE (R258); reserved bits of the word written are ignored (R8). -/
def versionSelectWrite (fn c : Nat) (v : W32) (s : State) : State :=
  let n := getBits (v.zeroExtend 64) HIF_VERSION_SELECT_VERSION
  if !(s.reachesCtx fn c) then s
  else if (n = 1 || n = 2) && s.ringsOff c then s.setFld (HIF_VERSION_SELECT c) HIF_VERSION_SELECT_VERSION n
  else s.ctxErr c HIF_CTX_ERR_STATUS_VERSION_WRITE 0

/-! ## Patrol (R260) -/

/-- Lines of a channel: a twelfth of module DRAM (R17). -/
def channelLines : Nat := dramSize / 12 / 64

/-- The patrol of a channel moves on; the end of a sweep counts as a pass. -/
def State.sweepOn (s : State) (m : Nat) : State :=
  let k := tabGetD s.mem.sweep m 0 + 1
  if k < channelLines then { s with mem := { s.mem with sweep := tabSet s.mem.sweep m k } }
  else ({ s with mem := { s.mem with sweep := tabSet s.mem.sweep m 0 } }).addSat (MEM_PATROL_DONE m) MEM_PATROL_DONE_PASSES 1

/-- PATROL_READ (R260): the next line of the channel's sweep, in ascending channel-local order. A line found uncorrectable, by a
patrol or by a demand read, stays so until it is written whole (R259). -/
def patrolRead (m : Nat) (ecc : Ecc) (s : State) : State :=
  if m < 12 && s.isOn (.mem m) && s.bit (MEM_PATROL m) MEM_PATROL_ENABLE then
    let loc := 64 * tabGetD s.mem.sweep m 0
    let line := dramOfLocal m loc / 64
    let s1 := match (if s.mem.bad.contains line then Ecc.uncorrectable else ecc) with
      | .clean => s
      | .corrected => s.eccCorrected m
      | .uncorrectable =>
        (((s.spoil line).addSat (MEM_UE_COUNT m) MEM_UE_COUNT_PATROL 1).ueRecord m loc 0 true).report evMemory m
    s1.sweepOn m
  else s

end Sys2Proof.Machine
end

