-- ==== Sys2Proof/Machine/Contexts.lean ====
section
/-! DEFINITION. Partitions and time-sharing, the tenant switch, grants, scrub, owner keys, weight import, the debug
permit and the Provenance report (Contexts, Keys and the Provenance Report, R264 to R281). -/

namespace Sys2Proof.Machine

/-! ## Time-sharing (R266, R267) -/

/-- Has the context a claim waiting? -/
def State.hasWaiting (s : State) (c : Nat) : Bool :=
  s.hif.works.any fun w => w.claims && w.phase == .waiting && w.stage == .claimWait && ringCtx w.ring == some c

/-- The contexts of a partition's schedule. -/
def Part.contexts (p : Part) : List Nat := bits32 p.ctxMask.toNat

/-- The scheduled context other than `a` whose turn is next: ascending from `a` with wrap-around, with a claim waiting. -/
def State.nextCtx (s : State) (p a : Nat) : Option Nat :=
  let cs := (s.part p).contexts.filter fun c => c != a && s.hasWaiting c
  match cs.find? fun c => decide (a < c) with
  | some c => some c
  | none => cs.head?

/-- Is the current context granted no new claim: it used up its slice while another waits, or it left the schedule? -/
def State.barred (s : State) (p : Nat) : Bool :=
  let x := s.part p
  match x.current with
  | some a => !(x.schedules a) || (x.draining && (s.nextCtx p a).isSome)
  | none => false

/-- Must the partition switch from `a` now (R266, R267)? -/
def State.mustSwitch (s : State) (p a : Nat) : Bool :=
  let x := s.part p
  !(s.partBusy p a) &&
    (!(x.schedules a) || ((s.nextCtx p a).isSome && (x.draining || !(s.hasWaiting a))))

/-! ## The tenant switch (R268, Table 1) -/

/-- Step 2 for a tile: its registers and stores are zero, its cache is empty, its placement key is free. -/
def State.clearTile (s : State) (t : Nat) : State :=
  let lo := 0x1000000 + t * 0x40000
  ((s.clearRange lo (lo + 0x20000)).clearRange (lo + 0x30000) (lo + 0x40000)).setTile t {}

/-- Step 2 for a hub: Set Engine state cleared, the departing context's look-aside entries dropped. -/
def State.clearHub (s : State) (a c : Nat) : State :=
  let b := (s.hub c).buffer.filter fun e => e.ctx != a
  ((s.setHub c { s.hub c with setQueue := [], setRunning := none, waves := [], claim := none, buffer := b }).clearReg
    (SET_STATUS c)).setFld (WALK_STATUS c) WALK_STATUS_VALID b.length

/-- Step 3 and 4 for a bank: handed to no owner and cleared, then what R91 does with an ownerless bank. A clear that runs
already is not cut short (R94): BANK_CLEAR ends it. -/
def State.clearBank (s : State) (g : Nat) : State :=
  let o := bankOwner g
  let s1 := ((s.setBit o BANK_OWNER_VALID false).setBit o BANK_OWNER_HANDOVER false).setBit o BANK_OWNER_PEND_VALID false
  let b := s1.bankSt g
  if s.bankClearing g then s1.setBank g { clock := b.clock, clearAt := b.clearAt }
  else ((s1.endClear g).setBank g { clock := b.clock }).freeBank g

/-- Steps 1 to 5 of Table 1 for the departing context `a`. -/
def State.clearPart (s : State) (p a : Nat) : State :=
  let cls := bits8 (s.part p).leaves.toNat
  let s1 := s.each (cls.flatMap clusterTiles) fun t i => t.clearTile i
  let s2 := s1.each cls fun t c => t.clearHub a c
  let s3 := s2.each ((cls.flatMap fun c => (clusterTiles c).flatMap tileBanks).filter fun g => s2.bankOwnerSeen g == some a ||
    s2.ownsBank a g) fun t g => t.clearBank g
  s3.purge fun x => x.2.1 == a

/-- SEC_SWITCH_LAST and SEC_SWITCH_MAX. -/
def State.noteSwitch (s : State) (p a time : Nat) : State :=
  let s1 := ((s.setFld SEC_SWITCH_LAST SEC_SWITCH_PART p).setFld SEC_SWITCH_LAST SEC_SWITCH_CTX a).setFld SEC_SWITCH_LAST
    SEC_SWITCH_TIME time
  if s1.fld SEC_SWITCH_MAX SEC_SWITCH_TIME < time % 2 ^ 24 then s1.setReg SEC_SWITCH_MAX (s1.reg SEC_SWITCH_LAST) else s1

/-- A tenant switch away from `a`, steps 1 to 6. -/
def State.runSwitch (s : State) (p a time : Nat) (byScrub : Bool) : State :=
  let s1 := (s.clearPart p a).noteSwitch p a time
  let x := s1.part p
  let next := match s1.nextCtx p a with
    | some b => some b
    | none => if byScrub && x.schedules a then some a else none
  let s2 := (s1.count 0x3A a 0 1).traceUnit 5 (some a) (p + 2 ^ 8 * next.getD 0xFF)
  s2.setPart p { x with current := next, since := s2.now, owed := 0, draining := false, switching := false, byScrub := false }

/-- Has the current context used the partition for at least one slice since it became current (R266, R267)? -/
def Part.sliceUsed (x : Part) (now : Nat) : Bool := decide (x.since + 100 * x.slice ≤ now)

/-- SLICE_EXPIRY (R267): the current context has used the partition for a slice while another waits. -/
def sliceExpiry (p : Nat) (s : State) : State :=
  let x := s.part p
  match x.current with
  | some a => if x.sliceUsed s.now && (s.nextCtx p a).isSome then s.setPart p { x with draining := true } else s
  | none => s

/-- TENANT_SWITCH (R267, R268). -/
def tenantSwitch (p time : Nat) (s : State) : State :=
  match (s.part p).current with
  | some a => if s.mustSwitch p a && !(s.sentPart p) then s.runSwitch p a time false else s
  | none => s

/-- CONTEXT_BECOMES_CURRENT (R267). -/
def contextBecomesCurrent (p : Nat) (s : State) : State :=
  let x := s.part p
  if x.current.isSome || x.clusters = 0 then s
  else match x.contexts.find? s.hasWaiting with
    | some c => s.setPart p { x with current := some c, since := s.now, draining := false }
    | none => s

/-! ## PART_DEFINE and PART_SCHEDULE (R265, R266) -/

/-- SCHEDULE_REFUSED: no context is concerned, and SEC_ERR_INFO then reads context 0. -/
def State.scheduleRefused (s : State) : State := s.secErr SEC_ERR_STATUS_SCHEDULE_REFUSED 0

/-- Complete an ADMIN operation with DONE. -/
def State.adminDone (s : State) (r : Nat) (f : Fetched) (words : Nat) : State := s.finishNow r f stDone 0 words

/-- May PART_DEFINE set the clusters (R265)? DESIGN CHOICE (notes/assumptions/22.md): clusters that another partition's current
context has still to leave belong to that partition until its switch has run. -/
def State.defineOk (s : State) (p : Nat) (m : BitVec 8) : Bool :=
  (s.part p).ctxMask == 0 && (List.range 8).all fun q => q == p || ((s.part q).leaves &&& m) == 0

/-- The partition with its new clusters: what a context that has still to leave it loses is owed a clear (R266, R268). -/
def Part.redefine (x : Part) (m : BitVec 8) : Part :=
  { x with clusters := m, owed := if x.current.isSome then x.leaves else 0 }

/-- PART_DEFINE (R265). -/
def partDefine (r : Nat) (s : State) : State :=
  s.withAdmin r 0x10 (onMgmt r) fun f =>
    let d := f.desc
    let p := dF d 9 1
    let m := BitVec.ofNat 8 (dF d 10 1)
    if !(decide (p < 8) && dZero d 11 53) then s.reject r f stBadDescriptor
    else if !(s.defineOk p m) then s.scheduleRefused.reject r f stBadDescriptor
    else (s.setPart p ((s.part p).redefine m)).adminDone r f 0

/-- Waiting claims of contexts that left every schedule complete with ACCESS_DENIED (R266). -/
def State.dropUnscheduled (s : State) : State :=
  s.stopAll (fun w => w.claims && w.phase == .waiting && w.stage == .claimWait &&
    match ringCtx w.ring with | some c => (s.partOf c).isNone | none => false) stAccessDenied

/-- May PART_SCHEDULE set the schedule (R266)? -/
def State.scheduleOk (s : State) (p : Nat) (m : W32) : Bool :=
  (s.part p).clusters != 0 && !(s.sentPart p) && (List.range 8).all fun q => q == p || ((s.part q).ctxMask &&& m) == 0

/-- PART_SCHEDULE (R266). -/
def partSchedule (r : Nat) (s : State) : State :=
  s.withAdmin r 0x11 (onMgmt r) fun f =>
    let d := f.desc
    let p := dF d 9 1
    let m := BitVec.ofNat 32 (dF d 12 4)
    if !(decide (p < 8) && inR 1 255 (dF d 10 1) && dZero d 11 1 && dZero d 16 48) then s.reject r f stBadDescriptor
    else if !(s.scheduleOk p m) then s.scheduleRefused.reject r f stBadDescriptor
    else
      let x := s.part p
      let kept := match x.current with | some a => x.schedules a && m.getLsbD a | none => false
      ((s.setPart p { x with ctxMask := m, slice := dF d 10 1, draining := kept && x.draining }).dropUnscheduled).adminDone r f 0

/-! ## CTX_GRANT (R269) -/

/-- 2 MiB. -/
def twoMiB : Nat := 0x200000

/-- Memory of a context that its grant must keep: protected regions, defined frames, sequence table regions, codec state
areas and slots. -/
def State.heldMemory (s : State) (c : Nat) : List (Nat × Nat) :=
  ((s.ctx c).prots.map fun p => (p.2.base, p.2.len)) ++
  (s.kv.frames.filterMap fun e => if e.2.ctx = c && 0 < e.2.size4k then some (e.2.base, 4096 * e.2.size4k) else none) ++
  (s.kv.seqs.filterMap fun e => if e.2.state != .unregistered && e.2.ctx == c then some (e.2.table, 4096 * e.2.layers) else none) ++
  (s.vcd.streams.flatMap fun e => if e.2.ctx = c then
    (e.2.stateAddr, e.2.stateLen) :: (List.range e.2.dpbSlots).map fun i => (e.2.slotAt i, e.2.slotLen) else [])

/-- The fields of a CTX_GRANT. -/
def grantFields (d : Desc) : Bool :=
  decide (dF d 9 1 < 32) && decide (dF d 10 1 < 16) && dZero d 11 5 && decide (dF d 16 8 < 2 ^ 40) &&
    decide (dF d 16 8 % twoMiB = 0) && decide (dF d 24 8 % twoMiB = 0) && inDram (dF d 16 8) (dF d 24 8) && dZero d 32 32

/-- May the grant be set? -/
def State.grantOk (s : State) (c i base len : Nat) : Bool :=
  let x := s.ctx c
  let t := s.setCtx c { x with grants := if len = 0 then tabDel x.grants i else tabSet x.grants i (base, len) }
  ((List.range 32).all fun o => o == c || !((s.ctx o).grants.any fun g => overlaps base len g.2.1 g.2.2)) &&
    (s.heldMemory c).all fun m => !(s.inGrant c m.1 m.2) || t.inGrant c m.1 m.2

/-- CTX_GRANT (R269). -/
def ctxGrant (r : Nat) (s : State) : State :=
  s.withAdmin r 0x12 (onMgmt r) fun f =>
    let d := f.desc
    let c := dF d 9 1
    let len := dF d 24 8
    if !(grantFields d) then s.reject r f stBadDescriptor
    else if !(s.grantOk c (dF d 10 1) (dF d 16 8) len) then
      (s.secErr SEC_ERR_STATUS_GRANT_REFUSED c).reject r f stBadDescriptor
    else
      let x := s.ctx c
      (s.setCtx c { x with
        grants := if len = 0 then tabDel x.grants (dF d 10 1) else tabSet x.grants (dF d 10 1) (dF d 16 8, len) }).adminDone r f 0

/-! ## Randomness (R274) -/

/-- RNG_FAIL sets, and RNG_OK clears. -/
def State.rngFailed (s : State) (c : Nat) : State :=
  (s.setBit SEC_STATUS SEC_STATUS_RNG_OK false).secErr SEC_ERR_STATUS_RNG_FAIL c

/-- RNG_FAIL (R274). -/
def rngFail (s : State) : State := (s.rngFailed 0).report evRng 0

/-- SN[c] and TENANCY[c] are redrawn (R273, R274). -/
def State.redraw (s : State) (c : Nat) : State :=
  (s.setCtx c { s.ctx c with nonce := s.nv.draws, scrubbing := false }).takeDraws 2

/-- FRESH_DRAW (R274): the random source is healthy again, and the scrubs that waited for it end. -/
def freshDraw (s : State) : State :=
  let s1 := s.setBit SEC_STATUS SEC_STATUS_RNG_OK (s.bit SEC_STATUS SEC_STATUS_READY)
  if s1.rngOk then s1.each (List.range 32) fun t c => if (t.ctx c).scrubbing then t.redraw c else t else s1

/-! ## Scrub (R275) -/

/-- Step 1: fetching stops, admitted work stops, and the rings are disabled; ring 0 keeps its registers, and the others
are gone. -/
def State.scrubRings (s : State) (c : Nat) (record : Bool) : State :=
  let mine := (s.hif.rings.filter fun p => ringCtx p.1 == some c).map (·.1)
  let s1 := s.each mine fun t r => t.setRing r { t.ring r with closing := true, queue := [], early := [], mute := !record }
  let s2 := s1.stopAll (fun w => ringCtx w.ring == some c) stContextScrubbed
  { s2 with hif := { s2.hif with
      rings := s2.hif.rings.filter fun p => ringCtx p.1 != some c
      ctxFail := tabDel s2.hif.ctxFail c } }

/-- Sequences of a context that are registered. -/
def State.ctxSeqs (s : State) (c : Nat) : List Nat :=
  (s.kv.seqs.filter fun e => e.2.state != .unregistered && e.2.ctx == c).map (·.1)

/-- Frames of a context that hold a page. -/
def State.ctxFrames (s : State) (c : Nat) : List Nat := (s.kv.frames.filter fun e => e.2.ctx == c && e.2.state != 0).map (·.1)

/-- Streams of a context. -/
def State.ctxStreams (s : State) (c : Nat) : List Nat := (s.vcd.streams.filter fun e => e.2.ctx == c).map (·.1)

/-- Step 3: sequences released without swap, every owned frame FREE with CLEAR_PENDING (R168). -/
def State.scrubKv (s : State) (c : Nat) : State :=
  let s1 := s.each (s.ctxSeqs c) fun t q => (t.unmapAll q false).setSeq q { regNo := (t.seq q).regNo }
  { s1 with kv := { s1.kv with frames := s1.kv.frames.map fun e =>
      if e.2.ctx = c && 0 < e.2.size4k then (e.1, { e.2 with
        state := 0, refs := 0, clearPending := true, gen := if e.2.state = 0 then e.2.gen else (e.2.gen + 1) % 65536 })
      else e } }

/-- Step 3: streams are unregistered (R213). -/
def State.scrubVcd (s : State) (c : Nat) : State :=
  { s with vcd := { s.vcd with streams := s.vcd.streams.filter fun e => e.2.ctx != c } }

/-- Step 2: the tenant switch of a scrub; its time is the hardware's, a free value within the 75 µs of Table 1. -/
def State.scrubSwitch (s : State) (c : Nat) : State :=
  match s.partOf c with
  | some p => if (s.part p).current = some c then (s.bump).runSwitch p c (s.freeWord.toNat % 7501) true else s
  | none =>
    match (List.range 8).find? fun p => (s.part p).current == some c with
    | some p => (s.bump).runSwitch p c (s.freeWord.toNat % 7501) true
    | none => s

/-- The class words of a CTX_SCRUB: FRAMES, SEQUENCES and STREAMS released. -/
def State.scrubWords (s : State) (c : Nat) : Nat :=
  (s.ctxFrames c).length + 2 ^ 32 * (s.ctxSeqs c).length + 2 ^ 48 * (s.ctxStreams c).length

/-- A scrub of a context (R275): steps 1 to 4, then the redraw, which a failed random source leaves pending. -/
def State.scrub (s : State) (c : Nat) (record : Bool) : State :=
  let s1 := s.scrubRings c record
  let s2 := (if s1.sentCtx = some c then s1.scrubSentinel else s1).scrubSwitch c
  let s3 := (s2.scrubKv c).scrubVcd c
  let x := s3.ctx c
  let s4 := s3.setCtx c { x with prots := [], keys := [], cache := [], debugPermit := false, scrubbing := true }
  if s4.rngOk then s4.redraw c else s4.rngFailed c

/-! ## Owner keys (R276, R278, R279) -/

/-- The installed key of a slot. -/
def State.keyOf (s : State) (c slot : Nat) : Option OwnerKey := tabGet? (s.ctx c).keys slot

/-- The wrapping key KW of a blob. -/
def blobKey (b : List Byte) : BitVec 256 :=
  BitVec.ofNat 256 (leNat (shakeBytes (leBytes 32 (Config.kemDecaps ((b.drop 16).take 1568)).toNat ++ strBytes "KQM-WRAP" ++
    leBytes 8 Config.serial.toNat ++ b.take 16) 32))

/-- The clear part of a blob's checks: MAGIC, VERSION, CTX, TENANCY. -/
def State.blobHeadOk (s : State) (c : Nat) (b : List Byte) : Bool :=
  decide (bf b 0 4 = 0x574B514B) && decide (bf b 4 2 = 1) && decide (bf b 6 1 = c) && decide (bf b 8 8 = (s.tenancy c).toNat)

/-- The key that a blob delivers with its KFLAGS, when the blob is accepted (R276). -/
def State.openBlob (s : State) (c slot : Nat) (b : List Byte) : Option (OwnerKey × Nat) :=
  match gcmOpen (blobKey b) imageIv (b.take 16) (b.drop 1584) with
  | some pt =>
    let kid := BitVec.ofNat 32 (bf pt 32 4)
    if s.blobHeadOk c b && kid != 0 && !((s.ctx c).keys.any fun e => e.2.keyId == kid) && (s.keyOf c slot).isNone then
      some ({ keyId := kid, key := BitVec.ofNat 256 (bf pt 0 32) }, bf pt 36 4)
    else none
  | none => none

/-- KEY_INSTALL (R276, R278). A blob with an uncorrectable line is not opened (R259). -/
def keyInstall (r : Nat) (s : State) : State :=
  s.withAdmin r 0x16 (onRing0 r) fun f =>
    let d := f.desc
    let c := r / 128
    let slot := dF d 9 1
    let src := dF d 16 8
    if !(decide (slot < 4) && dZero d 10 6 && decide (src < 2 ^ 40) && decide (src % 64 = 0) && dZero d 24 40) then
      s.reject r f stBadDescriptor
    else if !(s.dramOk c src 1648) then (s.noteProt c src 1648).reject r f stAccessDenied
    else if !s.rngOk then (s.rngFailed c).reject r f stAccessDenied
    else match s.readFails c [(src, 1648)] with
    | some u => u.reject r f stMemoryUncorrectable
    | none =>
      let s1 := s.touch c src 1648 false
      match s1.openBlob c slot (s1.dramRead c src 1648) with
      | none => (s1.secErr SEC_ERR_STATUS_KEY_REJECTED c).reject r f stAccessDenied
      | some (k, fl) =>
        let x := s1.ctx c
        let permit := x.debugPermit && fl % 2 == 1
        (s1.setCtx c { x with keys := tabSet x.keys slot k, debugPermit := permit }).adminDone r f
          (k.keyId.toNat + 2 ^ 32 * slot + (if permit then 2 ^ 40 else 0))

/-- KEY_REMOVE (R279). DESIGN CHOICE (notes/assumptions/22.md): a slot with no key fails with BAD_DESCRIPTOR. -/
def keyRemove (r : Nat) (s : State) : State :=
  s.withAdmin r 0x17 (onRing0 r) fun f =>
    let c := r / 128
    let slot := dF f.desc 9 1
    if !(decide (slot < 4) && dZero f.desc 10 54) then s.reject r f stBadDescriptor
    else match s.keyOf c slot with
      | none => s.reject r f stBadDescriptor
      | some k => (s.setCtx c { s.ctx c with keys := tabDel (s.ctx c).keys slot }).adminDone r f k.keyId.toNat

/-! ## Weight import (R277) -/

def wSrc (d : Desc) : Nat := dF d 16 8
def wDst (d : Desc) : Nat := dF d 24 8
def wLen (d : Desc) : Nat := dF d 32 8
def wChunks (d : Desc) : Nat := (wLen d + 65535) / 65536

/-- Bytes of the source, and of the rounded destination. -/
def wSrcLen (d : Desc) : Nat := wLen d + 16 * wChunks d
def wRegion (d : Desc) : Nat := (wLen d + twoMiB - 1) / twoMiB * twoMiB

/-- The fields of a WEIGHT_IMPORT. -/
def importFields (d : Desc) : Bool :=
  decide (dF d 9 1 < 4) && decide (dF d 10 1 < 16) && dZero d 11 5 && decide (wSrc d < 2 ^ 40) && decide (wDst d < 2 ^ 40) &&
    decide (wDst d % twoMiB = 0) && decide (0 < wLen d) && dZero d 48 16

/-- Where chunk `i` of the source lies, with its tag. -/
def wChunkAt (d : Desc) (i : Nat) : Nat × Nat := (wSrc d + 65552 * i, min 65536 (wLen d - 65536 * i) + 16)

/-- Chunk `i` of the source opened: its plaintext; none where its tag fails or it cannot be read (R259). -/
def State.openChunk (s : State) (c : Nat) (key : BitVec 256) (d : Desc) (i : Nat) : Option (List Byte) :=
  let at_ := wChunkAt d i
  if (s.badLine at_.1 at_.2).isSome then none
  else gcmOpen key (leBytes 8 i ++ leBytes 4 (dF d 40 8)) (leBytes 8 (dF d 40 8) ++ leBytes 8 (wLen d))
    (s.dramRead c at_.1 at_.2)

/-- Chunks from `i` on, at most `n`: the state after those that verified, and how many those are. -/
def State.importChunks (c : Nat) (key : BitVec 256) (d : Desc) : Nat → State → Nat → State × Nat
  | 0, s, i => (s, i)
  | n + 1, s, i =>
    if wChunks d ≤ i then (s, i)
    else match s.openChunk c key d i with
      | some pt => State.importChunks c key d n (s.dramWrite c (wDst d + 65536 * i) pt) (i + 1)
      | none => (s, i)

/-- Class words BYTES and CHUNKS. -/
def importWords (d : Desc) (chunks : Nat) : Nat := min (wLen d) (65536 * chunks) + 2 ^ 64 * chunks

/-- An import that stopped before chunk `n`: DST holds undefined data, and no region is created (R277). -/
def State.stopImport (s : State) (c r : Nat) (f : Fetched) (n : Nat) : State :=
  let d := f.desc
  let s1 := s.dramUndef c (wDst d) (wRegion d)
  match s1.readFails c [wChunkAt d n] with
  | some u => u.finishNow r f stMemoryUncorrectable 0 (importWords d n)
  | none => (s1.secErr SEC_ERR_STATUS_IMPORT_TAG_FAIL c).finishNow r f stAccessDenied 0 (importWords d n)

/-- WEIGHT_IMPORT (R277). DESIGN CHOICE (notes/assumptions/22.md): a LEN of 0 and a REGION in use fail with BAD_DESCRIPTOR, an
empty KEY_SLOT with ACCESS_DENIED; a source line that cannot be read stops the import as a failed tag does, with
MEMORY_UNCORRECTABLE. -/
def weightImport (r : Nat) (s : State) : State :=
  s.withAdmin r 0x18 (onRing0 r) fun f =>
    let d := f.desc
    let c := r / 128
    if !(importFields d) then s.reject r f stBadDescriptor
    else if !(s.dramOk c (wSrc d) (wSrcLen d) && s.dramOkW c (wDst d) (wRegion d)) || s.objectBusy (wDst d) (wRegion d) then
      ((s.noteProt c (wSrc d) (wSrcLen d)).noteProtW c (wDst d) (wRegion d)).reject r f stAccessDenied
    else if (tabGet? (s.ctx c).prots (dF d 10 1)).isSome then s.reject r f stBadDescriptor
    else match s.keyOf c (dF d 9 1) with
      | none => s.reject r f stAccessDenied
      | some k =>
        let x := State.importChunks c k.key d (wChunks d) (s.touch c (wSrc d) (wSrcLen d) false) 0
        if x.2 < wChunks d then x.1.stopImport c r f x.2
        else
          let s1 := x.1.dramWrite c (wDst d + wLen d) (List.replicate (wRegion d - wLen d) 0)
          let y := s1.ctx c
          let pr : ProtRegion := { base := wDst d, len := wRegion d, slot := dF d 9 1, keyId := k.keyId }
          (s1.setCtx c { y with prots := tabSet y.prots (dF d 10 1) pr }).adminDone r f (importWords d x.2)

/-! ## The debug permit (R278) -/

/-- CTX_DEBUG (R278). -/
def ctxDebug (r : Nat) (s : State) : State :=
  s.withAdmin r 0x19 (onMgmt r) fun f =>
    let c := dF f.desc 9 1
    if !(decide (c < 32) && decide (dF f.desc 10 1 < 2) && dZero f.desc 11 53) then s.reject r f stBadDescriptor
    else if (s.ctx c).keys != [] || (s.ctx c).prots != [] then s.reject r f stAccessDenied
    else (s.setCtx c { s.ctx c with debugPermit := decide (dF f.desc 10 1 = 1) }).adminDone r f 0

/-! ## The Provenance report (R280, R281) -/

/-- Is one byte list before another in ascending byte order? -/
def bytesLe : List Byte → List Byte → Bool
  | [], _ => true
  | _ :: _, [] => false
  | a :: as, b :: bs => if a = b then bytesLe as bs else decide (a.toNat < b.toNat)

/-- Insert in ascending byte order. -/
def insBytes (x : List Byte) : List (List Byte) → List (List Byte)
  | [] => [x]
  | y :: ys => if bytesLe x y then x :: y :: ys else y :: insBytes x ys

/-- The digests of a partition, in ascending byte order. -/
def State.partDigests (s : State) (p : Nat) : List (List Byte) :=
  let cache := match (s.part p).current with | some c => (s.ctx c).cache.map (·.digest) | none => []
  let models := if s.sentPart p then s.stn.models.map (·.2.digest) else []
  (cache ++ models).foldl (fun l d => insBytes (leBytes 64 d.toNat) l) []

/-- Table 5: a context's 32 bytes. -/
def State.reportCtx (s : State) (c : Nat) : List Byte :=
  let x := s.ctx c
  let p := s.partOf c
  let cur := (List.range 8).any fun q => (s.part q).current == some c
  leBytes 1 ((if p.isSome then 1 else 0) + (if cur then 2 else 0) + (if s.vfServed c then 4 else 0) +
      (if x.debugPermit then 8 else 0)) ++
    leBytes 1 (p.getD 0xFF) ++ leBytes 1 x.prots.length ++ leBytes 5 0 ++ leBytes 8 (s.tenancy c).toNat ++
    ((List.range 4).flatMap fun k => leBytes 4 (match tabGet? x.keys k with | some o => o.keyId.toNat | none => 0))

/-- Table 5: a partition's 16 bytes. -/
def State.reportPart (s : State) (p : Nat) : List Byte :=
  let x := s.part p
  leBytes 1 x.clusters.toNat ++ leBytes 1 ((if x.clusters = 0 then 0 else 1) + (if s.sentPart p then 2 else 0)) ++
    leBytes 1 (x.current.getD 0xFF) ++ leBytes 1 x.slice ++ leBytes 4 x.ctxMask.toNat ++ leBytes 4 0 ++
    leBytes 4 (s.partDigests p).length

/-- SEC_DEBUG_PERMIT. -/
def State.debugMask (s : State) : Nat := ((List.range 32).map fun c => if (s.ctx c).debugPermit then 2 ^ c else 0).sum

/-- SEC_FUSE_STATE (Table 7): loaded from fuses. -/
def fuseState : Nat := Config.keyClass.toNat * 2 ^ 32 + Config.fuseValid.toNat * 2 + (if Config.debugClosed then 1 else 0)

/-- SEC_FW_MIN_SVN: the fused rollback floor, with what SVN_COMMIT blew (R369). -/
def State.minSvn (s : State) : Nat := max Config.fuseMinSvn.toNat s.nv.minSvn

/-- SHAKE256 of ek. -/
def ekDigest : BitVec 512 := Config.shake256 (leBytes 1568 Config.kemEk.toNat)

/-- BODY_LEN (R280). -/
def State.bodyLen (s : State) : Nat := 1536 + 72 * s.aon.fw.length + 64 * ((List.range 8).map fun p => (s.partDigests p).length).sum

/-- The signed body of the report (Table 5), with REPORT_SERIAL and the challenge. -/
def State.reportBody (s : State) (serial : Nat) (challenge : List Byte) : List Byte :=
  let ds := (List.range 8).flatMap s.partDigests
  leBytes 4 0x5250514B ++ leBytes 2 1 ++ leBytes 2 0 ++ leBytes 4 (s.bodyLen + 49856) ++ leBytes 4 s.bodyLen ++
    leBytes 4 s.aon.fw.length ++ leBytes 4 ds.length ++ leBytes 8 serial ++ challenge ++ leBytes 8 (s.now / 1000) ++
    leBytes 56 0 ++ leBytes 8 Config.serial.toNat ++ leBytes 16 Config.dieId.toNat ++ leBytes 2 Config.keyClass.toNat ++
    leBytes 2 0 ++ leBytes 4 (s.reg GLB_ID).toNat ++ leBytes 64 ekDigest.toNat ++ leBytes 64 Config.attestPk.toNat ++
    leBytes 32 0 ++ leBytes 8 fuseState ++ leBytes 4 s.minSvn ++ leBytes 4 s.debugMask ++ leBytes 4 s.aon.cast.freezes ++
    leBytes 1 (if s.bit GLB_SETUP_LOCK GLB_SETUP_LOCK_LOCK then 1 else 0) ++ leBytes 43 0 ++
    (List.range 32).flatMap s.reportCtx ++ (List.range 8).flatMap s.reportPart ++
    ((List.range s.aon.fw.length).zip s.aon.fw).flatMap (fun e => leBytes 4 (e.1 + 1) ++ leBytes 4 e.2.1 ++ leBytes 64 e.2.2.toNat) ++
    ds.flatten

/-- PROV_REPORT (R279, R280). -/
def provReport (r : Nat) (s : State) : State :=
  s.withAdmin r 0x14 (onMgmt r || onRing0 r) fun f =>
    let d := f.desc
    let len := s.bodyLen + 49856
    if !(dZero d 9 7 && decide (dF d 48 8 % 64 = 0) && dZero d 60 4) then s.reject r f stBadDescriptor
    else if dF d 56 4 < len then
      s.bump.finishNow r f stLengthLimit 0 (len + 2 ^ 32 * s.bodyLen + 2 ^ 64 * (s.freeWord.toNat % 2 ^ 32))
    else if !s.rngOk then (s.rngFailed (ringCtxD r)).reject r f stAccessDenied
    else
      let s1 := (s.addSat SEC_REPORTS SEC_REPORTS_COUNT 1).takeDraws 1
      let serial := s1.fld SEC_REPORTS SEC_REPORTS_COUNT
      let body := s1.reportBody serial (leBytes 32 (dF d 16 32))
      let sig := leBytes 49856 (Config.slhSign body (Config.draw s.nv.draws)).toNat
      (s1.hostWrite (s1.servingFn r) (dF d 48 8) (body ++ sig)).adminDone r f (len + 2 ^ 32 * s.bodyLen + 2 ^ 64 * serial)

/-- The device certificate (R281). -/
def deviceCert : List Byte :=
  leBytes 4 0x4344514B ++ leBytes 2 1 ++ leBytes 2 Config.keyClass.toNat ++ leBytes 8 Config.serial.toNat ++
    leBytes 16 Config.dieId.toNat ++ leBytes 64 ekDigest.toNat ++ leBytes 64 Config.attestPk.toNat ++ leBytes 96 0 ++
    leBytes 1568 Config.kemEk.toNat ++ leBytes 29792 Config.certSig.toNat

/-- PROV_CERT (R281). -/
def provCert (r : Nat) (s : State) : State :=
  s.withAdmin r 0x15 (onMgmt r || onRing0 r) fun f =>
    let d := f.desc
    if !(dZero d 9 39 && dZero d 60 4) then s.reject r f stBadDescriptor
    else if dF d 56 4 < 31616 then s.finishNow r f stLengthLimit 0 31616
    else (s.hostWrite (s.servingFn r) (dF d 48 8) deviceCert).adminDone r f 31616

end Sys2Proof.Machine
end

