-- ==== Sys2Proof/Machine/Banks.lean ====
section
/-! DEFINITION. One clock of a bank's port: ownership, arbitration, service and error correction; owner writes, wakes,
clears and idle retention (Stacked Scratchpad Banks, R77 to R94). -/

namespace Sys2Proof.Machine

/-! ## Requesters (R81, R82) -/

/-- The tie order of R82. -/
def reqOrder : Requester → Nat
  | .sequencer => 0
  | .vector => 1
  | .me e => 2 + e.val
  | .setEngine => 6
  | .peFill => 7
  | .peSpill => 8
  | .dma => 9
  | .sentinel => 10
  | .eccWriteBack => 11

/-- Is the requester on the processor side (Table 1)? -/
def reqProc (w : Requester) : Bool := decide (reqOrder w ≤ 6)

/-- The work that makes a request. -/
def State.reqWork (s : State) (g : Nat) : Requester → Option Work
  | .setEngine => (match (s.hub (g / 64)).setRunning with
    | some q => s.work? q.owner.1 q.owner.2
    | none => none)
  | .dma => s.hif.works.find? fun w => w.cls == clDma && w.phase != .waiting && w.banks.contains g
  | .sentinel => none
  | .eccWriteBack => none
  | _ => s.tileWork (g / 8)

/-- The context on whose behalf a request is made. -/
def State.reqCtx (s : State) (g : Nat) (r : BankReq) : Nat :=
  match s.reqWork g r.who with
  | some w => w.ctx
  | none => r.ctx

/-- The bytes of a request that its first word access covers (R78); the rest is a request of its own. -/
def reqSpan (r : BankReq) : Nat := min r.len (64 - r.addr % 64)

/-- The word of a request. -/
def reqWord (r : BankReq) : Nat := r.addr / 64

/-- What becomes of a request at the bank input: it fails, it waits for the end of a handover to its context, or it passes
the ownership check. -/
inductive BankFate where
  | deny | hold | pass
  deriving DecidableEq, Repr

/-- Is the request within the claim of the work that makes it (R63)? -/
def State.reqInClaim (s : State) (g : Nat) (r : BankReq) : Bool :=
  match s.reqWork g r.who with
  | some w => w.banks.contains g
  | none => r.who == .sentinel

/-- The ownership check (R16, R63, R79, R86, R87): from step 1 of a handover the old owner's new requests fail and the new
owner's wait. -/
def State.bankFate (s : State) (g : Nat) (r : BankReq) : BankFate :=
  let c := s.reqCtx g r
  if 0x100000 < bankOffset r.addr + r.len || !(s.reqInClaim g r) then .deny
  else if s.bankHandover g then (if s.bankOwnerSeen g = some c then .hold else .deny)
  else if s.ownsBank c g then .pass else .deny

/-- Is the engine one that a kernel keeps clock-gated (R63)? -/
def State.reqGated (s : State) (g : Nat) : Requester → Bool
  | .me e => (match s.tileWork (g / 8) with
    | some w => !(w.shape.meMask.testBit e.val)
    | none => false)
  | _ => false

/-- Can the bank serve requests in this clock? -/
def State.bankServes (s : State) (g : Nat) : Bool := s.bankPwr g == pwrOn && !(s.bankClearing g)

/-! ## Arbitration (R82, R84) -/

/-- Does a request rank before another (R82)? The one presented first is older. -/
def reqBefore (a b : BankWait) : Bool :=
  if reqProc a.req.who != reqProc b.req.who then reqProc a.req.who
  else if a.since ≠ b.since then decide (a.since < b.since)
  else decide (reqOrder a.req.who < reqOrder b.req.who)

/-- The request that ranks first. -/
def firstRanked : List BankWait → Option BankWait
  | [] => none
  | a :: rest =>
    match firstRanked rest with
    | none => some a
    | some b => if reqBefore b a then some b else some a

/-- The requests served with a winner (Table 2): every read of its word, and one write of it. -/
def servedWith (w : BankWait) (rs : List BankWait) : List BankWait :=
  let same := rs.filter fun r => reqWord r.req == reqWord w.req
  let reads := same.filter fun r => r.req.write.isNone
  let write := if w.req.write.isSome then some w else firstRanked (same.filter fun r => r.req.write.isSome)
  reads ++ write.toList

/-- The second half of a request that crosses into the next word, which keeps its age (R78). -/
def BankWait.rest (v : BankWait) : Option BankWait :=
  let n := reqSpan v.req
  if n < v.req.len then
    some { v with req := { v.req with addr := v.req.addr + n, len := v.req.len - n, write := v.req.write.map (·.drop n) } }
  else none

/-! ## Denial, failure and service -/

/-- Stop the work that made a request (R16, R63, R79, R80). -/
def State.stopReq (s : State) (g : Nat) (r : BankReq) (status : Nat) : State :=
  match s.reqWork g r.who with
  | some w =>
    if w.cls = clDma then s.stopDma w status none
    else if w.kern.isSome then s.stopKernel w status
    else if w.attn.isSome then s.stopAttn w status
    else if w.cls = clSort then s.stopSort w status
    else s
  | none => s

/-- The address of an access that fails the check is recorded on the bank's tile (R79). -/
def State.recordDenied (s : State) (g : Nat) (r : BankReq) : State :=
  if (s.reqWork g r.who).isSome then s.bankDenied (g / 8) r.addr else s

/-- An uncorrectable read is recorded on the bank's tile for the claimed work that made it. -/
def State.recordBad (s : State) (g : Nat) (r : BankReq) : State :=
  match s.reqWork g r.who with
  | some w =>
    if w.cls = clDma then s
    else
      let s1 := s.setBit (TILE_ERR_STATUS (g / 8)) TILE_ERR_STATUS_MEM_UNCORR true
      if w.attn.isSome then s1.attnErr (g / 8) ATTN_ERR_STATUS_MEM_UNCORR 0 0 else s1
  | none => s

/-- Does a write cover only part of an 8 B group (R80)? -/
def reqPartial (r : BankReq) : Bool :=
  r.write.isSome && (decide (r.addr % 8 ≠ 0) || decide ((r.addr + reqSpan r) % 8 ≠ 0))

/-- Does the request read group `x`: a read that touches it, or a write that covers part of it (R80)? -/
def reqReads (r : BankReq) (x : Nat) : Bool :=
  let n := reqSpan r
  decide (r.addr < 8 * x + 8) && decide (8 * x < r.addr + n) &&
    (r.write.isNone || !((wholeGroups r.addr n).contains x))

/-- The groups of a bank that cannot be read. -/
def State.reqFails (s : State) (g : Nat) (r : BankReq) : Bool := (s.bankSt g).bad.any (reqReads r)

/-- A served read: its data, as the bank held them before this clock's write; it may free a queue slot (R97, R99). -/
def State.serveRead (s : State) (g : Nat) (r : BankReq) : State :=
  (s.emit (.bankData g r.who (s.bankRead r.addr (reqSpan r)))).served r.who r.addr (reqSpan r) false

/-- A served write: its lanes take effect, CLEAN clears and LAST_CTX names the owner; a partial group holds the port for
the next clock too (R80, R85, R88). An ECC write-back leaves the contents as they are; a fill makes its entry available. -/
def State.serveWrite (s : State) (g clock : Nat) (v : BankWait) : State :=
  let r := v.req
  let bs := (r.write.getD []).take (reqSpan r)
  match v.fill with
  | some f => s.fillServed f bs
  | none =>
    if r.who = .eccWriteBack then s.bankDirty g
    else
      let s1 := (s.bankWrite r.addr bs).served r.who r.addr (reqSpan r) true
      if reqPartial r then s1.setBank g { s1.bankSt g with rmwAt := some (clock + 1) } else s1

/-- The write-back that a corrected group is owed, in the bank's next idle clock (R80). -/
def eccOwed (x clock ctx : Nat) : BankWait :=
  { req := { who := .eccWriteBack, ctx := ctx, addr := 8 * x, len := 8, write := some [] }, since := clock + 1, passed := true }

/-- What the code shows of group `x`, when a served request reads it (R80). -/
def State.bankEcc (s : State) (g clock x : Nat) (rs : List BankReq) (ecc : Ecc) : State :=
  match (if rs.any (fun r => reqReads r x) then ecc else .clean) with
  | .clean => (match (s.bankSt g).bad.find? fun y => rs.any fun r => reqReads r y with
    | some y => s.bankUncorrected g y
    | none => s)
  | .corrected =>
    let s1 := s.bankCorrected g
    let b := s1.bankSt g
    s1.setBank g { b with waiting := b.waiting ++ [eccOwed x clock (s.bankCtx g)] }
  | .uncorrectable => s.bankUncorrected g x

/-- The served requests of a clock take effect: reads before the write, those that meet an uncorrectable group not. Their
works stop afterwards. -/
def State.serveAll (s : State) (g clock x : Nat) (vs : List BankWait) (ecc : Ecc) : State :=
  let s1 := s.bankEcc g clock x (vs.map (·.req)) ecc
  let bad := (vs.map (·.req)).filter (s1.reqFails g)
  let good := vs.filter fun v => !(s1.reqFails g v.req)
  let s2 := (good.filter fun v => v.req.write.isNone).foldl (fun t v => t.serveRead g v.req) s1
  let s3 := (good.filter fun v => v.req.write.isSome).foldl (fun t v => t.serveWrite g clock v) s2
  let s4 := s3.setBank g { s3.bankSt g with lastAccess := s3.now }
  bad.foldl (fun t r => t.stopReq g r stMemoryUncorrectable) (bad.foldl (fun t r => t.recordBad g r) s4)

/-! ## Counters (R51, R54, R83, R95) -/

/-- An engine or the Vector Unit, whose waits the tile's stall counters show (Table 12 of Tiles, Matrix Engines and Kernel
Execution). -/
def reqEngine : Requester → Bool
  | .vector => true
  | .me _ => true
  | _ => false

/-- A clock in which an engine waited on an unfilled queue entry counts once on the tile (R51). -/
def State.stallQueue (s : State) (t clock : Nat) (held : List BankReq) : State :=
  let x := s.tile t
  if held.any (fun r => reqEngine r.who) && x.queueStallAt != some clock then
    ((s.setTile t { x with queueStallAt := some clock }).addSat (TILE_STALL_QUEUE t) TILE_STALL_QUEUE_CLOCKS 1).count 0x02
      (s.fld (TILE_STATUS t) TILE_STATUS_OWNER_CTX) t 1
  else s

/-- A clock in which an engine lost a bank access counts once on the tile (R54). -/
def State.stallBank (s : State) (t clock c : Nat) (lost : List BankWait) : State :=
  let x := s.tile t
  if lost.any (fun v => reqEngine v.req.who) && x.bankStallAt != some clock then
    ((s.setTile t { x with bankStallAt := some clock }).addSat (TILE_STALL_BANK t) TILE_STALL_BANK_CLOCKS 1).count 0x03 c t 1
  else s

/-- A clock that the Set Engine lost adds one to its operation (R110). -/
def State.stallSet (s : State) (cl clock : Nat) (lost : List BankWait) : State :=
  let h := s.hub cl
  if lost.any (fun v => v.req.who == .setEngine) && h.setLostAt != some clock then
    s.setHub cl { h with setLost := h.setLost + 1, setLostAt := some clock }
  else s

/-- The counters of a clock in which requests lost, and `waited` on the DMA side. -/
def State.countLost (s : State) (g clock : Nat) (lost waited : List BankWait) : State :=
  let t := g / 8
  let c := s.bankCtx g
  let s1 := if lost.any (fun v => reqProc v.req.who) then
      (s.addSat (BANK_CONFLICT t (g % 8)) BANK_CONFLICT_CLOCKS 1).count 0x04 c t 1 else s
  let s2 := (s1.stallBank t clock c lost).stallSet (g / 64) clock lost
  if waited.any (fun v => !(reqProc v.req.who)) then
    (s2.addSat (BANK_DMA_WAIT t (g % 8)) BANK_DMA_WAIT_CLOCKS 1).count 0x05 c t 1 else s2

/-! ## One clock of the port -/

/-- One clock with the requests that were not denied. Those that the bank cannot serve yet wait; of the others the winner and
those of its word are served, and the rest lose the clock (R82 to R85, R91). -/
def State.bankClock (s : State) (g clock : Nat) (vs : List BankWait) (ecc : Ecc) (group : Nat) : State :=
  let ready := if s.bankServes g then vs.filter (·.passed) else []
  let held := vs.filter fun v => !(ready.contains v)
  let s0 := if held.any (·.passed) then s.wakeForReq g else s
  let busy := (s0.bankSt g).rmwAt == some clock
  let keep := fun (t : State) (ws : List BankWait) =>
    t.setBank g { t.bankSt g with waiting := ws, clock := clock, rmwAt := none }
  match (if busy then none else firstRanked ready) with
  | none => keep (s0.countLost g clock ready vs) vs
  | some w =>
    let won := servedWith w ready
    let lost := ready.filter fun v => !(won.contains v)
    let left := held ++ lost
    ((keep (s0.countLost g clock lost left) (left ++ won.filterMap BankWait.rest)).serveAll g clock
      (8 * reqWord w.req + group) won ecc).advanceHandover g

/-- A waiting request, as the ownership check now sees it: one that waited for a handover has passed once it is over (R87). -/
def State.recheck (s : State) (g : Nat) (v : BankWait) : BankWait :=
  if v.passed then v else { v with passed := s.bankFate g v.req == .pass }

/-- BANK_ACCESS_REQUEST (R78 to R88): the requests newly presented to a bank in a clock of its port, after the last one.
`ecc` is what the code shows of 8 B group `group` of the word that is served. An engine whose queue entry is not filled
presents nothing (R51). -/
def bankAccessRequest (g clock : Nat) (reqs : List BankReq) (ecc : Ecc) (group : Nat) (s : State) : State :=
  if 512 ≤ g || decide (clock ≤ (s.bankSt g).clock) then s
  else
    let rs := reqs.filter fun r => decide (r.addr < 0x20000000) && bankOf r.addr == g && inR 1 64 r.len &&
      r.who != .eccWriteBack && !(s.reqGated g r.who) && (match r.write with | some b => b.length == r.len | none => true)
    let blocked := rs.filter fun r => s.queueHolds (g / 8) r.who r.addr r.write.isSome
    let asked := (rs.filter fun r => !(blocked.contains r)).map fun r => (r, s.bankFate g r)
    let denied := (asked.filter fun p => p.2 == .deny).map (·.1)
    let fresh := (asked.filter fun p => p.2 != .deny).map fun p =>
      ({ req := p.1, since := clock, passed := p.2 == .pass } : BankWait)
    let old := (s.bankSt g).waiting.map (s.recheck g)
    let gone := (old.filter fun v => !v.passed && s.bankFate g v.req == .deny).map (·.req)
    let s1 := (denied ++ gone).foldl (fun t r => t.recordDenied g r) (s.stallQueue (g / 8) clock blocked)
    (denied ++ gone).foldl (fun t r => t.stopReq g r stAccessDenied)
      (s1.bankClock g clock ((old.filter fun v => !(gone.contains v.req)) ++ fresh) ecc group)

/-! ## Owner writes, wakes, clears and idle retention (R86 to R94) -/

/-- The kernel, ATTN or SORT between steps 5 and 10 of its launch that claims a bank (R89). -/
def State.bankWork (s : State) (g : Nat) : Option Work :=
  s.hif.works.find? fun w => w.claims && w.stage != .claimWait && w.banks.contains g

/-- BANK_OWNER_WRITE (R86 to R89): the internal port names the new owner, or none. Work that claims the bank is stopped
first. The write is refused while HANDOVER is set. -/
def bankOwnerWrite (g : Nat) (owner : Option Nat) (s : State) : State :=
  if 512 ≤ g || (match owner with | some c => decide (32 ≤ c) | none => false) || s.bankHandover g then s
  else
    (match s.bankWork g with
    | some w => s.stopWork w stAborted
    | none => s).writeOwner g owner

/-- Clocks of a bank's port in which nothing new is presented, until no request that passed the check waits, at most `n`. -/
def State.runPort (g : Nat) : Nat → State → State
  | 0, s => s
  | n + 1, s =>
    let b := s.bankSt g
    if s.bankServes g && b.waiting.any (·.passed) then
      State.runPort g n (bankAccessRequest g (max (b.clock + 1) (b.rmwAt.getD 0)) [] .clean 0 s)
    else s

/-- HANDOVER_DRAIN (R87): the outstanding count has reached zero: the requests that passed the check have been served, each
in at most two word accesses and a write phase. While fills are outstanding it has not, and the handover goes no further. -/
def handoverDrain (g : Nat) (s : State) : State :=
  if 512 ≤ g || !(s.bankHandover g) then s
  else (State.runPort g (4 * (s.bankSt g).waiting.length + 4) s).advanceHandover g

/-- BANK_WAKE (R90, R91): a wake to ON ends, the tile domain being ON; a bank that was OFF is then cleared. -/
def bankWake (g : Nat) (s : State) : State :=
  if g < 512 && s.bit (bankState g) BANK_STATE_WAKING && s.isOn (.tile (g / 8)) then s.wakeDone g else s

/-- BANK_CLEAR (R93): the clear has written its last word; a bank that leaves OFF ends clean, a handover goes on, and a bank
that lost its owner while it was cleared follows R91. -/
def bankClear (g : Nat) (s : State) : State :=
  if g < 512 && s.bankClearing g then
    let s1 := (s.endClear g).advanceHandover g
    if s1.bankValid g || s1.bankHandover g then s1 else s1.freeBank g
  else s

/-- Is the bank one that the Sentinel uses (R189)? -/
def State.bankOfSentinel (s : State) (g : Nat) : Bool :=
  s.bit STN_CTRL STN_CTRL_ENABLE && decide (g / 64 = s.fld STN_CTRL STN_CTRL_CLUSTER)

/-- BANK_IDLE_RET (R91, R92): an owned bank that no claim includes, without an access for IDLE_RET_US. -/
def bankIdleRet (g : Nat) (s : State) : State :=
  let lim := s.fld (BANK_PWR_POLICY (g / 8)) BANK_PWR_POLICY_IDLE_RET_US
  if g < 512 && s.bankPwr g == pwrOn && s.bankValid g && !(s.bankHandover g) && !(s.bankClearing g) &&
      (s.bankWork g).isNone && !(s.heldBanks.contains g) && !(s.bankOfSentinel g) && (s.bankSt g).quiet && decide (lim ≠ 0) && decide ((s.bankSt g).lastAccess + lim ≤ s.now) then s.bankRet g
  else s

/-- A write of FREE_OFF in a tile's BANK_PWR_POLICY (R91): setting it moves the tile's ownerless banks in RET to OFF. -/
def State.setFreeOff (s : State) (t : Nat) (v : Bool) : State :=
  let s1 := s.setBit (BANK_PWR_POLICY t) BANK_PWR_POLICY_FREE_OFF v
  if v then
    s1.each (tileBanks t) fun u g => if !(u.bankValid g) && !(u.bankHandover g) && u.bankPwr g == pwrRet then u.bankOff g else u
  else s1

end Sys2Proof.Machine
end

