-- ==== Sys2Proof/Machine/Launch.lean ====
section
/-! DEFINITION. Granting claims and launching the work that holds one (Tiles, Matrix Engines and Kernel Execution, R60, R63,
R64; R24, R267, R289). -/

namespace Sys2Proof.Machine

/-- Are a launching work's tiles ON and its banks handed over (Table 6, steps 4 to 6)? -/
def State.launchReady (s : State) (w : Work) : Bool :=
  w.claims && w.stage == .launching && w.tiles.all (fun t => s.isOn (.tile t)) && w.banks.all (s.bankReadyFor w.ctx)

/-! ## BARRIER frames of other members (R321, R322) -/

/-- The launch part of GEN for the XMOD kernel released last; before the first, the number before 0. -/
def State.xlaunchNow (s : State) : Nat := (s.olp.xlaunch + 2 ^ 20 - 1) % 2 ^ 20

/-- How far the launch part of a received GEN lies ahead, modulo 2^20. -/
def State.genAhead (s : State) (gen : Nat) : Nat := (gen / 4096 % 2 ^ 20 + 2 ^ 20 - s.xlaunchNow) % 2 ^ 20

/-- Another member's announcement reaches the running XMOD kernel. -/
def State.barrierSeen (s : State) (bar origin gen : Nat) : State :=
  match s.hif.works.reverse.find? fun w => w.kern.isSome && kXmod w.desc && w.stage == .running with
  | some w =>
    (match w.kern with
    | some k =>
      let k1 := { k with announced := if k.announced.contains (bar, origin, gen) then k.announced else k.announced ++ [(bar, origin, gen)] }
      let s1 := s.setKern w k1
      (match k1.barriers.find? fun b => b.bar == bar with
      | some b => s1.tryCascade { w with kern := some k1 } k1 b
      | none => s1)
    | none => s)
  | none => s

/-- The frames of a ring port that were held for a launch that has come; those that it left behind are dropped. -/
def State.drainHeld (s : State) (p : Nat) : State :=
  let x := s.port p
  let now := x.held.filter fun e => s.genAhead e.2.2 == 0
  let s1 := s.setPort p { x with held := x.held.filter fun e => inR 1 (2 ^ 19) (s.genAhead e.2.2) }
  now.foldl (fun t e => t.barrierSeen e.1 e.2.1 e.2.2) s1

/-- Step 7: the work is released on its tiles. -/
def State.launch (s : State) (w : Work) : State :=
  match w.kern with
  | some k => if kXmod w.desc then ((s.launchKernel w k).drainHeld 1).drainHeld 2 else s.launchKernel w k
  | none => if w.attn.isSome then s.launchAttn w else s.launchSort w

/-- Banks of a launching work that are not on their way to its context are handed over. -/
def State.rehand (s : State) (w : Work) : State :=
  if w.claims && w.stage == .launching then s.each w.banks fun t g => t.handTo w.ctx g else s

/-- Launch what is ready, at most `n` works. -/
def State.launchN : Nat → State → State
  | 0, s => s
  | n + 1, s =>
    match s.hif.works.find? s.launchReady with
    | some w => State.launchN n (s.launch w)
    | none => s

/-- Launch every work whose tiles are ON and whose banks have been handed over. -/
def State.tryLaunches (s : State) : State :=
  State.launchN s.hif.works.length (s.hif.works.foldl (fun t w => t.rehand w) s)

/-- CLAIM_GRANT (R60): the oldest claim of the partition's current context that can be placed is granted, all or nothing,
while the work gate is open and the context is granted claims (R267, R289). Work of the Sentinel's partition that was
admitted before the acceptance is granted its claim like any other (R189). -/
def claimGrant (p : Nat) (s : State) : State :=
  let x := s.part p
  match x.current with
  | some c =>
    if s.gateClosed || x.switching || s.barred p then s
    else match s.firstGrant p c [] (s.waitingClaims c) with
      | some (w, tiles) => (s.grantClaim w tiles).tryLaunches
      | none => s
  | none => s

end Sys2Proof.Machine
end

