-- ==== Sys2Proof/Machine/Settings.lean ====
section
/-! DEFINITION. The settings block: its two copies and their writing (Start-up, Firmware Update and Cabinet Management,
R366 to R368). -/

namespace Sys2Proof.Machine

/-- The copy in force: the valid one with the higher GENERATION; none when neither is valid. -/
def NonVol.copyInForce (n : NonVol) : Option Nat :=
  if n.copy0.valid then
    if n.copy1.valid && decide (n.copy0.generation < n.copy1.generation) then some 1 else some 0
  else if n.copy1.valid then some 1
  else none

/-- A settings copy. -/
def NonVol.settingsCopy (n : NonVol) (i : Nat) : SetCopy := if i = 0 then n.copy0 else n.copy1

/-- Store a settings copy. -/
def NonVol.setCopy (n : NonVol) (i : Nat) (x : SetCopy) : NonVol := if i = 0 then { n with copy0 := x } else { n with copy1 := x }

/-- Write records to the copy that is not in force, with the next GENERATION; it is then in force. A VERSION is never
lowered (R366, R368). -/
def State.storeSettings (s : State) (r : Settings) : State :=
  let i := (s.nv.copyInForce).getD 1
  let old := s.nv.settingsCopy i
  let j := 1 - i
  let x : SetCopy := { valid := true, version := max 3 old.version, generation := (if old.valid then old.generation else 0) + 1,
                       recs := r }
  let s1 := { s with nv := s.nv.setCopy j x }
  let s2 := { s1 with aon := { s1.aon with settings := r, inForce := true } }
  ((s2.setFld MGT_SETTINGS MGT_SETTINGS_COPY j).setFld MGT_SETTINGS MGT_SETTINGS_VERSION x.version).setFld MGT_SETTINGS
    MGT_SETTINGS_DEFAULTED 0

/-- Change the records in force. -/
def State.changeSettings (s : State) (k : Settings → Settings) : State := s.storeSettings (k s.aon.settings)

/-- Is the running image not the one that LAST_IMAGE_ID names? Until an image is written here, the 0 that this model's
manufacture leaves stands for the image of manufacture, whose IMAGE_ID the manual does not fix (R354, R366). -/
def State.newFirmware (s : State) (id : Nat) : Bool :=
  if s.aon.settings.lastImageId = 0 && s.nv.image.length.isNone then false else s.aon.settings.lastImageId != id

/-- A cap as R286 takes it: below 150 W as 150 W, above 350 W and 0 as no cap. -/
def capTaken (w : Nat) : Nat := if w = 0 then 0 else if 350 < w then 0 else max 150 w

/-- The records of a cap, in the new type and the older one (R367). -/
def Settings.withCap (r : Settings) (w : Nat) : Settings := { r with extCapW := w, extCap10 := w / 10 }

/-- The settings in force take effect: the owner lock, the cap and the mode that they hold. -/
def State.settingsTaken (s : State) : State :=
  let r := s.aon.settings
  ((s.setBit MGT_STATE MGT_STATE_OWNER_LOCK (decide (r.ownerLock ≠ 0))).setFld PWR_LIMITS PWR_LIMITS_EXT_CAP
    (capTaken r.extCapW)).setFld PWR_MODE PWR_MODE_MODE r.mode

/-! ## The image region (R354) -/

/-- Bytes of the image region, of an image frame and of a chunk. -/
def imageMax : Nat := 100663296
def frameSize : Nat := 1024
def chunkSize : Nat := 65536

/-- LENGTH of the image in the region, and the bytes of one of its frames. -/
def State.regionLength (s : State) : Nat := s.nv.image.length.getD Config.factoryLength
def State.regionFrame (s : State) (o : Nat) : List Byte :=
  match tabGet? s.nv.image.data o with
  | some b => b
  | none => (List.range (min frameSize (s.regionLength - o))).map fun i => Config.factoryByte (o + i)

/-- `n` bytes of the image from byte `o` on. -/
def State.region (s : State) (o n : Nat) : List Byte :=
  let k := o / frameSize
  let frames := (List.range ((o + n + frameSize - 1) / frameSize - k)).flatMap fun i => s.regionFrame (frameSize * (k + i))
  (frames.drop (o % frameSize)).take n

end Sys2Proof.Machine
end

