-- ==== Sys2Proof/Machine/Ports.lean ====
section
/-! DEFINITION. Olper ports: training, authentication, lane loss, delivery and replay, DATA and BARRIER frames, windows and
cascades (Olper Links, Cascades and Hot-Standby Pairs, R311 to R323). -/

namespace Sys2Proof.Machine

/-! ## Ports going DOWN (R314, R317, R323) -/

/-- Is a ring port's DATA frame of a window queued or unacknowledged? -/
def State.windowBusy (s : State) (i : Nat) : Bool :=
  let x := s.port (i / 16)
  (x.wait1 ++ x.unacked).any fun f => f.ftype == 0x20 && f.addr / 2 ^ 60 == i % 16

/-- Show window `i` (16 · port + WIN) open or closed (Table 12). -/
def State.showWindow (s : State) (i : Nat) (v : Bool) : State :=
  let p := i / 16
  let w := i % 16
  if w < 8 then s.setMaskBit OLP_CASCADE OLP_CASCADE_WINDOWS (8 * (p - 1) + w) v
  else s.setMaskBit (OLP_PORT_STATUS p) OLP_PORT_STATUS_WIN_HI (w - 8) v

/-- Close a window. -/
def State.closeWindow (s : State) (i : Nat) : State :=
  ({ s with olp := { s.olp with windows := tabDel s.olp.windows i } }).showWindow i false

/-- The window that a WINDOW_CLOSE names. -/
def Work.closes (w : Work) : Nat := 16 * dF w.desc 9 1 + dF w.desc 10 1

/-- What waited for acknowledgements and has them: a WINDOW_CLOSE, or a DMA that wrote a send window (R320, R339). -/
def State.settleAck (s : State) (w : Work) : State :=
  if w.cls = clAdmin && w.op = 0x46 then
    if s.windowBusy w.closes then s else (s.closeWindow w.closes).complete w stDone 0 0
  else if w.cls = clDma && w.phase == .committing then
    if (s.dmaWindows w).any s.windowBusy then s else s.complete w stDone 0 (mLen w.desc)
  else s

/-- Everything that waited for acknowledgements. -/
def State.settleAcks (s : State) : State := s.hif.works.foldl (fun t w => t.settleAck w) s

/-- The cascade is DEGRADED: running XMOD kernels stop with LINK_LOST (R323). -/
def State.degrade (s : State) : State :=
  if s.bit OLP_CASCADE OLP_CASCADE_FORMED then
    (s.setBit OLP_CASCADE OLP_CASCADE_DEGRADED true).stopAll
      (fun w => w.kern.isSome && kXmod w.desc && w.stage != .claimWait) stLinkLost
  else s

/-- DMAs that write a window of a port stop with LINK_LOST. -/
def State.stopWindowDmas (s : State) (p : Nat) : State :=
  s.stopAll (fun w => w.cls == clDma && w.phase != .waiting && (s.dmaWindows w).any fun i => i / 16 == p) stLinkLost

/-- The link is lost: its frames and its keys are gone. -/
def State.dropLink (s : State) (p : Nat) : State :=
  let o := OLP_PORT_STATUS p
  let s1 := (s.setFld o OLP_PORT_STATUS_LANES 0).setFld o OLP_PORT_STATUS_LANE_MASK 0
  let x := s1.port p
  s1.setPort p { x with
    peer := none
    give0 := 0
    give1 := 0
    wait0 := []
    wait1 := []
    unacked := [] }

/-- What the loss of an UP port does beyond the port: without its P0 peer a module counts the second of R326 anew. -/
def State.afterLoss (s : State) (p : Nat) : State :=
  if p = 0 then { s with pair := { s.pair with alone := s.now } } else ((s.degrade).stopWindowDmas p).settleAcks

/-- A port goes DOWN; DMAs that waited for its link stop (R320, R323). -/
def State.linkDown (s : State) (p : Nat) : State :=
  let was := s.portState p = portUp
  let s1 := ((s.dropLink p).setPortState p portDown).report evLink p
  if was then s1.afterLoss p else if p = 0 then s1 else s1.stopWindowDmas p

/-- Training stops for AUTH_FAIL: the port goes DOWN and stays there (R313). -/
def State.authFail (s : State) (p : Nat) : State :=
  let s1 := (s.olpErr OLP_ERR_STATUS_AUTH_FAIL p).linkDown p
  s1.setPort p { s1.port p with stuck := true }

/-! ## Cascades (R319) -/

/-- The serial of a cascade position. -/
def State.serialAt (s : State) (k : Nat) : W64 := s.olp.serials.getD k 0

/-- The neighbours' positions that P1 and P2 reach. -/
def State.ringPeer (s : State) (p : Nat) : Nat :=
  let n := s.fld OLP_CASCADE OLP_CASCADE_SIZE
  let k := s.fld OLP_CASCADE OLP_CASCADE_POSITION
  if p = 1 then (k + 1) % n else (k + n - 1) % n

/-- Does an UP ring port reach the peer that the configuration names, over a link of version 2? -/
def State.ringOk (s : State) (p : Nat) : Bool :=
  s.portState p == portUp && s.reg (OLP_PORT_PEER p) == s.serialAt (s.ringPeer p) &&
    s.fld (OLP_PORT_STATUS p) OLP_PORT_STATUS_VERSION == 2

/-- An UP ring port that the configuration does not match: CABLING_FAULT, or VERSION_REFUSED over a version 1 link. -/
def State.ringFault (s : State) (p : Nat) : State :=
  if s.portState p ≠ portUp then s
  else if s.reg (OLP_PORT_PEER p) ≠ s.serialAt (s.ringPeer p) then s.olpErr OLP_ERR_STATUS_CABLING_FAULT p
  else if s.fld (OLP_PORT_STATUS p) OLP_PORT_STATUS_VERSION = 1 then s.olpErr OLP_ERR_STATUS_VERSION_REFUSED p
  else s

/-- The cascade forms when both ring ports reach the configured peers; XLAUNCH starts at 0 again (R319, R322). -/
def State.tryForm (s : State) : State :=
  if s.fld OLP_CASCADE OLP_CASCADE_SIZE < 2 then s
  else if s.ringOk 1 && s.ringOk 2 then
    let s1 := (s.setBit OLP_CASCADE OLP_CASCADE_FORMED true).setBit OLP_CASCADE OLP_CASCADE_DEGRADED false
    let s2 := { s1 with olp := { s1.olp with xlaunch := 0 } }
    s2.each [1, 2] fun t p => t.setPort p { t.port p with held := [] }
  else (s.ringFault 1).ringFault 2

/-- The fields of a CASCADE_CONFIG. -/
def cascadeFieldsOk (d : Desc) : Bool :=
  inR 1 4 (dF d 9 1) && decide (dF d 10 1 < dF d 9 1) && decide (dF d 11 1 < 2) && dZero d 12 4 && dZero d 48 16

/-- The configuration of a cascade takes effect, and the settings block keeps it. -/
def State.setCascade (s : State) (d : Desc) : State :=
  let n := dF d 9 1
  let o := OLP_CASCADE
  let s1 := ((((s.setBit o OLP_CASCADE_FORMED false).setBit o OLP_CASCADE_DEGRADED false).setFld o
    OLP_CASCADE_STANDBY_CASCADE (if n = 1 then 0 else dF d 11 1)).setFld o OLP_CASCADE_SIZE (if n = 1 then 0 else n)).setFld o
    OLP_CASCADE_POSITION (if n = 1 then 0 else dF d 10 1)
  let serials := if n = 1 then [] else (List.range 4).map fun k => BitVec.ofNat 64 (dF d (16 + 8 * k) 8)
  let s2 := { s1 with olp := { s1.olp with serials := serials, xlaunch := 0 } }
  let rec_ := if n = 1 then none else some ((List.range 39).map fun k => BitVec.ofNat 8 (dF d (9 + k) 1))
  (s2.changeSettings fun x => { x with cascade := rec_ }).tryForm

/-- CASCADE_CONFIG (R319, R339). SIZE 1 leaves the cascade. -/
def cascadeConfig (r : Nat) (s : State) : State :=
  s.withAdmin r 0x44 (onMgmt r) fun f =>
    let d := f.desc
    if !(cascadeFieldsOk d) then s.reject r f stBadDescriptor
    else if dF d 9 1 ≠ 1 && [1, 2].any (fun p => s.portState p == portUp && s.fld (OLP_PORT_STATUS p) OLP_PORT_STATUS_VERSION == 1)
    then (s.setBit OLP_ERR_STATUS OLP_ERR_STATUS_VERSION_REFUSED true).reject r f stVersionMismatch
    else (s.setCascade d).finishNow r f stDone 0 0

/-- CASCADE_DEGRADED (R323): a ring port of the formed cascade, here or on another member, has gone DOWN. -/
def cascadeDegraded (p : Nat) (s : State) : State :=
  if !(p = 1 || p = 2) then s
  else if s.portState p = portUp then s.degrade
  else (s.degrade).stopWindowDmas p

/-! ## Training (R312, R313, R315) -/

/-- Lanes of a mask. -/
def laneCount (m : BitVec 8) : Nat := ((List.range 8).filter fun i => m.getLsbD i).length

/-- The HELLO payload: version mask, GLB_SERIAL, key class and a fresh nonce. -/
def helloBytes (nonce : BitVec 256) : List Byte :=
  [3] ++ leBytes 8 Config.serial.toNat ++ leBytes 2 Config.keyClass.toNat ++ leBytes 32 nonce.toNat

/-- PROOF of a side (R313). -/
def proofOf (ownSerial : W64) (ownNonce peerNonce : BitVec 256) : BitVec 256 :=
  BitVec.ofNat 256 (leNat (shakeBytes (leBytes 32 Config.linkKey.toNat ++ strBytes "KQM-PROOF" ++ leBytes 8 ownSerial.toNat ++
    leBytes 32 ownNonce.toNat ++ leBytes 32 peerNonce.toNat) 32))

/-- Steps 3 and 4 of Table 1: at least four lanes pass, and HELLO is sent with a fresh nonce; else the port waits. DATA
frames of work that waits for the link stay queued (R24). -/
def State.trainLanes (s : State) (p : Nat) (lanes : BitVec 8) : State :=
  let o := OLP_PORT_STATUS p
  let s0 := s.dropLink p
  let s1 := s0.setPort p { s0.port p with wait1 := (s.port p).wait1 }
  if laneCount lanes < 4 then s1.setPortState p portTraining
  else
    let n := s1.nv.draws
    let s2 := ((s1.takeDraws 1).setFld o OLP_PORT_STATUS_LANES (laneCount lanes)).setFld o OLP_PORT_STATUS_LANE_MASK lanes.toNat
    let s3 := (s2.setPortState p portAuth).setPort p { s2.port p with nonce := n, stuck := false }
    s3.sendClear p 0x01 (helloBytes (Config.draw n))

/-- PORT_TRAINING (R312): PD_Pp is switched ON; once lasers and rings are locked, the lanes are trained. -/
def portTrainingCmd (p : Nat) (lanes : BitVec 8) (locked : Bool) (s : State) : State :=
  if 3 ≤ p || !(s.isOn .hcx) || !(s.portState p == portOff || s.portState p == portLocking) then s
  else
    let s1 := if s.isOn (.port p) then s else s.powerOn (.port p)
    if !locked then s1.setPortState p portLocking
    else (s1.setPort p { s1.port p with locked := true }).trainLanes p lanes

/-- Count a retrain. -/
def State.countRetrain (s : State) (p : Nat) : State := s.addSat (OLP_PORT_STATUS p) OLP_PORT_STATUS_RETRAINS 1

/-- TRAINING_RETRY (R312): a port without a peer repeats steps 3 and 4, and a port that is DOWN retrains. -/
def trainingRetry (p : Nat) (lanes : BitVec 8) (s : State) : State :=
  let x := s.port p
  if 3 ≤ p || !(s.isOn (.port p)) || !x.locked || x.stuck then s
  else if s.portState p = portTraining || (s.portState p = portAuth && x.peer.isNone) then s.trainLanes p lanes
  else if s.portState p = portDown then (s.countRetrain p).trainLanes p lanes
  else s

/-- LIGHT_REGAINED (R313): a port stopped for AUTH_FAIL trains again from step 3. -/
def lightRegained (p : Nat) (lanes : BitVec 8) (s : State) : State :=
  if p < 3 && (s.port p).stuck && s.isOn (.port p) && s.portState p == portDown then (s.countRetrain p).trainLanes p lanes else s

/-- The highest link version that both sides offer; bit 0 of the mask is version 1. -/
def linkVersion (mask : BitVec 8) : Nat := if mask.getLsbD 1 then 2 else if mask.getLsbD 0 then 1 else 0

/-- HELLO (R313, R315): the peer's exchange is taken and PROOF is sent; another key class stops training. -/
def hello (p : Nat) (h : Hello) (s : State) : State :=
  let x := s.port p
  if 3 ≤ p || s.portState p ≠ portAuth || x.peer.isSome then s
  else
    let s1 := (s.setReg (OLP_PORT_PEER p) h.serial).bwAdd (15 + 2 * p) 43
    if h.keyClass ≠ Config.keyClass then s1.authFail p
    else if linkVersion h.versions = 0 then s1.linkDown p
    else
      let s2 := (s1.setFld (OLP_PORT_STATUS p) OLP_PORT_STATUS_VERSION (linkVersion h.versions)).setPort p { x with peer := some h }
      s2.sendClear p 0x02 (leBytes 32 (proofOf Config.serial (Config.draw x.nonce) h.nonce).toNat)

/-- A pair role over a version 1 link is refused (R315). -/
def State.pairVersion (s : State) : State :=
  if s.bit OLP_PAIR OLP_PAIR_PAIRED && s.fld (OLP_PORT_STATUS 0) OLP_PORT_STATUS_VERSION == 1 then
    s.olpErr OLP_ERR_STATUS_VERSION_REFUSED 0
  else s

/-- PROOF (R312, R313): a proof that verifies brings the port UP with new keys and credits, and the DATA frames that waited
for the link go out as credit allows. -/
def proof (p : Nat) (v : BitVec 256) (s : State) : State :=
  let x := s.port p
  if 3 ≤ p || s.portState p ≠ portAuth then s
  else match x.peer with
    | none => s
    | some h =>
      let s := s.bwAdd (15 + 2 * p) 32
      if v ≠ proofOf h.serial h.nonce (Config.draw x.nonce) then s.authFail p
      else
        let s1 := (s.setPortState p portUp).setPort p { x with
          txCtr := 0
          rxCtr := 0
          cred0 := 16
          cred1 := 64
          give0 := 0
          give1 := 0 }
        let s2 := (s1.pump p x.wait1.length).report evLink (16 + p)
        if p = 0 then s2.pairVersion else s2.tryForm

/-- LINK_RETRAIN (R339): the link goes down and trains again from step 3. -/
def linkRetrain (r : Nat) (s : State) : State :=
  s.withAdmin r 0x47 (onMgmt r) fun f =>
    let p := dF f.desc 9 1
    if !(decide (p < 3) && dZero f.desc 10 54) || !(s.isOn (.port p)) || !(s.port p).locked then s.reject r f stBadDescriptor
    else
      let was := s.portState p = portUp
      let s1 := ((s.dropLink p).setPortState p portTraining).countRetrain p
      let s2 := s1.setPort p { s1.port p with stuck := false, wait1 := if was then [] else (s.port p).wait1 }
      (if was then s2.afterLoss p else s2).finishNow r f stDone 0 0

/-! ## Delivery and replay (R317) -/

/-- Is a frame acknowledged by the low 16 bits of an ACK? -/
def ackCovers (ack ctr : Nat) : Bool := decide ((ack + 65536 - ctr % 65536) % 65536 < 32768)

/-- Send every unacknowledged frame again; a frame replayed 8 times takes the port DOWN. -/
def State.replay (s : State) (p : Nat) : State :=
  let x := s.port p
  if x.unacked = [] then s
  else if x.unacked.any fun f => decide (8 ≤ f.tries) then s.linkDown p
  else
    let fs := x.unacked.map fun (f : LinkFrame) => { f with tries := f.tries + 1 }
    let s1 := fs.foldl (fun t f => t.emit (.olper p (t.wire p f))) s
    ((s1.setPort p { x with unacked := fs }).addSat (OLP_PORT_REPLAYS p) OLP_PORT_REPLAYS_FRAMES fs.length).count 0x2A 0 p fs.length

/-- The checks of a received frame, its acknowledgement and its credits: whether it is delivered. -/
def State.recv (s : State) (p : Nat) (h : OlpHdr) (vc : Nat) : State × Bool :=
  let x := s.port p
  if 3 ≤ p || s.portState p ≠ portUp then (s, false)
  else if !h.crcOk then (s.sendIdle p, false)
  else if !h.tagOk then ((s.olpErr OLP_ERR_STATUS_TAG_FAIL p).linkDown p, false)
  else if h.ctr ≠ x.rxCtr then (s.sendIdle p, false)
  else
    let s1 := s.setPort p { x with
      rxCtr := x.rxCtr + 1
      unacked := x.unacked.filter fun f => !(ackCovers h.ack f.ctr)
      cred0 := min 16 (x.cred0 + h.cred0)
      cred1 := min 64 (x.cred1 + h.cred1)
      give0 := x.give0 + (if vc = 0 then 1 else 0)
      give1 := x.give1 + (if vc = 1 then 1 else 0) }
    ((s1.pump p (x.wait0.length + x.wait1.length)).settleAcks, true)

/-- Acknowledge a delivered frame that no frame has acknowledged yet. -/
def State.ackNow (s : State) (p : Nat) : State :=
  if 0 < (s.port p).give0 + (s.port p).give1 then s.sendIdle p else s

/-- IDLE (R317): ACK and credits; one that acknowledges nothing new asks for a replay. -/
def idle (p : Nat) (h : OlpHdr) (s : State) : State :=
  let before := (s.port p).unacked.length
  match s.recv p h 0 with
  | (s1, true) =>
    let x := s1.port p
    if x.unacked.length = before && x.unacked.any (fun f => f.ftype != 0x03) then s1.replay p else s1
  | (s1, false) => s1

/-- REPLAY_TIMEOUT (R317): 4 µs without an ACK. -/
def replayTimeout (p : Nat) (s : State) : State := if p < 3 && s.portState p == portUp then s.replay p else s

/-- LANE_DROP (R314, R315): the lane is dropped and the port goes on with a replay; with fewer than four lanes, or on a
version 1 link, it goes DOWN. -/
def laneDrop (p lane : Nat) (s : State) : State :=
  let o := OLP_PORT_STATUS p
  if 3 ≤ p || 8 ≤ lane || s.portState p ≠ portUp || !(s.maskBit o OLP_PORT_STATUS_LANE_MASK lane) then s
  else
    let s1 := ((s.olpErr OLP_ERR_STATUS_LANE_LOST p).setMaskBit o OLP_PORT_STATUS_LANE_MASK lane false).setFld o
      OLP_PORT_STATUS_LANES (s.fld o OLP_PORT_STATUS_LANES - 1)
    if s.fld o OLP_PORT_STATUS_VERSION = 1 || s1.fld o OLP_PORT_STATUS_LANES < 4 then s1.linkDown p else s1.replay p

/-! ## DATA and BARRIER (R320 to R322) -/

/-- The bytes of a DATA frame within the receive window land; the rest is dropped. -/
def State.landData (s : State) (win offset : Nat) (bytes : List Byte) : State :=
  match (tabGet? s.olp.windows win).filter fun w => !w.isSend with
  | none => s.olpErr OLP_ERR_STATUS_WINDOW_OVERRUN (win / 16)
  | some w =>
    let body := bytes.take (w.len - offset)
    let s1 := if body.length < bytes.length then s.olpErr OLP_ERR_STATUS_WINDOW_OVERRUN (win / 16) else s
    if body = [] then s1
    else if s1.objectBusy (w.base + offset) body.length then s1.olpErr OLP_ERR_STATUS_WINDOW_OVERRUN (win / 16)
    else if s1.hitsProt w.ctx (w.base + offset) body.length then s1.protErr w.ctx
    else s1.dramWrite w.ctx (w.base + offset) body

/-- DATA (R320): a frame on a ring port. -/
def data (p : Nat) (h : OlpHdr) (win offset : Nat) (bytes : List Byte) (s : State) : State :=
  if !(p = 1 || p = 2) || 16 ≤ win || bytes.length % 64 ≠ 0 || s.maxData p < bytes.length || bytes = [] || offset % 64 ≠ 0 then s
  else match s.recv p h 1 with
    | (s1, true) =>
      let i := 16 * p + win
      let c := match tabGet? s1.olp.windows i with | some w => w.ctx | none => 0
      let s2 := ((s1.addSat (OLP_PORT_RX_BYTES p) OLP_PORT_BYTES bytes.length).count 0x29 c p bytes.length).bwAdd (15 + 2 * p)
        bytes.length
      (s2.landData i offset bytes).ackNow p
    | (s1, false) => s1

/-- A BARRIER frame goes onward in its direction until every member has seen it (R321). -/
def State.forwardBarrier (s : State) (p : Nat) (ring bar origin : Nat) (gen : W32) : State :=
  let out := if p = 1 then 2 else 1
  if s.ringPeer out = origin then s
  else s.sendFrame out { ftype := 0x12, vc := 0, addr := 0
                         payload := leBytes 2 ring ++ leBytes 1 bar ++ leBytes 1 origin ++ leBytes 4 gen.toNat }

/-- A BARRIER frame by its launch: counted, held, or dropped (R322). -/
def State.takeBarrier (s : State) (p bar origin : Nat) (gen : W32) : State :=
  let a := s.genAhead gen.toNat
  if a = 0 then s.barrierSeen bar origin gen.toNat
  else if a ≤ 2 ^ 19 then
    let x := s.port p
    let held := x.held ++ [(bar, origin, gen.toNat)]
    s.setPort p { x with held := if 16 < held.length then held.drop 1 else held }
  else s

/-- BARRIER (R321, R322). -/
def barrier (p : Nat) (h : OlpHdr) (ring bar origin : Nat) (gen : W32) (s : State) : State :=
  if !(p = 1 || p = 2) then s
  else match s.recv p h 0 with
    | (s1, true) =>
      let s2 := s1.bwAdd (15 + 2 * p) 8
      if s2.fld OLP_CASCADE OLP_CASCADE_SIZE < 2 || origin = s2.fld OLP_CASCADE OLP_CASCADE_POSITION || s2.fld OLP_CASCADE OLP_CASCADE_SIZE ≤ origin then s2.ackNow p
      else (((s2.forwardBarrier p ring bar origin gen).takeBarrier p bar origin gen).settle).ackNow p
    | (s1, false) => s1

/-! ## DIGEST (R337) -/

/-- DIGEST: the partner's digest of a block is compared with the local one, or kept until that is closed. -/
def digest (p : Nat) (h : OlpHdr) (n b : Nat) (skip : Bool) (d : W64) (s : State) : State :=
  if 3 ≤ p then s
  else match s.recv p h 0 with
    | (s1, true) =>
      let s2 := s1.bwAdd (15 + 2 * p) 14
      let s3 := if p ≠ 0 || !s2.digesting || 4096 ≤ n || 2 ^ 18 ≤ b || tabGet? s2.stn.settled n == some b then s2
        else match tabGet? s2.stn.closed (digKey n b) with
          | some mine => s2.digResolve n b mine (skip, d)
          | none => { s2 with stn := { s2.stn with theirs := tabSet s2.stn.theirs (digKey n b) (skip, d, s2.now) } }
      s3.ackNow p
    | (s1, false) => s1

/-- DIGEST_BLOCK_TIMEOUT (R337): a block not closed within 1 s of the partner's digest is sent with SKIP and not compared. -/
def digestBlockTimeout (n b : Nat) (s : State) : State :=
  match tabGet? s.stn.theirs (digKey n b) with
  | some t =>
    if t.2.2 + 1000000 ≤ s.now && (tabGet? s.stn.closed (digKey n b)).isNone then
      let s1 := match tabGet? s.stn.open_ n with
        | some o => if o.block = b then { s with stn := { s.stn with open_ := tabDel s.stn.open_ n } } else s
        | none => s
      ((s1.bump).sendDigest n b true s.freeWord).digResolve n b (true, 0) (t.1, t.2.1)
    else s
  | none => s

/-! ## Windows (R320, R339) -/

/-- WINDOW_OPEN: the window is bound to a context's range on a ring port. -/
def windowOpen (r : Nat) (s : State) : State :=
  s.withAdmin r 0x45 (onMgmt r) fun f =>
    let d := f.desc
    let p := dF d 9 1
    let i := 16 * p + dF d 10 1
    let c := dF d 12 1
    let base := dF d 16 8
    let len := dF d 24 8
    let fields := (p == 1 || p == 2) && decide (dF d 10 1 < 16) && decide (dF d 11 1 < 2) && decide (c < 32) && dZero d 13 3 &&
      dZero d 32 32 && decide (base % 64 = 0) && decide (len % 64 = 0) && decide (0 < len)
    if !fields || !(inDram base len && s.inGrant c base len) || (tabGet? s.olp.windows i).isSome then s.reject r f stBadDescriptor
    else
      let w : Window := { isSend := dF d 11 1 = 0, ctx := c, base := base, len := len }
      (({ s with olp := { s.olp with windows := tabSet s.olp.windows i w } }).showWindow i true).finishNow r f stDone 0 0

/-- WINDOW_CLOSE: it waits for the window's acknowledged frames. -/
def windowClose (r : Nat) (s : State) : State :=
  s.withAdmin r 0x46 (onMgmt r) fun f =>
    let d := f.desc
    let i := 16 * dF d 9 1 + dF d 10 1
    if !((dF d 9 1 == 1 || dF d 9 1 == 2) && decide (dF d 10 1 < 16) && dZero d 11 53) || (tabGet? s.olp.windows i).isNone then
      s.reject r f stBadDescriptor
    else (((s.popHead r).addWork (mkWork r f 0x46 .committing)).settleAcks).settle

end Sys2Proof.Machine
end

