-- ==== Sys2Proof/Machine/Power.lean ====
section
/-! DEFINITION. Power limits, their actions and counters, voltage loops, droop, hints, airflow, energy and the mode
(Power Limits, Droop and Thermal Protection, R283 to R309). -/

namespace Sys2Proof.Machine

/-! ## Rungs (R287, R288, R300)

Rungs 1 to 28 lower the arithmetic clock by 8 MHz each from 384 MHz, 29 closes the work gate, 30 to 60 pause for 1 to 31 of
every 32 µs. A cluster in FIXED mode has no clock rungs. -/

/-- The reasons of Table 1, by bit. -/
def rTjHigh : Nat := 0
def rInlet : Nat := 1
def rAirflow : Nat := 2
def rSupply : Nat := 5
def rPeak : Nat := 3
def rSustained : Nat := 4
def rDroop : Nat := 6
def rCap : Nat := 7

/-- The rung that closes the gate. -/
def rungGate : Nat := 29
/-- The floor. -/
def rungFloor : Nat := 60

/-- The Sentinel cluster, while the Sentinel is enabled. -/
def State.sentCluster (s : State) : Option Nat :=
  if s.bit STN_CTRL STN_CTRL_ENABLE then some (s.fld STN_CTRL STN_CTRL_CLUSTER) else none

/-- A module-level reason's own rung. -/
def State.modRung (s : State) (r : Nat) : Nat :=
  if r = rAirflow && s.bit PWR_STATUS PWR_STATUS_AIR_STOP then rungFloor
  else if r = rSupply then (if s.bit PWR_STATUS PWR_STATUS_SUPPLY_HOLD then rungFloor else 0)
  else if r = rTjHigh || r = rDroop then 0
  else tabGetD s.pwr.rungs r 0

/-- A rung as a cluster's mode has it: in FIXED the gate is the first action (Table 2). -/
def State.rungIn (s : State) (c n : Nat) : Nat := if s.clusterFixed c && decide (0 < n) then max rungGate n else n

/-- A reason's own rung on a cluster; the Sentinel cluster is never acted on. -/
def State.cluRung (s : State) (c r : Nat) : Nat :=
  if s.sentCluster = some c then 0
  else if r = rTjHigh then s.rungIn c (max (tabGetD s.pwr.tjRungs c 0) (tabGetD s.pwr.tjRungs 8 0))
  else s.rungIn c (s.modRung r)

/-- The action applied to a cluster: the most restrictive. -/
def State.cluApplied (s : State) (c : Nat) : Nat := (List.range 8).foldl (fun m r => max m (s.cluRung c r)) 0

/-- Does a reason bind on a cluster (R298)? -/
def State.cluBinds (s : State) (c r : Nat) : Bool :=
  decide (s.cluRung c r ≠ 0) && s.cluRung c r == s.cluApplied c

/-- Does a reason bind on any cluster? DROOP binds while any clock is stretched. -/
def State.binds (s : State) (r : Nat) : Bool :=
  if r = rDroop then s.pwr.stretched != [] else (List.range 8).any fun c => s.cluBinds c r

/-- A mask of the reasons that satisfy a test. -/
def reasonMask (p : Nat → Bool) : Nat := ((List.range 8).map fun r => if p r then 2 ^ r else 0).sum

/-- The reasons in the priority of Table 1; AIRFLOW_LOW stands first during a sudden stop. -/
def State.priority (s : State) : List Nat :=
  if s.bit PWR_STATUS PWR_STATUS_AIR_STOP then [2, 5, 0, 3, 4, 7, 1, 6] else [5, 0, 3, 4, 7, 1, 2, 6]

/-! ## Hints (R295 to R297) -/

/-- Class words of a HINT: APPLIED_LEVEL, RESULT, READY_US. -/
def hintWords (level result ready : Nat) : Nat := level + 256 * result + 2 ^ 32 * ready

/-- READY_US of a band that was not reached. -/
def notReady : Nat := 0xFFFFFFFF

/-- Is a hint's context current on its partition? -/
def State.hintCurrent (s : State) (h : Hint) : Bool :=
  (s.part h.part).current == some h.ctx && (s.part h.part).clusters != 0

/-- Does a budget bind on the hint's partition? -/
def State.hintBound (s : State) (p : Nat) : Bool := (s.partClusters p).any fun c => decide (s.cluApplied c ≠ 0)

/-- The band in force on a cluster: the highest of its hints. -/
def State.bandOf (s : State) (c : Nat) : Nat :=
  (s.pwr.hints.filter fun h => h.reached && (s.part h.part).clusters.getLsbD c).foldl (fun m h => max m (20 * h.level)) 0

/-- Every cluster's rail carries the band in force. -/
def State.setGuards (s : State) : State :=
  s.each (List.range 8) fun t c =>
    let o := PWR_CLU c
    let g := t.bandOf c
    let old := t.fld o PWR_CLU_GUARD_MV
    if g = old then t
    else (t.setFld o PWR_CLU_VOLTAGE_MV (t.fld o PWR_CLU_VOLTAGE_MV + g - old)).setFld o PWR_CLU_GUARD_MV g

/-- Drop a hint. -/
def State.dropHint (s : State) (h : Hint) : State :=
  { s with pwr := { s.pwr with hints := s.pwr.hints.filter fun x => !(x.ring == h.ring && x.seq == h.seq) } }

/-- A hint's descriptor completes. -/
def State.hintDone (s : State) (h : Hint) (level result ready : Nat) : State :=
  match s.work? h.ring h.seq with
  | some w => s.complete w stDone 0 (hintWords level result ready)
  | none => s

/-- One hint, as things stand: withdrawn when its context is not current or a budget binds, reached at its time. -/
def State.hintStep (s : State) (h : Hint) : State :=
  if !h.reached && (s.work? h.ring h.seq).isNone then s.dropHint h
  else if !(s.hintCurrent h) then
    if h.reached then s.dropHint h else (s.dropHint h).hintDone h 0 2 notReady
  else if s.hintBound h.part then
    if h.reached then (s.dropHint h).addSat PWR_HINTS PWR_HINTS_WITHDRAWN 1 else (s.dropHint h).hintDone h 0 1 notReady
  else if !h.reached && decide (h.readyAt ≤ s.now) then
    let s1 := { s with pwr := { s.pwr with hints := s.pwr.hints.map (fun (x : Hint) =>
      if x.ring == h.ring && x.seq == h.seq then { x with reached := true } else x) } }
    (s1.addSat PWR_HINTS PWR_HINTS_APPLIED 1).hintDone h h.level h.result (h.readyAt - h.at_)
  else s

/-- Every hint, as things stand. -/
def State.refreshHints (s : State) : State := (s.pwr.hints.foldl (fun t h => t.hintStep h) s).setGuards

/-- The highest level of a hint that every rail of the partition can carry within 0.850 V. -/
def State.levelFits (s : State) (p level : Nat) : Nat :=
  ((List.range (level + 1)).filter fun l => (s.partClusters p).all fun c =>
    decide (s.fld (PWR_CLU c) PWR_CLU_VOLTAGE_MV - s.fld (PWR_CLU c) PWR_CLU_GUARD_MV + 20 * l ≤ 850)).foldl max 0

/-- The fields of a HINT body (Table 5). -/
def hintFieldsOk (d : Desc) : Bool :=
  let cancel := decide (dF d 9 1 % 2 = 1)
  decide (dF d 9 1 < 2) && inR 0 1000 (dF d 10 2) && dZero d 16 48 &&
    (if cancel then dZero d 8 1 && dZero d 12 4 else inR 1 3 (dF d 8 1) && inR 1 1000000 (dF d 12 4))

/-- CANCEL withdraws every hint of the ring; one that had not been reached completes as cancelled. -/
def State.cancelHints (s : State) (r : Nat) : State :=
  ((s.pwr.hints.filter fun h => h.ring == r).foldl (fun t h =>
    if h.reached then t.dropHint h else (t.dropHint h).hintDone h 0 5 notReady) s).setGuards

/-- HINT (R295 to R297). With HINT_EN clear every HINT, a CANCEL too, has no effect.
DESIGN CHOICE (notes/assumptions/28.md): a CANCEL completes with the result 5 of what it withdraws. -/
def hintCmd (r : Nat) (s : State) : State :=
  s.withHeadAny r clHint fun f =>
    let d := f.desc
    let c := ringCtxD r
    if !(hintFieldsOk d) then s.reject r f stBadDescriptor
    else if !(s.bit PWR_POLICY PWR_POLICY_HINT_EN) then s.finishNow r f stDone 0 (hintWords 0 4 notReady)
    else if dF d 9 1 % 2 = 1 then (s.cancelHints r).finishNow r f stDone 0 (hintWords 0 5 notReady)
    else match s.partOf c with
      | none => s.finishNow r f stDone 0 (hintWords 0 2 notReady)
      | some p =>
        if (s.part p).current ≠ some c then s.finishNow r f stDone 0 (hintWords 0 2 notReady)
        else if s.hintBound p then s.finishNow r f stDone 0 (hintWords 0 1 notReady)
        else
          let level := s.levelFits p (dF d 8 1)
          if level = 0 then s.finishNow r f stDone 0 (hintWords 0 3 notReady)
          else
            let h : Hint := { ring := r, seq := f.seq, ctx := c, part := p, level := level
                              result := if level = dF d 8 1 then 0 else 3, at_ := s.now
                              readyAt := s.now + max (dF d 10 2) (10 * level), endAt := s.now + dF d 10 2 + dF d 12 4 }
            let s1 := ((s.popHead r).addWork (mkWork r f 0 .committing))
            ({ s1 with pwr := { s1.pwr with hints := s1.pwr.hints ++ [h] } }).settle

/-- HINT_EXPIRY (R296): a hint's phase is over. DESIGN CHOICE (notes/assumptions/28.md): one whose phase ends before its band
was reached completes with level 0 and result 0. -/
def hintExpiry (r seq : Nat) (s : State) : State :=
  match s.pwr.hints.find? fun h => h.ring == r && h.seq == seq with
  | some h =>
    if h.endAt ≤ s.now then
      (if h.reached then s.dropHint h else (s.dropHint h).hintDone h 0 0 notReady).setGuards
    else s
  | none => s

/-! ## The applied actions (R287 to R289, R298) -/

/-- The registers that show a cluster's actions. -/
def State.showCluster (s : State) (c : Nat) : State :=
  let o := PWR_CLU c
  let n := s.cluApplied c
  let cap := if s.sentCluster = some c || s.clusterFixed c then 320 else 384 - 8 * min n 28
  (((s.setFld o PWR_CLU_FREQ_CAP cap).setFld o PWR_CLU_PAUSE (n - rungGate)).setFld o PWR_CLU_BINDING
    (reasonMask fun r => s.cluBinds c r)).setBit o PWR_CLU_SENTINEL (s.sentCluster == some c)

/-- Is the work gate closed: by an action on a cluster, or by an orderly shut-down (R305)? -/
def State.gateWanted (s : State) : Bool :=
  s.bit PWR_SHUTDOWN PWR_SHUTDOWN_SHUTTING || (List.range 8).any fun c => decide (rungGate ≤ s.cluApplied c)

/-- A change of PWR_THROTTLE_REASON is a THROTTLE event (R378). -/
def State.traceThrottle (s : State) (before : W64) : State :=
  let v := s.reg PWR_THROTTLE_REASON
  if v = before then s else s.traceUnit 2 none v.toNat

/-- The actions in force follow the budgets; hints give way to a budget that binds; work that waited at the gate starts
when it opens. -/
def State.applyActions (s : State) : State :=
  let s1 := s.refreshHints
  let s2 := s1.each (List.range 8) fun t c => t.showCluster c
  let s3 := (s2.setBit PWR_STATUS PWR_STATUS_GATE s2.gateWanted).setBit PWR_STATUS PWR_STATUS_PAUSE
    ((List.range 8).any fun c => decide (rungGate < s2.cluApplied c))
  let s4 := (s3.setFld PWR_THROTTLE_REASON PWR_THROTTLE_REASON_BINDING (reasonMask s3.binds)).traceThrottle
    (s.reg PWR_THROTTLE_REASON)
  let s5 := s4.setBit PWR_STATUS PWR_STATUS_PRIMARY_VALID ((List.range 8).any s4.binds)
  (s5.setFld PWR_STATUS PWR_STATUS_PRIMARY ((s5.priority.find? s5.binds).getD 0)).settle

/-- A cluster's clock moves one step toward what its budget and its voltage loop allow; it does not rise above 320 MHz
while a budget binds (R287, R290, R294). -/
def State.stepClock (s : State) (c : Nat) : State :=
  let o := GLB_CLU_FREQ c
  if !(s.isOn (.hub c)) then s
  else if s.sentCluster = some c || s.clusterFixed c then s.setFld o GLB_CLU_FREQ_MHZ nominalMhz
  else
    let f := s.fld o GLB_CLU_FREQ_MHZ
    let top := min (s.fld (PWR_CLU c) PWR_CLU_FREQ_CAP) (tabGetD s.pwr.headroom c nominalMhz)
    if top < f then s.setFld o GLB_CLU_FREQ_MHZ (max top (f - 8))
    else if f < top && (decide (f + 8 ≤ nominalMhz) || s.cluApplied c == 0) then s.setFld o GLB_CLU_FREQ_MHZ (min top (f + 8))
    else s

/-! ## Budgets (R284 to R286) -/

/-- Is a 100 ms budget in force, and what is it in watts? -/
def State.budget (s : State) (inlet : Int) (r : Nat) : Option Nat :=
  if r = rSustained then some 350
  else if r = rCap then
    let cap := s.fld PWR_LIMITS PWR_LIMITS_EXT_CAP
    if cap = 0 then none else some cap
  else if r = rInlet then
    if 55 < inlet then some (max 200 (350 - 15 * (inlet - 55)).toNat) else none
  else if r = rAirflow then
    let af := s.fld PWR_AIRFLOW PWR_AIRFLOW_AF_SLOW
    if s.pwr.airKnown && decide (af < 700) then some (max 150 (af / 2)) else none
  else none

/-- The smallest 100 ms budget in force. -/
def State.smallestBudget (s : State) (inlet : Int) : Nat :=
  (List.range 8).foldl (fun m r => match s.budget inlet r with | some b => min m b | none => m) 350

/-- The last rung that only lowers clocks. -/
def rungClocks : Nat := 28

/-- Does every cluster that a module-level budget slows run at 160 MHz: those ON in ADAPTIVE mode, the Sentinel's apart? -/
def State.atBottom (s : State) : Bool :=
  (List.range 8).all fun c => s.sentCluster == some c || s.clusterFixed c || !(s.isOn (.hub c)) ||
    decide (s.fld (GLB_CLU_FREQ c) GLB_CLU_FREQ_MHZ ≤ 160)

/-- A 100 ms reason's own rung: what the limiter computed, and never less than what it computed for a larger budget, since
a smaller one over the same window requires at least as restrictive an action and an equal one the same (R298). Outside the
fast path the gate closes only once every affected cluster has come down to 160 MHz (R287). -/
def State.budgetRung (s : State) (m : PowerMeas) (r : Nat) : Nat :=
  match s.budget m.tInlet r with
  | none => 0
  | some b =>
    let n := (List.range 8).foldl (fun x q => match s.budget m.tInlet q with
      | some b2 => if b ≤ b2 then max x (min rungFloor (m.rungs.getD q 0)) else x
      | none => x) 0
    if s.atBottom then n else min n rungClocks

/-- A signed temperature as its 8-bit field. -/
def temp8 (t : Int) : Nat := (t % 256).toNat

/-- Energy of the last `n` microseconds, in units of 10 pJ. -/
def energyOf (l : List (Nat × Nat)) (n : Nat) : Nat := ((l.take n).map fun e => e.1 * e.2).sum

/-- Energy of the last `n` microseconds, in µJ. -/
def energyUJ (l : List (Nat × Nat)) (n : Nat) : Nat := energyOf l n / 100000

/-- Mean power over the last `n` microseconds, in units of 0.1 W. Before `n` readings it is the mean of those there are. -/
def meanPower (l : List (Nat × Nat)) (n : Nat) : Nat := energyOf l n / max 1 (l.take n).length / 10000

/-- Mean of one reading over the last 10 µs. -/
def mean10 (l : List (Nat × Nat)) (p : Nat × Nat → Nat) : Nat := ((l.take 10).map p).sum / max 1 (l.take 10).length

/-- The readings of a microsecond enter the windows of R283; the last reading at or below 65 °C, and the last below 41.0 V,
are kept (R302, R306). -/
def State.takeSample (s : State) (m : PowerMeas) : State :=
  { s with pwr := { s.pwr with
    samples := ((m.voltage10mV, m.currentMA) :: s.pwr.samples).take 100000
    inletHot := decide (65 < m.tInlet)
    inletOkAt := if 65 < m.tInlet then s.pwr.inletOkAt else s.now
    lowAt := if m.voltage10mV < 4100 then s.now else s.pwr.lowAt } }

/-- The readings of a microsecond (R283). -/
def State.showPower (s0 : State) (m : PowerMeas) : State :=
  let s := s0.takeSample m
  let l := s.pwr.samples
  let s1 := (s.setFld PWR_INPUT PWR_INPUT_VOLTAGE (mean10 l (·.1))).setFld PWR_INPUT PWR_INPUT_CURRENT (mean10 l (·.2))
  let s2 := (s1.setFld PWR_POWER PWR_POWER_P_1MS (meanPower l 1000)).setFld PWR_POWER PWR_POWER_P_100MS (meanPower l 100000)
  let s3 := (((s2.setFld PWR_TEMPS PWR_TEMPS_TJ_MAX (temp8 m.tjMax)).setFld PWR_TEMPS PWR_TEMPS_INLET (temp8 m.tInlet)).setFld
    PWR_TEMPS PWR_TEMPS_OUTLET (temp8 m.tOutlet)).setFld PWR_TEMPS PWR_TEMPS_FIN (temp8 m.tFin)
  let s4 := s3.each (List.range 8) fun t c => t.setFld (PWR_CLU c) PWR_CLU_TJ (m.tj.getD c 0)
  let s5 := s4.sample 0x07 0 0 (m.voltage10mV * m.currentMA / 10000)
  if s5.now % 100 = 0 then s5.sample 0x08 0 0 m.tjMax.toNat else s5

/-- Is a reason active (R298): its own action on a cluster is more restrictive than none, or the limiter finds that it would
be against the unthrottled demand? -/
def State.isActive (s : State) (demand : List Nat) (r : Nat) : Bool :=
  s.binds r || ((List.range 8).any fun c => decide (s.cluRung c r ≠ 0)) || (demand.contains r && decide (r < 8))

/-- The counters of a microsecond (R298): binding reasons, the total, and the reasons seen. -/
def State.countThrottle (s : State) (active : List Nat) : State :=
  let b := reasonMask s.binds
  let s1 := s.each (List.range 8) fun t r => if s.binds r then t.addSat (PWR_THROTTLE_US r) PWR_THROTTLE_US_MICROSECONDS 1 else t
  let s2 := if b = 0 then s1 else
    (s1.addSat PWR_THROTTLE_TOTAL_US PWR_THROTTLE_TOTAL_US_MICROSECONDS 1).count 0x39 0 0 1
  let seen := BitVec.ofNat 8 (s2.fld PWR_THROTTLE_SEEN PWR_THROTTLE_SEEN_SEEN) ||| BitVec.ofNat 8 b
  ((s2.setFld PWR_THROTTLE_SEEN PWR_THROTTLE_SEEN_SEEN seen.toNat).setFld PWR_THROTTLE_REASON PWR_THROTTLE_REASON_ACTIVE
    (reasonMask (s.isActive active))).traceThrottle (s.reg PWR_THROTTLE_REASON)

/-- POWER_SAMPLE (R283, R286, R287, R298): one microsecond of the limiter. -/
def powerSample (m : PowerMeas) (s : State) : State :=
  let s1 := s.showPower m
  let s2 := s1.setFld PWR_LIMITS PWR_LIMITS_BUDGET (s1.smallestBudget m.tInlet)
  let peak := min rungFloor (m.rungs.getD rPeak 0)
  let own := fun r : Nat => if r = rPeak then (if s2.pwr.peakOver then max peak (tabGetD s2.pwr.rungs rPeak 0) else peak)
    else s2.budgetRung m r
  let tab : Tab Nat := [(1, own 1), (2, own 2), (3, own 3), (4, own 4), (7, own 7)]
  let hold := s2.bit PWR_STATUS PWR_STATUS_SUPPLY_HOLD
  let s3 := { s2 with pwr := { s2.pwr with
    rungs := tab
    holdMin := if hold then min s2.pwr.holdMin m.voltage10mV else s2.pwr.holdMin } }
  let s4 := (s3.applyActions).each (List.range 8) fun t c => t.stepClock c
  let s5 := s4.countThrottle m.active
  { s5 with pwr := { s5.pwr with
    gateUs := s5.pwr.gateUs + (if s5.gateClosed then 1 else 0)
    stretched := [] } }

/-- PEAK_PROJECTION (R286): the energy of the last 990 µs and the worst draw of the next 10 µs. Beyond 97 % of 450 mJ the
actions are tightened; how far is the limiter's choice. -/
def peakProjection (worstUJ : Nat) (s : State) : State :=
  if 436500 < energyUJ s.pwr.samples 990 + worstUJ then
    let now := (List.range 8).foldl (fun m c => max m (s.cluApplied c)) 0
    let n := min rungFloor (now + 1 + s.freeWord.toNat % (rungFloor - min now 59))
    ({ s.bump with pwr := { s.pwr with peakOver := true, rungs := tabSet s.pwr.rungs rPeak n } }).applyActions
  else { s with pwr := { s.pwr with peakOver := false } }

/-! ## Supply (R306) -/

/-- SUPPLY_WARN: an input below 40.0 V starts the brown-out hold, or is seen during it. -/
def supplyWarn (voltage10mV : Nat) (s : State) : State :=
  if 4000 ≤ voltage10mV then s
  else
    let hold := s.bit PWR_STATUS PWR_STATUS_SUPPLY_HOLD
    let s1 := { s with pwr := { s.pwr with
      holdMin := if hold then min s.pwr.holdMin voltage10mV else voltage10mV
      holdAt := if hold then s.pwr.holdAt else s.now
      lowAt := s.now } }
    (s1.setBit PWR_STATUS PWR_STATUS_SUPPLY_HOLD true).applyActions

/-- The end of a hold: logged with its lowest voltage and its time below 40.0 V, shown in PWR_SUPPLY_LAST, and reported as
the sign of a failing power shelf (R1, R307). -/
def State.endHold (s : State) (micros : Nat) : State :=
  let o := PWR_SUPPLY_LAST
  let s1 := (((s.setFld o PWR_SUPPLY_LAST_MIN_VOLTAGE s.pwr.holdMin).addSat o PWR_SUPPLY_LAST_COUNT 1).setFld o
    PWR_SUPPLY_LAST_DURATION_US (min 0xFFFFFFFF micros)).setBit PWR_STATUS PWR_STATUS_SUPPLY_HOLD false
  s1.report evSupplyHold (s.pwr.holdMin * 2 ^ 32 + min 0xFFFFFFFF micros)

/-- HOLD_RELEASE: the input has stayed at or above 41.0 V for 1 ms, after `micros` below 40.0 V. -/
def holdRelease (voltage10mV micros : Nat) (s : State) : State :=
  if s.bit PWR_STATUS PWR_STATUS_SUPPLY_HOLD && decide (4100 ≤ voltage10mV) && decide (s.pwr.lowAt + 1000 ≤ s.now) then
    (s.endHold micros).applyActions
  else s

/-! ## Temperature (R300) -/

/-- The first rung below a cluster's headroom frequency. -/
def State.tjFirst (s : State) (c : Nat) : Nat :=
  if s.clusterFixed c then rungGate else (384 - tabGetD s.pwr.headroom c nominalMhz) / 8 + 1

/-- Is a step due: one down each 100 µs at 95 °C or more, one back each 1 ms at 93 °C or less (R300)? -/
def State.tjDue (s : State) (c temp : Nat) : Bool :=
  match tabGet? s.pwr.tjAt c with
  | none => decide (95 ≤ temp) || decide (temp ≤ 93)
  | some t => (decide (95 ≤ temp) && decide (t + 100 ≤ s.now)) || (decide (temp ≤ 93) && decide (t + 1000 ≤ s.now))

/-- TJ_HIGH_STEP: one step down the ladder at 95 °C or more, one step back at 93 °C or less. Cluster 8 stands for the
memory-channel and host-complex sensors, which act on every cluster. -/
def tjHighStep (c temp : Nat) (s : State) : State :=
  if 8 < c || s.sentCluster = some c || !(s.tjDue c temp) then s
  else
    let n := tabGetD s.pwr.tjRungs c 0
    let n1 :=
      if 95 ≤ temp then (if n = 0 then s.tjFirst c else if s.clusterFixed c && decide (n < rungGate) then rungGate else min rungFloor (n + 1))
      else if n ≤ s.tjFirst c then 0 else n - 1
    ({ s with pwr := { s.pwr with
      tjRungs := tabSet s.pwr.tjRungs c n1
      tjAt := tabSet s.pwr.tjAt c s.now } }).applyActions

/-! ## Airflow (R303, R304) -/

/-- Mean of readings. -/
def meanInt (l : List Int) : Int := if l = [] then 0 else l.foldl (· + ·) 0 / (l.length : Int)

/-- Readings between −40 °C and 150 °C. -/
def validTemps (l : List Int) : List Int := l.filter fun x => decide (-40000 ≤ x) && decide (x ≤ 150000)

/-- The outlet readings that count: valid, and not more than 3 K below the inlet. -/
def validOutlets (a : AirFacts) : List Int :=
  (validTemps a.outlet).filter fun x => decide (meanInt (validTemps a.inlet) - 3000 ≤ x)

/-- The numerator and the denominator of r_est: the rise of the fins over the air in 0.001 K, and q in mW. -/
def riseOf (a : AirFacts) : Int := meanInt (validTemps a.fin) - (meanInt (validTemps a.inlet) + meanInt (validOutlets a)) / 2
def heatOf (a : AirFacts) : Int :=
  a.power1s - Config.cHs * (meanInt (validTemps a.fin) - meanInt (validTemps a.finBefore)) / 1000

/-- Is the estimate degraded: no valid inlet or outlet sensor, or fewer than two valid fin sensors? -/
def airFault (a : AirFacts) : Bool :=
  validTemps a.inlet == [] || validOutlets a == [] || decide ((validTemps a.fin).length < 2)

/-- Does a period update r_est: valid readings, and q at least 50 W? -/
def updatesRest (a : AirFacts) : Bool := !(airFault a) && decide (50000 ≤ heatOf a)

/-- r_est of a period in units of 0.0001 K/W. -/
def restOf (a : AirFacts) : Nat := (10000 * riseOf a / heatOf a).toNat

/-- af of a period in units of 0.001: r_ref / r_est within 0 and 4. Where r_est is 0 the quotient is not stated: a free value
(notes/assumptions/28.md). -/
def State.afOf (s : State) (a : AirFacts) : Nat :=
  if riseOf a = 0 then s.freeWord.toNat % 4001 else min 4000 (Config.rRef * heatOf a / (10 * riseOf a)).toNat

/-- The averages after an af in force: AF_FAST over the last 10 s, AF_SLOW with a time constant of 600 s, a sample each
100 ms. DESIGN CHOICE (notes/assumptions/28.md): the exponential mean starts at the first af and moves by 1/6000 of the
difference each sample; AF_FAST is the mean of the samples there are. -/
def Pwr.takeAf (p : Pwr) (af : Nat) : Pwr :=
  { p with
    af := some af
    afLast := (af :: p.afLast).take 100
    afSlow := if p.af.isNone then af * 1000000 else
      ((p.afSlow : Int) + ((af * 1000000 : Int) - p.afSlow) / 6000).toNat }

/-- The estimate of a period (R303): a new af, or the last one once more; none while the readings are degraded. -/
def State.takeAir (s : State) (a : AirFacts) : State :=
  if updatesRest a then { s.bump with pwr := s.pwr.takeAf (s.afOf a) }
  else if airFault a then s
  else match s.pwr.af with
    | some af => { s with pwr := s.pwr.takeAf af }
    | none => s

/-- AF_FAST and AF_SLOW in units of 0.001; AF_SLOW is taken as 0.69 with degraded readings. -/
def Pwr.afFast (p : Pwr) : Nat := p.afLast.sum / max 1 p.afLast.length
def Pwr.afSlowMilli (p : Pwr) (a : AirFacts) : Nat := if airFault a then 690 else p.afSlow / 1000000

/-- A sudden stop begins: the floor, and the countdown. -/
def State.airStop (s : State) : State :=
  if s.bit PWR_STATUS PWR_STATUS_AIR_STOP then s
  else
    let s1 := s.setBit PWR_STATUS PWR_STATUS_AIR_STOP true
    let s2 := if s1.bit PWR_SHUTDOWN PWR_SHUTDOWN_SHUTTING then s1 else
      { (s1.setBit PWR_SHUTDOWN PWR_SHUTDOWN_PENDING true).setFld PWR_SHUTDOWN PWR_SHUTDOWN_CAUSE 2 with
        pwr := { s1.pwr with stopAt := s1.now + 1000000 * s1.fld PWR_POLICY PWR_POLICY_AIR_STOP_S } }
    s2.report evAirflow 2

/-- A sudden stop ends and its countdown is cancelled. -/
def State.airStopEnds (s : State) : State :=
  let s1 := s.setBit PWR_STATUS PWR_STATUS_AIR_STOP false
  if s1.bit PWR_SHUTDOWN PWR_SHUTDOWN_SHUTTING then s1
  else (s1.setBit PWR_SHUTDOWN PWR_SHUTDOWN_PENDING false).setFld PWR_SHUTDOWN PWR_SHUTDOWN_CAUSE 0

/-- LEFT of a countdown that runs, in units of 10 ms (R304, Table 10). -/
def State.stopLeft (s : State) : Nat :=
  if s.bit PWR_SHUTDOWN PWR_SHUTDOWN_PENDING then (s.pwr.stopAt - s.now + 9999) / 10000 else 0

/-- The registers of an estimate, and since when AF_FAST has been at or above 0.70. -/
def State.showAir (s : State) (a : AirFacts) : State :=
  let fast := s.pwr.afFast
  let s1 := s.setBit PWR_STATUS PWR_STATUS_SENSOR_FAULT (airFault a)
  let s2 := (s1.setFld PWR_AIRFLOW PWR_AIRFLOW_AF_SLOW (s.pwr.afSlowMilli a)).setFld PWR_AIRFLOW PWR_AIRFLOW_AF_FAST fast
  let s3 := s2.setFld PWR_RTH PWR_RTH_R_REF Config.rRef
  let s4 := if updatesRest a then s3.setFld PWR_RTH PWR_RTH_R_EST (min 0xFFFF (restOf a)) else s3
  { s4 with pwr := { s4.pwr with
    airKnown := true
    afOkAt := if 700 ≤ fast then some (s.pwr.afOkAt.getD s.now) else none } }

/-- Has AF_FAST stayed at or above 0.70 for 10 s? -/
def State.airRecovered (s : State) : Bool :=
  match s.pwr.afOkAt with | some t => decide (t + 10000000 ≤ s.now) | none => false

/-- The states of Table 6. Every state but Normal is reported once as it is entered: the sign of a failing fan tray (R1,
R307). AF_FAST counts once there is an af. -/
def State.airStates (s : State) (slow : Nat) (warned lost : Bool) : State :=
  let fast := s.pwr.afFast
  let s1 := if 700 ≤ slow && slow < 850 && !warned then s.report evAirflow 1
    else if slow < 700 && !lost then s.report evAirflow 3 else s
  if s.pwr.af.isSome && (decide (2 * fast < slow) || decide (fast < 300)) then s1.airStop
  else if s1.bit PWR_STATUS PWR_STATUS_AIR_STOP && s1.airRecovered then s1.airStopEnds
  else s1

/-- AIRFLOW_ESTIMATE (R303, R304). -/
def airflowEstimate (a : AirFacts) (s : State) : State :=
  let was := fun n : Nat => s.pwr.airKnown && decide (s.fld PWR_AIRFLOW PWR_AIRFLOW_AF_SLOW < n)
  let s1 := s.takeAir a
  if s1.pwr.af.isNone && !(airFault a) then s1
  else ((s1.showAir a).airStates (s1.pwr.afSlowMilli a) (was 850) (was 700)).applyActions

/-! ## Voltage loops and droop (R292 to R294) -/

/-- The margin class of Table 4. -/
def marginClass (mv : Nat) : Nat := if 60 ≤ mv then 3 else if 40 ≤ mv then 2 else if 20 ≤ mv then 1 else 0

/-- VOLTAGE_LOOP_UPDATE: below 20 mV of margin the rail rises by 5 mV; with 5 mV to spare the loop may lower it. It reports
the clock it has slack for. -/
def voltageLoopUpdate (c marginMV slackMHz : Nat) (s : State) : State :=
  if 8 ≤ c then s
  else
    let o := PWR_CLU c
    let v := max 600 (s.fld o PWR_CLU_VOLTAGE_MV)
    let v1 := if marginMV < 20 then min 850 (v + 5)
      else if 25 ≤ marginMV && Config.freeBool s.free then max 600 (v - 5) else v
    let head := max 160 (min 384 (slackMHz / 8 * 8))
    let s1 := (s.bump.setFld o PWR_CLU_VOLTAGE_MV v1).setFld o PWR_CLU_MARGIN_CLASS (marginClass marginMV)
    ({ s1 with pwr := { s1.pwr with headroom := tabSet s1.pwr.headroom c head } }).sample 0x09 0 c marginMV

/-- DROOP_DETECT: a margin below 8 mV stretches the cluster's clock; the stretched clocks are counted. -/
def droopDetect (c marginMV clocks : Nat) (s : State) : State :=
  if 8 ≤ c || 8 ≤ marginMV || !(s.isOn (.hub c)) then s
  else
    let o := PWR_DROOP c
    let s1 := ((s.addSat o PWR_DROOP_EVENTS 1).addSat o PWR_DROOP_STRETCHED clocks).count 0x38 0 c 1
    { s1 with pwr := { s1.pwr with stretched := if s1.pwr.stretched.contains c then s1.pwr.stretched else c :: s1.pwr.stretched } }

/-! ## The mode (R290, R291, R309) -/

/-- Is any tile of the cluster claimed? -/
def State.cluClaimed (s : State) (c : Nat) : Bool := (clusterTiles c).any fun t => s.bit (TILE_STATUS t) TILE_STATUS_CLAIMED

/-- Every cluster has changed: PENDING clears, and POWER_MODE completes with the mode in force. -/
def State.modeSettled (s : State) : State :=
  let s1 := s.setBit PWR_MODE PWR_MODE_PENDING false
  (s1.hif.works.filter fun w => w.cls == clAdmin && w.op == 0x20).foldl (fun t w =>
    t.complete w stDone 0 (t.fld PWR_MODE PWR_MODE_MODE)) s1

/-- A cluster changes mode; one in FIXED runs at 320 MHz. -/
def State.clusterChanges (s : State) (c : Nat) : State :=
  let s1 := { s with pwr := { s.pwr with toChange := s.pwr.toChange.filter (· != c) } }
  let s2 := (s1.showCluster c).stepClock c
  if s2.pwr.toChange = [] then s2.modeSettled else s2

/-- The change to a mode (R291): clusters with a claim change later; the settings block keeps the mode. -/
def State.startMode (s : State) (mode : Nat) : State :=
  let wants := fun c : Nat => s.clusterFixed c != (mode == 1)
  let later := (List.range 8).filter fun c => wants c && s.cluClaimed c && s.sentCluster != some c
  let s1 := (s.setFld PWR_MODE PWR_MODE_MODE mode).setBit PWR_MODE PWR_MODE_PENDING true
  let s2 := { s1 with pwr := { s1.pwr with toChange := later } }
  let s3 := (s2.changeSettings fun r => { r with mode := mode }).applyActions.each (List.range 8) fun t c => t.stepClock c
  if later = [] then s3.modeSettled else s3

/-- MODE_CHANGE_CLUSTER (R291): no tile of the cluster is claimed any more. -/
def modeChangeCluster (c : Nat) (s : State) : State :=
  if s.pwr.toChange.contains c && !(s.cluClaimed c) then (s.clusterChanges c).applyActions else s

/-- POWER_MODE (R309). -/
def powerMode (r : Nat) (s : State) : State :=
  s.withAdmin r 0x20 (onMgmt r) fun f =>
    let d := f.desc
    if !(decide (dF d 9 1 < 2) && dZero d 10 54) then s.reject r f stBadDescriptor
    else (((s.popHead r).addWork (mkWork r f 0x20 .committing)).startMode (dF d 9 1)).settle

/-! ## Energy (R308, R309) -/

/-- Energy of a partition in a millisecond: an undefined partition has no clusters and takes none. -/
def State.partShare (s : State) (parts : List Nat) (p : Nat) : Nat := if (s.part p).clusters = 0 then 0 else parts.getD p 0

/-- Energy of a context's clusters in a millisecond: the shares of the partitions on which it is current (R308). -/
def State.ctxShare (s : State) (parts : List Nat) (c : Nat) : Nat :=
  ((List.range 8).map fun p => if (s.part p).current = some c then s.partShare parts p else 0).sum

/-- ENERGY_ACCUMULATE: one millisecond's input energy, divided. `parts` are the estimated shares of the partitions, and
`ctxs` what each context takes of the shared energy; estimates that exceed the total are no estimates of it. -/
def energyAccumulate (parts ctxs : List Nat) (s : State) : State :=
  let total := energyUJ s.pwr.samples 1000
  let inParts := ((List.range 8).map (s.partShare parts)).sum
  let shared := ((List.range 32).map fun c => ctxs.getD c 0).sum
  if total < inParts || total - inParts < shared then s
  else
    let s1 := s.addWrap PWR_TOTAL_ENERGY ⟨63, 0⟩ total
    let s2 := s1.each (List.range 8) fun t p => t.addWrap (PWR_PART_ENERGY p) ⟨63, 0⟩ (s.partShare parts p)
    let s3 := s2.addWrap PWR_SHARED_ENERGY ⟨63, 0⟩ (total - inParts)
    let s4 := s3.each (List.range 32) fun t c => t.addWrap (PWR_CTX_ENERGY c) ⟨63, 0⟩ (s.ctxShare parts c + ctxs.getD c 0)
    { s4 with pwr := { s4.pwr with energyAt := s.now } }

/-- The 344 bytes of an ENERGY_SNAPSHOT: the counters as of the last 1 ms boundary. -/
def State.energyBytes (s : State) : List Byte :=
  leBytes 8 s.pwr.energyAt ++ leBytes 8 (s.reg PWR_TOTAL_ENERGY).toNat ++ leBytes 8 (s.reg PWR_SHARED_ENERGY).toNat ++
    ((List.range 8).flatMap fun p => leBytes 8 (s.reg (PWR_PART_ENERGY p)).toNat) ++
    (List.range 32).flatMap fun c => leBytes 8 (s.reg (PWR_CTX_ENERGY c)).toNat

/-- ENERGY_SNAPSHOT (R309). -/
def energySnapshot (r : Nat) (s : State) : State :=
  s.withAdmin r 0x21 (onMgmt r) fun f =>
    let d := f.desc
    if !(dZero d 9 39 && decide (dF d 48 8 % 64 = 0) && dZero d 60 4) then s.reject r f stBadDescriptor
    else if dF d 56 4 < 344 then s.finishNow r f stLengthLimit 0 344
    else (s.hostWrite (s.servingFn r) (dF d 48 8) s.energyBytes).finishNow r f stDone 0 344

end Sys2Proof.Machine
end

