-- ==== Sys2Proof/Machine/Roles.lean ====
section
/-! DEFINITION. Roles, claims and epochs of a module and of a hot-standby pair, and the heartbeat it sends (Olper Links,
Cascades and Hot-Standby Pairs, R325 to R329, R333, R336, R340). -/

namespace Sys2Proof.Machine

/-- Is the module paired? -/
def State.paired (s : State) : Bool := s.bit OLP_PAIR OLP_PAIR_PAIRED

/-- Causes of OLP_SWITCH_LAST (Table 12). -/
def causeLost : Nat := 1
def causeLeaving : Nat := 2
def causeRevert : Nat := 3
def causePeriodic : Nat := 4
def causeRoleSwap : Nat := 5
def causeClaim : Nat := 6
def causeIsolate : Nat := 7
def causeUe : Nat := 8
def causeShutdown : Nat := 9
def causeLatch : Nat := 10
def causePcie : Nat := 11
def causeCascade : Nat := 12
def causeLower : Nat := 13
def causePairConfig : Nat := 14
def causeRejoin : Nat := 15

/-! ## The Verdict Port's state (R327, R330) -/

/-- Does the module transmit frames (VRD_STATUS.TX_ON)? A Cast freeze stops the port (R379). -/
def State.txOn (s : State) : Bool :=
  s.aon.core && s.vrd.open_ && !s.aon.cast.frozen &&
    ((s.role == roleSolo && !s.vrd.silent) || s.role == roleActive || s.role == roleSwapping)

/-- Channels that are resynchronised: enabled, in ALARM, TRIP or NO_DATA, ascending. -/
def State.resyncChans (s : State) : List Nat :=
  (s.stn.chans.filter fun e => e.2.enabled && (e.2.verdict == vAlarm || e.2.verdict == vTrip || e.2.verdict == vNoData)).map (·.1)

/-- The module's claim (R325): PREFERENCE is 0 while it is unpaired. -/
def State.claim (s : State) : Nat := s.fld OLP_CLAIM OLP_CLAIM_EPOCH * 256 + s.fld OLP_CLAIM OLP_CLAIM_PREFERENCE

/-- Frames go on at the present claim as a new one: a CLAIM frame with FRAME_NO 0, then RESYNC frames (R330). -/
def State.newClaim (s : State) : State :=
  let s1 := s.setFld VRD_CLAIM VRD_CLAIM_CLAIM s.claim
  { s1 with vrd := { s1.vrd with claimDue := true, resync := s1.resyncChans, frameNo := 0 } }

/-! ## Epochs (R326) -/

/-- The largest epoch. -/
def epochTop : Nat := 0xFFFFFF

/-- The highest epoch seen, kept in the settings block. -/
def State.setSeen (s : State) (e : Nat) : State :=
  ({ s with pair := { s.pair with seen := e } }).changeSettings fun r => { r with epoch := e }

/-- The claim takes the highest epoch seen and the preference in force. -/
def State.setClaim (s : State) : State :=
  (s.setFld OLP_CLAIM OLP_CLAIM_EPOCH s.pair.seen).setFld OLP_CLAIM OLP_CLAIM_PREFERENCE
    (if s.paired then s.fld OLP_PAIR OLP_PAIR_PREFERENCE else 0)

/-- EPOCH becomes the highest seen plus 1; at 0xFF_FFFF it stays and EPOCH_HIGH sets. -/
def State.raiseEpoch (s : State) : State :=
  if s.pair.seen < epochTop then (s.setSeen (s.pair.seen + 1)).setClaim
  else (s.setBit OLP_PAIR OLP_PAIR_EPOCH_HIGH true).setClaim

/-! ## Changes of role (R327, R328, R336) -/

/-- Work that the role gate concerns. -/
def State.isGated (s : State) (w : Work) : Bool := gatedClass w.cls && s.sentCtx != some w.ctx

/-- Does gated work run? -/
def State.gatedRuns (s : State) : Bool :=
  s.bit OLP_PAIR OLP_PAIR_ROLE_GATE && s.hif.works.any fun w => s.isGated w && (w.phase != .waiting || (w.claims && w.stage != .claimWait))

/-- On leaving ACTIVE: gated work stops when ROLE_GATE is set, and a cascade's XMOD kernels stop. -/
def State.leaveActive (s : State) : State :=
  let s1 := if s.bit OLP_PAIR OLP_PAIR_ROLE_GATE then s.stopAll s.isGated stFailedOver else s
  if 2 ≤ s1.fld OLP_CASCADE OLP_CASCADE_SIZE then s1.stopAll (fun w => w.kern.isSome && kXmod w.desc) stFailedOver else s1

/-- On entering ISOLATED: work that runs in no such role stops, and so does the Sentinel (R190, R328). -/
def State.enterIsolated (s : State) : State :=
  (s.stopAll (fun w => gatedClass w.cls || isolatedClass w.cls) stFailedOver).stopSentinel

/-- The word of OLP_SWITCH_LAST for a change, GAP 0. -/
def switchWord (old new cause : Nat) : W64 :=
  putBits (putBits (putBits 0 OLP_SWITCH_LAST_FROM old) OLP_SWITCH_LAST_TO new) OLP_SWITCH_LAST_CAUSE cause

/-- A change of role: counted, shown with its cause, and reported. `gapFrom` is the reference of a GAP that the first frame
at a new claim will measure; the histogram takes its sample then. -/
def State.setRole (s : State) (new cause : Nat) (gapFrom : Option Nat) : State :=
  let old := s.role
  if new = old then s
  else
    let s1 := ((s.setFld OLP_ROLE OLP_ROLE_ROLE new).addSat OLP_ROLE OLP_ROLE_SWITCHES 1).setReg OLP_SWITCH_LAST
      (switchWord old new cause)
    let s2 := { s1.setBit OLP_ROLE OLP_ROLE_SWAP_DUE false with
      pair := { s1.pair with changedAt := s1.now, ask := false }
      vrd := { s1.vrd with gapFrom := gapFrom } }
    let s3 := ((if gapFrom.isNone then s2.sample 0x0A 0 0 0 else s2).traceUnit 3 none (old + 2 ^ 8 * new + 2 ^ 16 * cause)).report evRole (old * 2 ^ 16 + new * 2 ^ 8 + cause)
    let s4 := if old = roleActive then s3.leaveActive else s3
    let s5 := if new = roleIsolated then s4.enterIsolated else if old = roleIsolated then s4.startServing else s4
    s5.updateLines

/-- The module takes SOLO, or resumes its frames as SOLO, with its epoch raised (R326, R335). -/
def State.takeSolo (s : State) (cause : Nat) : State :=
  ((({ s with vrd := { s.vrd with silent := false } }).setRole roleSolo cause none).raiseEpoch).newClaim

/-! ## HEALTH_OK (R333) -/

/-- CONFIG_DIGEST: over the channel table, zero where no entry is configured, and the digests of the loaded models. -/
def State.configDigest (s : State) : W64 :=
  BitVec.ofNat 64 (leNat (shakeBytes (((List.range 4096).flatMap fun n =>
    let e := (s.chan n).entry
    if e = [] then leBytes 320 0 else e) ++ s.stn.models.flatMap fun m => leBytes 64 m.2.digest.toNat) 8))

/-- Has `t` been less than `n` microseconds ago? -/
def State.recent (s : State) (t : Option Nat) (n : Nat) : Bool :=
  match t with
  | some x => decide (s.now < x + n)
  | none => false

/-- HEALTH_OK. -/
def State.healthOk (s : State) : Bool :=
  s.portState 0 == portUp && s.stnRunning &&
  (match s.pair.partner with | some h => h.config == s.configDigest | none => false) &&
  !(s.recent s.stn.mismatchAt 10000000) && !(s.binds rSupply) && !(s.bit PWR_STATUS PWR_STATUS_AIR_STOP) &&
  !(s.recent s.pair.ueAt 3600000000)

/-- Is the partner up and in a role? -/
def State.partnerIn (s : State) (role : Nat) : Bool :=
  s.bit OLP_ROLE OLP_ROLE_PARTNER_UP && match s.pair.partner with | some h => h.role == role | none => false

/-! ## Heartbeats (R329, Table 9) -/

/-- The flags of a heartbeat. -/
def State.hbFlags (s : State) : Nat :=
  (if s.healthOk then 1 else 0) + (if s.pair.leaving.isSome then 2 else 0) +
    (if s.role == roleSwapping || s.pair.ask then 4 else 0) + (if s.pair.takeover then 8 else 0) +
    (if s.bit OLP_ERR_STATUS OLP_ERR_STATUS_SPLIT_SEEN then 16 else 0)

/-- The payload of a heartbeat with given flags. -/
def State.hbPayload (s : State) (flags : Nat) : List Byte :=
  leBytes 4 s.claim ++ leBytes 1 s.role ++ leBytes 1 flags ++ leBytes 2 s.pair.hbNo ++ leBytes 8 s.configDigest.toNat ++
    leBytes 4 (s.fld STN_WINDOWS STN_WINDOWS_COUNT)

/-- A paired module that is ACTIVE, STANDBY or SWAPPING sends heartbeats while P0 is UP. -/
def State.sendHeartbeat (s : State) : State :=
  if s.paired && (s.role == roleActive || s.role == roleStandby || s.role == roleSwapping) && s.portState 0 == portUp then
    let f : LinkFrame := { ftype := 0x10, vc := 0, addr := 0, payload := (s.hbPayload s.hbFlags) }
    ({ s with pair := { s.pair with hbNo := (s.pair.hbNo + 1) % 65536 } }).sendFrame 0 f
  else s

/-! ## Taking ACTIVE (R326, R333, R334, R336) -/

/-- The TAKEOVER flag on the ring of a cascade. -/
def State.flagCascade (s : State) : State :=
  if s.fld OLP_CASCADE OLP_CASCADE_SIZE < 2 then s
  else s.each [1, 2] fun t p => t.sendFrame p { ftype := 0x10, vc := 0, addr := 0, payload := (t.hbPayload 8) }

/-- The module takes ACTIVE: the epoch is raised, the role gate opens, frames go on at the new claim, and TAKEOVER is sent.
At the largest epoch it refuses and sets EPOCH_HIGH. -/
def State.takeActive (s : State) (cause : Nat) : State :=
  if epochTop ≤ s.pair.seen then s.setBit OLP_PAIR OLP_PAIR_EPOCH_HIGH true
  else
    let s1 := ((s.raiseEpoch).setRole roleActive cause (some s.now)).newClaim
    (({ s1 with pair := { s1.pair with ask := false, takeover := true } }).sendHeartbeat).flagCascade

/-- A STANDBY module takes over, unless the partner is refused (R325, R334). -/
def State.takeover (s : State) (cause : Nat) : State :=
  if s.role = roleStandby && !s.pair.refused then s.takeActive cause else s

end Sys2Proof.Machine
end

