-- ==== Sys2Proof/Machine/Scrubs.lean ====
section
/-! DEFINITION. What a link loss, a function-level reset and a change of serving function do to rings, functions and
contexts (Host Interface, Command Rings and Completions, R235 to R237; Contexts, Keys and the Provenance Report, R275). -/

namespace Sys2Proof.Machine

/-! ## A scrub of one context -/

/-- A scrub with what it does to the Verdict Port of a SOLO module: with the Sentinel context scrubbed, its frames stop
(R190, R335). -/
def State.scrubNow (s : State) (c : Nat) (record : Bool) : State :=
  let s1 := if s.sentCtx = some c && s.role = roleSolo then { s with vrd := { s.vrd with silent := true } } else s
  (s1.scrub c record).applyActions

/-- Complete a CTX_SCRUB: with the class words of R275, or with ACCESS_DENIED where the random source failed (R274). -/
def State.scrubDone (s : State) (r seq words : Nat) : State :=
  match s.work? r seq with
  | some w => if s.rngOk then s.complete w stDone 0 words else s.complete w stAccessDenied 0 0
  | none => s

/-- A scrub that has waited for the Sentinel's handover runs, and its CTX_SCRUB completes. -/
def State.runHeld (s : State) (h : HeldScrub) : State :=
  let words := s.scrubWords h.ctx
  let s1 := s.scrubNow h.ctx h.record
  match h.work with
  | some d => s1.scrubDone d.1 d.2 words
  | none => s1

/-- A scrub of a context is held, step 1 apart: its rings stop at once. -/
def State.holdScrub (s : State) (h : HeldScrub) : State :=
  let s1 := s.scrubRings h.ctx h.record
  { s1 with pair := { s1.pair with held := s1.pair.held ++ [h] } }

/-- Must the verdicts be handed over before a scrub of the context (R190, R335)? -/
def State.handsOver (s : State) (c : Nat) : Bool :=
  s.sentCtx == some c && s.paired && (s.role == roleActive || s.role == roleSwapping)

/-! ## Functions (R235, R236) -/

/-- Configuration space and MSI-X state of functions go back to their reset values. -/
def State.clearMsix (s : State) (p : Nat → Bool) : State :=
  { s with hif := { s.hif with
      cfg := s.hif.cfg.filter fun x => !(p (x.1 / 0x1000))
      msix := s.hif.msix.filter fun x => !(p (x.1 / 0x2000))
      unmasked := s.hif.unmasked.filter fun x => !(p x.1)
      msixPending := s.hif.msixPending.filter fun x => !(p x.1) } }

/-- The number of VFs that serve contexts. -/
def State.numVf (s : State) : Nat := s.fld HIF_STATUS HIF_STATUS_NUM_VF

/-- HIF registers with RW fields or RW1C bits go back to their reset values (R236); HIF_CTRL is RWL, and the others are
RO. -/
def State.clearHif (s : State) : State :=
  let s1 := ((s.clearReg HIF_ERR_STATUS).clearReg HIF_MGMT_SQ).clearReg HIF_MGMT_CQ
  s1.each (List.range 32) fun t c => ((((t.clearReg (HIF_VERSION_SELECT c)).clearReg (HIF_CTX_SQ0 c)).clearReg
    (HIF_CTX_CQ0 c)).clearReg (HIF_CTX_ERR_STATUS c))

/-- The management ring is disabled; its work stops, and no record is written. -/
def State.dropMgmtRing (s : State) : State :=
  let s1 := s.setRing mgmtRing { s.ring mgmtRing with closing := true, queue := [], early := [], mute := true }
  (s1.stopAll (fun w => w.ring == mgmtRing) stContextScrubbed).setRing mgmtRing {}

/-! ## The data link (R237) -/

/-- The link is gone: READY and what the link trained at clear; no record is written any more, all admitted work stops, and
every ring is disabled. -/
def State.linkGone (s : State) : State :=
  let o := HIF_STATUS
  let s1 := ((((s.setBit o HIF_STATUS_READY false).setBit o HIF_STATUS_LINK_UP false).setBit o HIF_STATUS_NARROW false).setFld o
    HIF_STATUS_WIDTH 0).setFld o HIF_STATUS_SPEED 0
  let s2 := s1.hifErr HIF_ERR_STATUS_LINK_DOWN 0
  let s3 := s2.each (s2.hif.rings.map (·.1)) fun t r =>
    t.setRing r { t.ring r with closing := true, queue := [], early := [], mute := true, deleting := none }
  let s4 := s3.stopAll (fun _ => true) stContextScrubbed
  { s4 with hif := { s4.hif with
      rings := []
      works := [] } }

/-- Every context is scrubbed without records, but for one that is held. -/
def State.scrubOthers (s : State) : State :=
  s.each ((List.range 32).filter fun c => !(s.pair.held.any fun h => h.ctx == c)) fun t c => t.scrubNow c false

end Sys2Proof.Machine
end

