-- ==== Sys2Proof/Machine/Start.lean ====
section
/-! DEFINITION. Resets, the start of the always-on domain and the start sequence up to DDR4 training (Module and Die
Organisation, R12, R20, R22; Start-up, Firmware Update and Cabinet Management, R343 to R347, R355, R361, R400; Electrical,
Optical and Mechanical Characteristics, R386, R390). -/

namespace Sys2Proof.Machine

/-! ## Phases and failure codes (Tables 3 and 19) -/

def phAonStart : Nat := 0
def phWaitPermit : Nat := 1
def phStarting : Nat := 2
def phReady : Nat := 3
def phShutdown : Nat := 4
def phRecovery : Nat := 5
def phFailed : Nat := 6

def sfHoldupLow : Nat := 1
def sfLoaderBad : Nat := 2
def sfImageBad : Nat := 3
def sfFuseInvalid : Nat := 4
def sfSecSelftest : Nat := 5
def sfCertMismatch : Nat := 6
def sfDdrTrain : Nat := 7
def sfSelftest : Nat := 8
def sfLinkNarrow : Nat := 9

def State.phase (s : State) : Nat := s.fld MGT_STATE MGT_STATE_PHASE
def State.setPhase (s : State) (p : Nat) : State := s.setFld MGT_STATE MGT_STATE_PHASE p
def State.setStartFail (s : State) (c : Nat) : State := s.setFld MGT_STATE MGT_STATE_START_FAIL c

/-! ## Resets (R12, R22) -/

/-- Does a register stand in a block that the always-on domain serves (Table 8 of Module and Die Organisation)? -/
def aonBlock (off : Nat) : Bool :=
  decide (off < 0x10000) || inR 0x30000 0x3FFFF off || inR 0x60000 0x6FFFF off || inR 0xB0000 0xBFFFF off

/-- Every switched domain is OFF and what it held is lost; the AON domain goes on. New slot nonces take the place of the
lost ones (R273). -/
def State.switchedReset (s : State) : State :=
  let s1 := s.endInject
  let s2 := { s1 with
    regs := s1.regs.filter fun p => aonBlock p.1
    hif := { perstLow := s1.hif.perstLow }
    sec := { base := s1.nv.draws }
    nv := { s1.nv with draws := s1.nv.draws + 64 }
    mem := {}
    arr := {}
    kv := {}
    vcd := {}
    stn := {}
    vrd := {}
    pair := { seen := s1.pair.seen }
    olp := {}
    mon := {}
    pwr := { s1.pwr with hints := [], toChange := [], stretched := [], tjRungs := [], tjAt := [] }
    aon := { s1.aon with core := false, secDone := false, trained := 0 } }
  let s3 := ((s2.clearReg GLB_PWR_DOMAIN_STATUS0).clearReg GLB_PWR_DOMAIN_STATUS1).clearReg GLB_PWR_DOMAIN_STATUS2
  let s4 := s3.each (List.range 8) fun t c => t.clearReg (GLB_CLU_FREQ c)
  ((s4.setBit PWR_MODE PWR_MODE_PENDING false).updateLines).applyActions

/-- A module reset: the AON rails have left regulation. What is kept is the non-volatile state, the levels of the pins and
what stands outside the module. -/
def State.moduleReset (s : State) : State :=
  { State.reset with
    pending := s.pending
    free := s.free
    nv := { s.nv with draws := s.nv.draws + 64 }
    sec := { base := s.nv.draws }
    aon := { permit := s.aon.permit, latch := s.aon.latch, reserveOk := s.aon.reserveOk }
    hif := { perstLow := s.hif.perstLow }
    merge := s.merge
    out := s.out }

/-- The core rails go: a Tj trip is shown only while it was the last cause. -/
def State.coreOff (s : State) : State :=
  if s.aon.core then (s.switchedReset).setBit PWR_TRIP PWR_TRIP_TRIPPED false else s.switchedReset

/-- An event after which the module acts only on a fresh START_PERMIT (R400); after some, only once a restart condition
holds. -/
def State.askFresh (s : State) (held : Bool) : State := { s with aon := { s.aon with fresh := false, restartHeld := held } }

/-! ## Start failures (R347) -/

/-- A step of the start sequence fails: phase FAILED. -/
def State.startFails (s : State) (code : Nat) : State :=
  (((s.setPhase phFailed).setStartFail code).askFresh false).report evStartFail code

/-- An image fails its boot check: phase RECOVERY, served by the resident loader (R355, R362). -/
def State.imageBad (s : State) : State :=
  let s1 := { s with aon := { s.aon with level := .loader } }
  (((s1.setPhase phRecovery).setStartFail sfImageBad).setFld MGT_UPDATE MGT_UPDATE_STATE 6).report evStartFail sfImageBad

/-! ## The start sequence to step 5 (R274, R281, R346, Table 2) -/

/-- Step 3: the known-answer tests and the health tests of the random source, each shown by itself (R274, Table 7 of
Contexts, Keys and the Provenance Report). -/
def State.securityTests (s : State) (f : StartFacts) : State :=
  let s1 := if f.katOk then s else s.secErr SEC_ERR_STATUS_SELFTEST_FAIL 0
  let s2 := if f.rngOk then s1.setBit SEC_STATUS SEC_STATUS_RNG_OK true else s1.secErr SEC_ERR_STATUS_RNG_FAIL 0
  if f.katOk && f.rngOk then s2.setBit SEC_STATUS SEC_STATUS_READY true else s2

/-- Steps 3 and 4: self-tests, fuses, the certificate, microcode and kernel library. -/
def State.securityStart (s : State) (f : StartFacts) : State :=
  if Config.fuseValid ≠ 0x1F then s.startFails sfFuseInvalid
  else
    let s1 := s.securityTests f
    if !(f.katOk && f.rngOk) then s1.startFails sfSecSelftest
    else if !f.certOk then (s1.report evCertMismatch 0).startFails sfCertMismatch
    else if !f.microcodeOk then s1.imageBad
    else { s1 with aon := { s1.aon with secDone := true } }

/-- Steps 1 to 4: the permit is acted on, the switched rails rise, PD_HCX is ON, and the Security Engine and the Command
Processor start. -/
def State.startSequence (s : State) (f : StartFacts) : State :=
  let s1 := ((s.setPhase phStarting).setStartFail 0).clearReg PWR_SHUTDOWN
  let s2 := ({ s1 with aon := { s1.aon with core := true, secDone := false, trained := 0 } }).powerOn .hcx
  (s2.applyActions).securityStart f

/-- May the module act on START_PERMIT (R345, R390, R400)? -/
def State.mayStart (s : State) : Bool :=
  let a := s.aon
  a.permit && a.latch && a.fresh && !a.restartHeld && a.holdupOk && a.input && !a.slotInvalid && a.level == .pedestal &&
    (s.phase == phWaitPermit || s.phase == phFailed)

/-- Act on START_PERMIT, where that may be. -/
def State.tryStart (s : State) (f : StartFacts) : State := if s.mayStart then s.startSequence f else s

/-- The end of step 5 of Table 1: the hold-up check, and phase WAIT_PERMIT. -/
def State.waitPermit (s : State) (holdupOk : Bool) (f : StartFacts) : State :=
  let s1 := ({ s with aon := { s.aon with holdupOk := holdupOk } }).setPhase phWaitPermit
  if holdupOk then (s1.setStartFail 0).tryStart f
  else (s1.setStartFail sfHoldupLow).report evHoldupLow 0

/-! ## The AON start (R343, R355, R366, R370) -/

/-- The settings in force are read: the valid copy with the higher generation, or the defaults. The cap and the mode that
they hold come into force. -/
def State.loadSettings (s : State) : State :=
  let s1 := match s.nv.copyInForce with
    | some i =>
      let x := s.nv.settingsCopy i
      ((({ s with aon := { s.aon with settings := x.recs, inForce := true } }).setFld MGT_SETTINGS MGT_SETTINGS_VERSION
        x.version).setFld MGT_SETTINGS MGT_SETTINGS_COPY i).setBit MGT_SETTINGS MGT_SETTINGS_DEFAULTED false
    | none => (({ s with aon := { s.aon with settings := {}, inForce := false } }).setBit MGT_SETTINGS MGT_SETTINGS_DEFAULTED
        true).report evSettingsDefaulted 0
  s1.settingsTaken

/-- A little-endian word of bytes. -/
def wordAt (b : List Byte) (i n : Nat) : Nat := leNat ((b.drop i).take n)

/-- The entry of the component of a type in an image's header (Table 10): SVN, bytes and signature. -/
def State.component (s : State) (h : List Byte) (t : Nat) : Option (Nat × List Byte × List Byte) :=
  (([256, 288, 320].find? fun c => wordAt h c 4 == t)).map fun c =>
    (wordAt h (c + 4) 4, s.region (wordAt h (c + 8) 4) (wordAt h (c + 12) 4), s.region (wordAt h (c + 16) 4) 29792)

/-- What the loader finds in the image region (R354, R355). The image of manufacture, whose content the manual does not fix,
is what the start's operand says; an image written here is read from the region's own bytes. The loader's own SVN and digest
are the operand's. -/
def State.imageFacts (s : State) (x : ImageFacts) : ImageFacts :=
  if s.nv.image.length.isNone then x
  else
    let h := s.region 0 4096
    let pk := (h.drop 20).take 64
    let cs := [2, 3, 4].filterMap (s.component h)
    { magicOk := wordAt h 0 4 == 0x5746514B && wordAt h 4 2 == 1
      rootOk := Config.shake256 pk == Config.fwRoot
      componentsOk := cs.length == 3
      signaturesOk := cs.all fun c => Config.slhVerify pk c.2.1 c.2.2
      svns := x.svns.take 1 ++ cs.map (·.1)
      imageId := BitVec.ofNat 32 (wordAt h 8 4)
      settingsVersion := wordAt h 16 2
      digests := x.digests.take 1 ++ cs.map fun c => Config.shake256 c.2.1 }

/-- The SVNs of the image's own components. -/
def imageSvns (x : ImageFacts) : List Nat := (x.svns.drop 1).take 3

/-- The lowest component SVN of an image. -/
def lowestSvn (x : ImageFacts) : Nat :=
  match imageSvns x with
  | [] => 0
  | a :: as => as.foldl min a

/-- Does the loader accept the image (R355)? A region that holds nothing bootable fails. -/
def State.imageOk (s : State) (x : ImageFacts) : Bool :=
  s.nv.image.complete && x.magicOk && x.rootOk && x.componentsOk && x.signaturesOk &&
    (imageSvns x).all fun v => decide (s.minSvn ≤ v)

/-- A commit of FW_ACTIVATE is shown when the armed image runs (R361). -/
def State.showActivated (s : State) (imageId : Nat) : State :=
  match s.nv.activating with
  | some (change, image) =>
    let s1 := { s with nv := { s.nv with activating := none } }
    if image = imageId then
      let s2 := ((s1.setFld MGT_ARM MGT_ARM_CHANGE_ID change).setFld MGT_ARM MGT_ARM_STATE 2).setFld MGT_ARM MGT_ARM_KIND 3
      s2.changeSettings fun r => { r with lastChangeId := change }
    else s1
  | none => s

/-- Pedestal firmware starts: what it writes at step 5 of Table 1. -/
def State.pedestalStarts (s : State) (x : ImageFacts) : State :=
  let id := x.imageId.toNat
  let s1 := ({ s with
    aon := { s.aon with level := .pedestal, fw := x.svns.zip x.digests }
    nv := { s.nv with
      boots := min 65535 (s.nv.boots + 1)
      image := { s.nv.image with imageId := id } } }).loadSettings
  let armed := match s1.nv.activating with | some a => a.2 == id | none => false
  let s2 := { s1 with nv := { s1.nv with
    unarmed := if s1.newFirmware id && !armed then min 65535 (s1.nv.unarmed + 1) else s1.nv.unarmed } }
  let s3 := (((s2.setFld MGT_BOOTS MGT_BOOTS_BOOTS s2.nv.boots).setFld MGT_BOOTS MGT_BOOTS_UNARMED s2.nv.unarmed).setFld MGT_IMAGE
    MGT_IMAGE_IMAGE_ID id).setFld MGT_IMAGE MGT_IMAGE_SVN (lowestSvn x)
  ((s3.setFld MGT_UPDATE MGT_UPDATE_STATE 0).setFld MGT_UPDATE MGT_UPDATE_CHUNKS 0).showActivated id

/-- Steps 4 and 5 of Table 1, the loader's own check apart: the image, Pedestal firmware, the hold-up check. -/
def State.loaderStart (s : State) (a : AonFacts) (f : StartFacts) : State :=
  let s1 := { s with aon := { s.aon with level := .loader } }
  let x := s1.imageFacts a.image
  if s1.imageOk x then (s1.pedestalStarts x).waitPermit a.holdupOk f
  else { s1.imageBad with aon := { s1.imageBad.aon with holdupOk := a.holdupOk } }

/-- A supply event that ended the module's last run, its log entry the newest, is reported once the port serves again (R1). -/
def State.reportSupply (s : State) : State :=
  match s.nv.log.getLast? with
  | some e => if e.code = evSupply || e.code = evOverVoltage then
      { s with aon := { s.aon with events := s.aon.events ++ [(e.code, e.arg)] } } else s
  | none => s

/-- The AON start from step 1 of Table 1. -/
def State.aonStartNow (s : State) (a : AonFacts) (f : StartFacts) : State :=
  let bad := decide (48 ≤ a.slotPins.toNat)
  let s1 := ({ s with aon := { s.aon with
    rails := true
    input := true
    overVoltage := false
    level := .bootRom
    slotInvalid := bad } }).setFld MGT_STATE MGT_STATE_SLOT a.slotPins.toNat
  let s2 := s1.setBit MGT_STATE MGT_STATE_RESERVE_OK s1.aon.reserveOk
  let s3 := (((s2.setReg GLB_KEY_CLASS (Config.keyClass.zeroExtend 64)).setReg GLB_SERIAL Config.serial))
  let s4 := (if bad then s3.report evSlotInvalid a.slotPins.toNat else s3).reportSupply
  if a.loaderOk then s4.loaderStart a f else s4.startFails sfLoaderBad

/-- Does the AON domain not run: it has no power, or a reset that ended a Cast freeze holds it before step 3 of Table 1? -/
def State.aonIdle (s : State) : Bool := !s.aon.rails || s.aon.level == .off

/-- AON_START (R343): the input rises through 38.0 V on a module without AON power, or step 3 follows the reset that ended
a Cast freeze (R379). -/
def aonStart (a : AonFacts) (f : StartFacts) (s : State) : State := if s.aonIdle then s.aonStartNow a f else s

/-- HOLDUP_CHARGED (R343). -/
def holdupCharged (f : StartFacts) (s : State) : State :=
  if !s.aon.rails then s
  else
    let s1 := { s with aon := { s.aon with holdupOk := true } }
    if s1.phase = phWaitPermit && s1.fld MGT_STATE MGT_STATE_START_FAIL = sfHoldupLow then (s1.setStartFail 0).tryStart f else s1

/-- START_PERMIT (R345, R400): a rising edge. -/
def startPermit (f : StartFacts) (s : State) : State :=
  let edge := !s.aon.permit
  let s1 := { s with aon := { s.aon with permit := true, fresh := s.aon.fresh || (edge && s.aon.rails) } }
  s1.tryStart f

/-- LATCH_CLOSED (R345). -/
def latchClosed (f : StartFacts) (s : State) : State := ({ s with aon := { s.aon with latch := true } }).tryStart f

/-- RESTART_CONDITION (R400): the sensors have come down (R301, R302), and after a shut-down no sudden stop is in force
(R305). -/
def restartCondition (f : StartFacts) (s : State) : State :=
  if s.aon.restartHeld && !(s.phase == phShutdown && s.bit PWR_STATUS PWR_STATUS_AIR_STOP) then
    let s1 := { s with aon := { s.aon with restartHeld := false } }
    (if s1.phase = phShutdown then s1.setPhase phWaitPermit else s1).tryStart f
  else s

/-! ## The input (R12, R385, R386) -/

/-- The input falls away: a hold is cut short, every switched rail goes, and the event is logged and reported (R1). Phases of
a module whose loader or image failed stay. -/
def State.inputFalls (s : State) (code : Nat) : State :=
  if !s.aon.rails || !s.aon.input then s
  else
    let s1 := if s.bit PWR_STATUS PWR_STATUS_SUPPLY_HOLD then s.endHold (s.now - s.pwr.holdAt) else s
    let s2 := (s1.coreOff).report code 0
    let s3 := { s2 with aon := { s2.aon with input := false, holdupOk := false, overVoltage := (code == evOverVoltage) } }
    if s3.aon.level == .pedestal then (s3.setPhase phAonStart).setStartFail 0 else s3

/-- INPUT_BELOW_RESET (R12): the input falls below 36.0 V. -/
def inputBelowReset (s : State) : State := s.inputFalls evSupply

/-- INPUT_OVER_VOLTAGE (R386): the input rises through 63.0 V. -/
def inputOverVoltage (s : State) : State := s.inputFalls evOverVoltage

/-- INPUT_RESTORED (R12, R386): with the AON rails in regulation the module resumes at step 5 of Table 1, otherwise at
step 1. A START_PERMIT that is still asserted needs no fresh edge.
DESIGN CHOICE (notes/assumptions/22.md): a restart condition of R400 that an earlier trip or shut-down left unmet still holds
back the permit; R12 and R400 take away only the need for a fresh edge. -/
def inputRestored (a : AonFacts) (f : StartFacts) (s : State) : State :=
  if s.aonIdle then s.aonStartNow a f
  else if s.aon.input then s
  else
    let s1 := { s with aon := { s.aon with input := true, overVoltage := false, fresh := true } }
    if s1.aon.level == .pedestal then s1.waitPermit a.holdupOk f
    else { s1 with aon := { s1.aon with holdupOk := a.holdupOk } }

/-- AON_POWER_LOSS (R22): a module reset. -/
def aonPowerLoss (s : State) : State := if s.aon.rails then s.moduleReset else s

/-! ## Step 5 of Table 2 (R20) -/

/-- A channel trains. Where one of them fails, the step's domains, all twelve channels, stay OFF (R347). -/
def State.trainChannel (s : State) (m : Nat) (ok on full : Bool) (ms : Nat) : State :=
  let o := MEM_STATUS m
  let s1 := if on then s.powerOn (.mem m) else if ok then s else s.report evMemory m
  (((s1.setBit o MEM_STATUS_TRAINED ok).setBit o MEM_STATUS_TRAIN_FAIL (!ok)).setBit o MEM_STATUS_FULL_TRAIN full).setFld o
    MEM_STATUS_TRAIN_MS ms

/-- Is full training run (R20): no results for the running image are stored, or the DRAM devices' temperature, in °C,
differs by more than 40 °C from the stored one? -/
def State.trainsFull (s : State) (temp : Int) : Bool :=
  s.nv.trainedFor != some (s.fld MGT_IMAGE MGT_IMAGE_IMAGE_ID) || decide (40 < (temp - s.nv.trainedTemp).natAbs)

/-- DDR_TRAINING (R20), at a temperature of the DRAM devices. The results of a full training are stored with it. -/
def ddrTraining (ok : BitVec 12) (temp : Int) (ms : BitVec 16) (s : State) : State :=
  if s.phase = phStarting && s.isOn .hcx && s.aon.trained = 0 then
    let full := s.trainsFull temp
    let s1 := s.each (List.range 12) fun t m => t.trainChannel m (ok.getLsbD m) (ok == 0xFFF) full ms.toNat
    let s2 := { s1 with aon := { s1.aon with trained := ok } }
    if ok = 0xFFF then
      (if full then { s2 with nv := { s2.nv with
        trainedFor := some (s.fld MGT_IMAGE MGT_IMAGE_IMAGE_ID)
        trainedTemp := temp } } else s2)
    else s2.startFails sfDdrTrain
  else s

/-! ## The Tj trip (R301) -/

/-- TJ_TRIP: a die sensor reaches 110 °C. -/
def tjTrip (sensor : Nat) (s : State) : State :=
  if !s.aon.rails || 85 ≤ sensor then s
  else
    let s1 := ((s.switchedReset).setBit PWR_TRIP PWR_TRIP_TRIPPED true).setFld PWR_TRIP PWR_TRIP_SENSOR sensor
    let s2 := (if s1.aon.level == .pedestal then (s1.setPhase phWaitPermit).setStartFail 0 else s1).askFresh true
    s2.report evTjTrip sensor

/-! ## The restart of FW_ACTIVATE (R361) -/

/-- Switched domains and the Pedestal controller restart, from step 4 of Table 1. -/
def State.restartNow (s : State) (a : AonFacts) (f : StartFacts) : State :=
  let s1 := { s.coreOff with aon := { s.coreOff.aon with restart := none, flows := [], offer := none, arm := none } }
  let s2 := ((s1.clearReg MGT_ARM).clearReg MGT_ARM_DIGEST).setPhase phAonStart
  if a.loaderOk then s2.loaderStart a f
  else ({ s2 with aon := { s2.aon with level := .bootRom } }).startFails sfLoaderBad

end Sys2Proof.Machine
end

