-- ==== Sys2Proof/Machine/Leave.lean ====
section
/-! DEFINITION. A module about to lose service, the orderly shut-down, the data link, function-level resets and scrubs by
command (Olper Links, Cascades and Hot-Standby Pairs, R335; Power Limits, Droop and Thermal Protection, R302, R304, R305;
Host Interface, Command Rings and Completions, R235 to R237, R259; Contexts, Keys and the Provenance Report, R275). -/

namespace Sys2Proof.Machine

/-! ## Leaving (R335) -/

/-- Is the module ACTIVE, or giving ACTIVE up? -/
def State.servesPair (s : State) : Bool := s.role == roleActive || s.role == roleSwapping

/-- A planned handover is over: its ROLE_SWAP completes with the role in force (R339). -/
def State.clearSwap (s : State) : State :=
  match s.pair.swap with
  | some x =>
    let s1 := { s with pair := { s.pair with swap := none } }
    match x.work with
    | some d =>
      (match s1.work? d.1 d.2 with
      | some w => s1.complete w (if s1.role = roleStandby then stDone else stAccessDenied) 0 s1.role
      | none => s1)
    | none => s1
  | none => s

/-- The lasers go off: every Olper port is OFF. -/
def State.lasersOff (s : State) : State :=
  s.each [0, 1, 2] fun t p => if t.isOn (.port p) then
    let was := t.portState p = portUp
    let t1 := ((t.dropLink p).powerOff (.port p)).setPort p {}
    if was then t1.afterLoss p else t1
  else t

/-- Steps 3 to 5 of the orderly shut-down: all admitted work stops, and every switched domain goes OFF. -/
def State.shutdownTail (s : State) : State :=
  let s1 := (s.stopAll (fun _ => true) stFailedOver).notify evShutdown (s.fld PWR_SHUTDOWN PWR_SHUTDOWN_CAUSE)
  ((s1.coreOff).setPhase phShutdown).askFresh true

/-- Scrubs that waited for the handover run. -/
def State.runHeldAll (s : State) : State :=
  let hs := s.pair.held
  hs.foldl (fun t h => t.runHeld h) { s with pair := { s.pair with held := [] } }

/-- The module stops transmitting, and what it left service for follows. -/
def State.leaveEnd (s : State) : State :=
  match s.pair.leaving with
  | none => s
  | some why =>
    let s1 := { s with pair := { s.pair with leaving := none } }
    match why with
    | .latch =>
      let s2 := { s1 with pair := { s1.pair with swap := none } }
      (((s2.stopAll (fun _ => true) stFailedOver).setRole roleIsolated causeLatch none).lasersOff).runHeldAll
    | .shutdown => (s1.setRole roleIsolated causeShutdown none).shutdownTail
    | .pcie =>
      let s2 := if s1.servesPair then s1.setRole roleStandby causePcie none
        else if s1.role = roleSolo then { s1 with vrd := { s1.vrd with silent := true } } else s1
      (s2.clearSwap).runHeldAll
    | .ue => (((if s1.servesPair then s1.setRole roleStandby causeUe none else s1)).clearSwap).runHeldAll
    | .restart =>
      match s1.aon.restart with
      | some x => s1.restartNow x.1 x.2
      | none => s1

/-- Which reason stands when the module is already leaving: one that ends in a role or a state without service outranks the
others. -/
def leaveWins (old new : LeaveFor) : LeaveFor :=
  match old, new with
  | .shutdown, _ => .shutdown
  | .latch, .shutdown => .shutdown
  | .latch, _ => .latch
  | .restart, .pcie => .restart
  | .restart, .ue => .restart
  | _, y => y

/-- The module sends LEAVING. It goes on transmitting until TAKEOVER or for 500 µs when its partner can take over; for a
tray latch, a shut-down or a link loss without such a partner it stops at once. -/
def State.leave (s : State) (why : LeaveFor) : State :=
  let waits := s.servesPair && (s.partnerIn roleStandby || why == .ue || why == .restart)
  let s1 := { s with pair := { s.pair with
    leaving := some (match s.pair.leaving with | some old => leaveWins old why | none => why)
    leaveAt := if s.pair.leaving.isSome then s.pair.leaveAt else s.now } }
  let s2 := s1.sendHeartbeat
  if waits then s2 else s2.leaveEnd

/-- LEAVING_TIMEOUT (R335): 500 µs without TAKEOVER. -/
def leavingTimeout (s : State) : State :=
  if s.pair.leaving.isSome && decide (s.pair.leaveAt + 500 ≤ s.now) then s.leaveEnd else s

/-! ## UE_FAILOVER (R259) -/

/-- UE_LIMIT was reached: the module gives up ACTIVE; another role is kept. -/
def State.ueFailover (s : State) : State :=
  let s1 := (({ s with pair := { s.pair with ueAt := some s.now } }).hifErr HIF_ERR_STATUS_UE_FAILOVER 0).report evMemory 0x100
  if s1.servesPair then s1.leave .ue else s1

/-- After work that may have met demand errors: was one added, with the limit reached? -/
def State.checkUe (before after : State) : State :=
  if before.hif.ueTimes ≠ after.hif.ueTimes && after.ueLimitReached then after.ueFailover else after

/-! ## Orderly shut-down (R302, R304, R305, R345) -/

/-- Step 1: the work gate closes and SHUTTING sets; then the module takes the ISOLATED role by the path of R335. -/
def State.shutDown (s : State) (cause : Nat) : State :=
  if !s.aon.core || s.bit PWR_SHUTDOWN PWR_SHUTDOWN_SHUTTING then s
  else
    let o := PWR_SHUTDOWN
    let s1 := ((s.setBit o PWR_SHUTDOWN_PENDING false).setFld o PWR_SHUTDOWN_CAUSE cause).setBit o PWR_SHUTDOWN_SHUTTING true
    ((s1.log evShutdown cause).applyActions).leave .shutdown

/-- INLET_SHUTDOWN (R302): T_inlet has stayed above 65 °C for 10 s, measured from the last reading at or below. -/
def inletShutdown (s : State) : State :=
  if s.pwr.inletHot && decide (s.pwr.inletOkAt + 10000000 ≤ s.now) then s.shutDown 1 else s

/-- AIR_STOP_COUNTDOWN (R304): at the countdown's end the shut-down starts. -/
def airStopCountdown (s : State) : State :=
  if s.bit PWR_SHUTDOWN PWR_SHUTDOWN_PENDING && decide (s.pwr.stopAt ≤ s.now) then s.shutDown 2 else s

/-- START_PERMIT_WITHDRAWN (R345): before READY, an orderly shut-down. -/
def startPermitWithdrawn (s : State) : State :=
  let s1 := { s with aon := { s.aon with permit := false } }
  if s1.phase = phStarting then s1.shutDown 0 else s1

/-! ## The tray latch (R335) -/

/-- TRAY_LATCH_N rises: the latch releases. -/
def trayLatchN (s : State) : State :=
  let s1 := { s with aon := { s.aon with latch := false } }
  if s1.aon.core then s1.leave .latch else s1

/-! ## The data link (R232, R237, R401) -/

/-- PCIE_LINK_UP: READY sets in phase READY, unless the link is narrow. -/
def pcieLinkUp (width speed : Nat) (s : State) : State :=
  if !(s.isOn .hcx) || s.linkUp || s.hif.perstLow || !([1, 2, 4, 8, 16].contains width) || !(inR 1 5 speed) then s
  else
    let o := HIF_STATUS
    let s1 := ((s.setBit o HIF_STATUS_LINK_UP true).setFld o HIF_STATUS_WIDTH width).setFld o HIF_STATUS_SPEED speed
    if width < 4 then (s1.setBit o HIF_STATUS_NARROW true).report evLinkNarrow width
    else s1.setBit o HIF_STATUS_READY (s1.phase == phReady)

/-- The link goes down: work and rings end, and every context is scrubbed; the Sentinel context only after a handover. -/
def State.pcieDown (s : State) : State :=
  if !s.linkUp then s
  else
    let held := match s.sentCtx with | some c => if s.handsOver c then [c] else [] | none => []
    let s1 := s.linkGone
    let s2 := { s1 with pair := { s1.pair with held := s1.pair.held ++ held.map fun c => ({ ctx := c, record := false, work := none } : HeldScrub) } }
    (s2.leave .pcie).each ((List.range 32).filter fun c => !(held.contains c)) fun t c => t.scrubNow c false

/-- PCIE_LINK_DOWN (R237). -/
def pcieLinkDown (s : State) : State := s.pcieDown

/-- PERST_N (R391): low takes the link down and resets nothing else. -/
def perstN (low : Bool) (s : State) : State :=
  let s1 := { s with hif := { s.hif with perstLow := low } }
  if low then s1.pcieDown else s1

/-! ## Scrubs by command (R235, R236, R275) -/

/-- A scrub, after a handover where the Sentinel context of a pair's serving module is concerned. -/
def State.scrubBy (s : State) (h : HeldScrub) : State :=
  if s.handsOver h.ctx then (s.holdScrub h).leave .pcie else s.runHeld h

/-- CTX_SCRUB (R275). -/
def ctxScrub (r : Nat) (s : State) : State :=
  s.withAdmin r 0x13 (onMgmt r) fun f =>
    let c := dF f.desc 9 1
    if !(decide (c < 32) && dZero f.desc 10 54) then s.reject r f stBadDescriptor
    else (((s.popHead r).addWork (mkWork r f 0x13 .committing)).scrubBy ⟨c, true, some (r, f.seq)⟩).settle

/-- VF_FLR (R236): a VF that serves its context is reset. -/
def vfFlr (v : Nat) (s : State) : State :=
  if s.linkUp && inR 1 s.numVf v then
    ((s.scrubBy ⟨v - 1, false, none⟩).hifErr HIF_ERR_STATUS_VF_FLR v).clearMsix fun fn => fn == v
  else s

/-- PF_FLR (R236): every context is scrubbed, the management ring is disabled, and the HIF registers are reset. -/
def pfFlr (s : State) : State :=
  if s.linkUp then
    let s1 := (s.each (List.range 32) fun t c => t.scrubBy ⟨c, false, none⟩).dropMgmtRing
    (((s1.clearHif).setFld HIF_STATUS HIF_STATUS_NUM_VF 0).hifErr HIF_ERR_STATUS_PF_FLR 0).clearMsix fun _ => true
  else s

/-- SERVING_FUNCTION_CHANGE (R235): NumVFs and VF Enable of the SR-IOV capability; every context whose serving function changes
is scrubbed. -/
def servingFunctionChange (numVfs : Nat) (enable : Bool) (s : State) : State :=
  if s.linkUp then
    let n := if enable then min numVfs 32 else 0
    let old := s.numVf
    let s1 := s.each ((List.range 32).filter fun c => decide (c < n) != decide (c < old)) fun t c => t.scrubBy ⟨c, false, none⟩
    (((s1.setFld HIF_STATUS HIF_STATUS_NUM_VF n).setCfg 0 0x198 (BitVec.ofNat 32 numVfs)).setCfg 0 0x190
      ((s1.cfgWord 0 0x190 &&& ~~~1#32) ||| if enable then 1 else 0)).clearMsix fun fn => decide (n < fn)
  else s

end Sys2Proof.Machine
end

