-- ==== Sys2Proof/Machine/Endpoint.lean ====
section
/-! DEFINITION. The PCI Express endpoint's configuration space and MSI-X tables (Host Interface, Command Rings and
Completions, R11, R233, R234, R243, R251, R262). Identities, capabilities and their offsets are the manual's; the place of a
field in a capability is PCI Express's (PRESUMED, notes/assumptions/27.md). -/

namespace Sys2Proof.Machine

/-- The data of a read goes to its requester. -/
def State.regData (s : State) (fn off : Nat) (acc : RegAccess) (v : W64) : State :=
  match acc with
  | .read => s.emit (.regData fn off v)
  | .write _ => s

/-! ## The capabilities (Table 2) -/

/-- A capability: offset, ID, and whether virtual functions have it too. -/
structure Cap where
  off : Nat
  id : Nat
  vf : Bool

/-- The capabilities of Table 2 below 0x100, in order. -/
def capsLow : List Cap := [⟨0x40, 0x01, false⟩, ⟨0x50, 0x10, true⟩, ⟨0xB0, 0x11, true⟩]

/-- The extended capabilities of Table 2, in order. -/
def capsExt : List Cap :=
  [⟨0x100, 0x0001, true⟩, ⟨0x148, 0x0003, false⟩, ⟨0x158, 0x000E, true⟩, ⟨0x168, 0x0019, false⟩, ⟨0x188, 0x0010, false⟩,
   ⟨0x1C8, 0x0025, false⟩, ⟨0x1D8, 0x0026, false⟩, ⟨0x200, 0x0027, false⟩, ⟨0x240, 0x002A, false⟩]

/-- A capability of a function in a list, and the offset of the function's next one. -/
def capAt (fn off : Nat) : List Cap → Option (Cap × Nat)
  | [] => none
  | c :: cs =>
    if c.off = off && (fn == 0 || c.vf) then
      some (c, match cs.find? fun x => fn == 0 || x.vf with | some x => x.off | none => 0)
    else capAt fn off cs

/-- The high half of a capability's first dword below 0x100: power management without D1, D2 or PME; a version 2 endpoint;
the MSI-X table's size with its enable and mask bits. -/
def State.capHigh (s : State) (fn off : Nat) : Nat :=
  if off = 0x40 then 3 else if off = 0x50 then 2
  else (s.cfgWord fn 0xB0).toNat / 2 ^ 16 / 2 ^ 14 * 2 ^ 14 + (if fn = 0 then 2047 else 63)

/-- The bits of a dword that the host writes. -/
def cfgWritable (fn off : Nat) : W32 :=
  if off = 0x04 then (if fn = 0 then 6 else 4)
  else if off = 0x58 then 0x79FF
  else if off = 0x78 then 0x101F
  else if off = 0xB0 then 0xC0000000
  else if fn ≠ 0 then 0
  else if off = 0x10 then 0xFC000000 else if off = 0x18 then 0xFFC00000 else if off = 0x20 then 0xFFFF0000
  else if off = 0x14 || off = 0x1C || off = 0x24 then 0xFFFFFFFF
  else if off = 0x44 then 3
  else if off = 0x190 then 0x19 else if off = 0x198 then 0xFFFF
  else if off = 0x1AC then 0xFC000000 else if off = 0x1B4 then 0xFFFF0000 else if off = 0x1BC then 0xFFFFF000
  else if off = 0x1B0 || off = 0x1B8 || off = 0x1C0 then 0xFFFFFFFF
  else 0

/-- The bits of a dword that a write of 1 clears: AER's Poisoned TLP, Completion Timeout and Advisory Non-Fatal. -/
def cfgClears (off : Nat) : W32 := if off = 0x104 then 0x5000 else if off = 0x110 then 0x2000 else 0

/-- Is the dword the low half of a 64-bit prefetchable BAR? -/
def isBar (fn off : Nat) : Bool := fn == 0 && [0x10, 0x18, 0x20, 0x1AC, 0x1B4, 0x1BC].contains off

/-- What a dword reads beside its writable bits: identities (R233), what Table 2 states of each capability, and what the
link trained at. -/
def State.cfgFixed (s : State) (fn off : Nat) : Nat :=
  if off = 0x00 then (if fn = 0 then 0x32641FA4 else 0x32651FA4)
  else if off = 0x04 then 0x100000
  else if off = 0x08 then 0x12000011
  else if off = 0x34 then (if fn = 0 then 0x40 else 0x50)
  else if off = 0x54 then 0x10008022
  else if off = 0x5C then 0x105
  else if off = 0x60 then (s.fld HIF_STATUS HIF_STATUS_SPEED + 16 * s.fld HIF_STATUS HIF_STATUS_WIDTH) * 2 ^ 16
  else if off = 0x74 then 0x3001E
  else if off = 0xB4 then 4
  else if off = 0xB8 then (if fn = 0 then 0x8004 else 0x804)
  else if isBar fn off then 0xC
  else if fn ≠ 0 then 0
  else if off = 0x14C then Config.serial.toNat % 2 ^ 32
  else if off = 0x150 then Config.serial.toNat / 2 ^ 32
  else if off = 0x194 then 0x200020
  else if off = 0x19C then 0x10001
  else if off = 0x1A0 then 0x32650000
  else if off = 0x1A4 || off = 0x1A8 then 1
  else 0

/-- A dword of a function's configuration space, as it reads. -/
def State.cfgRead (s : State) (fn off : Nat) : Nat :=
  match capAt fn off capsLow, capAt fn off capsExt with
  | some (c, next), _ => c.id + 2 ^ 8 * next + 2 ^ 16 * s.capHigh fn off
  | none, some (c, next) => c.id + 2 ^ 16 + 2 ^ 20 * next
  | none, none => s.cfgFixed fn off ||| (s.cfgWord fn off &&& (cfgWritable fn off ||| cfgClears off)).toNat

/-! ## Accesses by bytes -/

/-- The dwords that an access of `bits` bits at `off` touches, with the mask of the bits that it takes of each and its
value there. -/
def dwordParts (off bits : Nat) (v : Nat) : List (Nat × W32 × W32) :=
  let m := (2 ^ bits - 1) * 2 ^ (8 * (off % 4))
  let x := v % 2 ^ bits * 2 ^ (8 * (off % 4))
  ((List.range 3).map fun i =>
    (off / 4 * 4 + 4 * i, BitVec.ofNat 32 (m / 2 ^ (32 * i)), BitVec.ofNat 32 (x / 2 ^ (32 * i)))).filter fun p => p.2.1 != 0

/-- What an access of `bits` bits reads of dwords. -/
def dwordsRead (rd : Nat → Nat) (off bits : Nat) : W64 :=
  let o := off / 4 * 4
  BitVec.ofNat 64 ((rd o + 2 ^ 32 * rd (o + 4) + 2 ^ 64 * rd (o + 8)) / 2 ^ (8 * (off % 4)) % 2 ^ bits)

/-! ## Configuration space -/

/-- What a write does beyond its bits: a function-level reset, the VFs, the messages that an enable releases. -/
def State.cfgEffect (s : State) (fn off : Nat) (v : W32) : State :=
  if off = 0x58 && v.getLsbD 15 then (if fn = 0 then pfFlr s else vfFlr fn s)
  else if fn = 0 && off = 0x190 then servingFunctionChange ((s.cfgWord 0 0x198).toNat % 2 ^ 16) (v.getLsbD 0) s
  else if off = 0xB0 then s.msixFlush fn
  else s

/-- A write of the bits in `mask` of a dword. PMCSR takes D0 and D3hot alone, and NumVFs stands while VF Enable is set. -/
def State.cfgPut (s : State) (fn off : Nat) (mask v : W32) : State :=
  let old := s.cfgWord fn off
  let rw := cfgWritable fn off &&& mask
  let new := ((old &&& ~~~rw) ||| (v &&& rw)) &&& ~~~(cfgClears off &&& mask &&& v)
  if (off = 0x44 && new != 0 && new != 3) || (off = 0x198 && (s.cfgWord 0 0x190).getLsbD 0) then s
  else ((if rw = 0 && cfgClears off = 0 then s else s.setCfg fn off new)).cfgEffect fn off (v &&& mask ||| old &&& ~~~mask &&& 1)

/-- An access to configuration space. What AER's header log holds is not documented: a free value. -/
def State.cfgAccess (s : State) (fn o off bits : Nat) (acc : RegAccess) : State :=
  match acc with
  | .read =>
    if inR 0x11C 0x12B o then s.bump.regData fn off acc (BitVec.ofNat 64 (s.freeWord.toNat % 2 ^ bits))
    else s.regData fn off acc (dwordsRead (s.cfgRead fn) o bits)
  | .write v => (dwordParts o bits v.toNat).foldl (fun t p => t.cfgPut fn p.1 p.2.1 p.2.2) s

/-! ## BAR4: the MSI-X table and its pending bits (R233, R243) -/

/-- Vectors of a function. -/
def msixVectors (fn : Nat) : Nat := if fn = 0 then 2048 else 64

/-- Where a function's pending bits lie in BAR4. -/
def pbaAt (fn : Nat) : Nat := if fn = 0 then 0x8000 else 0x800

/-- A dword of BAR4: address, data and mask of a vector, or 32 pending bits. -/
def State.bar4Read (s : State) (fn o : Nat) : Nat :=
  let v := o / 16
  if v < msixVectors fn then
    if o % 16 = 12 then (if s.hif.unmasked.contains (fn, v) then 0 else 1)
    else (tabGetD s.hif.msix ((2048 * fn + v) * 4 + o % 16 / 4) 0).toNat
  else if pbaAt fn ≤ o then
    let k := (o - pbaAt fn) * 8
    (List.range 32).foldl (fun n i => if s.hif.msixPending.contains (fn, k + i) then n + 2 ^ i else n) 0
  else 0

/-- A write of the bits in `mask` of a dword of BAR4: only the table is writable, and a vector that is unmasked sends its
pending message. -/
def State.bar4Put (s : State) (fn o : Nat) (mask v : W32) : State :=
  let n := o / 16
  if n < msixVectors fn then
    if o % 16 = 12 then
      if !(mask.getLsbD 0) then s
      else if v.getLsbD 0 then { s with hif := { s.hif with unmasked := s.hif.unmasked.filter fun x => x != (fn, n) } }
      else msixUnmask fn n s
    else
      let k := (2048 * fn + n) * 4 + o % 16 / 4
      { s with hif := { s.hif with msix := tabSet s.hif.msix k ((tabGetD s.hif.msix k 0 &&& ~~~mask) ||| (v &&& mask)) } }
  else s

/-- An access to BAR4; a narrow link serves configuration and BAR0 alone (R232). -/
def State.bar4Access (s : State) (fn o off bits : Nat) (acc : RegAccess) : State :=
  if s.bit HIF_STATUS HIF_STATUS_NARROW then s.regData fn off acc 0
  else match acc with
    | .read => s.regData fn off acc (dwordsRead (s.bar4Read fn) o bits)
    | .write v => (dwordParts o bits v.toNat).foldl (fun t p => t.bar4Put fn p.1 p.2.1 p.2.2) s

end Sys2Proof.Machine
end

