-- ==== Sys2Proof/Machine/Pair.lean ====
section
/-! DEFINITION. Hot-standby pairs: heartbeats, takeover, planned handover, the periodic swap, pairing, and the end of the
start sequence, at which a module takes its role (Olper Links, Cascades and Hot-Standby Pairs, R325 to R339; Start-up,
Firmware Update and Cabinet Management, R346, R368, R401). -/

namespace Sys2Proof.Machine

/-! ## Planned handover (R333, R338) -/

/-- The handover starts once no gated work runs: the module enters SWAPPING. -/
def State.trySwap (s : State) : State :=
  match s.pair.swap with
  | some x =>
    if x.at_.isNone && s.role = roleActive && !s.gatedRuns then
      let s1 := s.setRole roleSwapping x.cause none
      { s1 with pair := { s1.pair with swap := some { x with at_ := some s1.now } } }
    else s
  | none => s

/-- A planned handover is asked for. -/
def State.startSwap (s : State) (cause : Nat) (work : Option (Nat × Nat)) : State :=
  ({ s with pair := { s.pair with swap := some { cause := cause, work := work, at_ := none } } }).trySwap

/-- TAKEOVER has arrived: a handover under way ends in STANDBY. -/
def State.swapTaken (s : State) : State :=
  match s.pair.swap with
  | some x => if s.role = roleSwapping then (s.setRole roleStandby x.cause none).clearSwap else s
  | none => s

/-- Hours of the periodic swap, in microseconds. -/
def State.swapPeriod (s : State) : Nat := 3600000000 * s.fld OLP_PAIR OLP_PAIR_SWAP_PERIOD_H

/-- Step 2 of Table 7 on the module that takes over: it needs HEALTH_OK and a partner that is not refused. -/
def State.plannedTakeover (s : State) : State :=
  if s.healthOk && !s.pair.refused then
    s.takeActive (if s.pair.ask then causeRevert else if s.pair.changedAt + s.swapPeriod ≤ s.now then causePeriodic
      else causeRoleSwap)
  else s

/-- SWAP_TIMEOUT (R333): 100 µs without TAKEOVER return the module to ACTIVE, at the claim it has. -/
def swapTimeout (s : State) : State :=
  match s.pair.swap with
  | some x =>
    (match x.at_ with
    | some t =>
      if s.role = roleSwapping && decide (t + 100 ≤ s.now) then
        ((s.setBit OLP_ERR_STATUS OLP_ERR_STATUS_SWAP_REFUSED true).setRole roleActive x.cause none).clearSwap
      else s
    | none => s)
  | none => s

/-- SWAP_DUE (R338). -/
def swapDue (s : State) : State :=
  if s.paired && s.role = roleActive && !(s.bit OLP_ROLE OLP_ROLE_SWAP_DUE) && s.pair.swap.isNone &&
      decide (s.pair.changedAt + s.swapPeriod ≤ s.now) && decide (s.pair.deferUntil ≤ s.now) then
    let s1 := s.setBit OLP_ROLE OLP_ROLE_SWAP_DUE true
    ({ s1 with pair := { s1.pair with dueAt := s1.now } }).startSwap causePeriodic none
  else s

/-- SWAP_DEFERRED (R338): not quiescent within 100 ms; SWAP_DUE returns 1 h later. -/
def swapDeferred (s : State) : State :=
  if s.bit OLP_ROLE OLP_ROLE_SWAP_DUE && s.role = roleActive && decide (s.pair.dueAt + 100000 ≤ s.now) then
    let s1 := (s.setBit OLP_ROLE OLP_ROLE_SWAP_DUE false).setBit OLP_ERR_STATUS OLP_ERR_STATUS_SWAP_DEFERRED true
    { s1 with pair := { s1.pair with swap := none, deferUntil := s1.now + 3600000000 } }
  else s

/-! ## Heartbeats (R325, R326, R329) -/

/-- HEARTBEAT_SEND (R329): a handover that waits for gated work is looked at first. -/
def heartbeatSend (s : State) : State :=
  let s1 := s.trySwap
  let s2 := if s1.healthOk then s1 else { s1 with pair := { s1.pair with bothSince := none } }
  s2.sendHeartbeat

/-- Is the partner of a heartbeat not the configured one (R325)? Its serial is that of P0's HELLO. -/
def State.refuses (s : State) (b : Heart) : Bool :=
  s.reg (OLP_PORT_PEER 0) != s.pair.serial || b.device.toNat != s.fld GLB_ID GLB_ID_DEVICE ||
    b.claim.toNat % 256 == s.fld OLP_PAIR OLP_PAIR_PREFERENCE || b.config != s.configDigest

/-- What a heartbeat tells of the partner. -/
def State.notePartner (s : State) (b : Heart) : State :=
  let ok := b.flags.getLsbD 0
  let s1 := ((s.setBit OLP_ROLE OLP_ROLE_PARTNER_UP true).setBit OLP_ROLE OLP_ROLE_PARTNER_HEALTH_OK ok).setReg OLP_PARTNER_CLAIM
    (b.claim.zeroExtend 64)
  let s2 := { s1 with pair := { s1.pair with
    partner := some b
    lastHb := some s1.now
    heard := true
    takeover := s1.pair.takeover && (b.role == roleActive || b.role == roleSwapping) } }
  let s3 := if s2.pair.seen < b.claim.toNat / 256 then s2.setSeen (b.claim.toNat / 256) else s2
  let bad := s3.refuses b
  let s4 := if bad && !s3.pair.refused then s3.setBit OLP_ERR_STATUS OLP_ERR_STATUS_PAIR_REFUSED true else s3
  { s4 with pair := { s4.pair with
    refused := bad
    bothSince := if ok && s4.healthOk then some (s4.pair.bothSince.getD s4.now) else none
    ask := s4.pair.ask && ok && s4.healthOk } }

/-- Two ACTIVE modules: both set SPLIT_SEEN, and the one with the lower claim takes STANDBY. The last heartbeats of a module
that is leaving are no second ACTIVE. -/
def State.meetActive (s : State) (b : Heart) : State :=
  if b.flags.getLsbD 1 then s
  else
    let s1 := (s.setBit OLP_ERR_STATUS OLP_ERR_STATUS_SPLIT_SEEN true).log evSplit 0
    if s1.claim < b.claim.toNat then (s1.setRole roleStandby causeClaim none).clearSwap else s1

/-- What a STANDBY module does on a heartbeat. -/
def State.standbyHears (s : State) (b : Heart) : State :=
  if b.flags.getLsbD 1 then s.takeover causeLeaving
  else if b.role = roleSwapping && b.flags.getLsbD 2 then s.plannedTakeover
  else if (b.role = roleStandby || b.role = roleIsolated) &&
      decide (b.claim.toNat % 256 < s.fld OLP_PAIR OLP_PAIR_PREFERENCE) then s.takeover causeLower
  else s

/-- A heartbeat of the partner. -/
def State.takeHeartbeat (s : State) (b : Heart) : State :=
  let s1 := s.notePartner b
  let s2 := if b.flags.getLsbD 3 then (s1.leaveEnd).swapTaken else s1
  if s2.role = roleActive then
    if b.role = roleActive then s2.meetActive b
    else if b.role = roleStandby && b.flags.getLsbD 2 && s2.pair.swap.isNone then s2.startSwap causeRevert none
    else s2
  else if s2.role = roleStandby then s2.standbyHears b
  else s2

/-- HEARTBEAT (R329). -/
def heartbeat (h : OlpHdr) (b : Heart) (s : State) : State :=
  match s.recv 0 h 0 with
  | (s1, true) =>
    let s2 := s1.bwAdd 15 20
    ((if s2.paired then s2.takeHeartbeat b else s2).settle).ackNow 0
  | (s1, false) => s1

/-- PARTNER_LOST (R329): 65 µs without a heartbeat; an ACTIVE module stays ACTIVE. -/
def partnerLost (s : State) : State :=
  match s.pair.lastHb with
  | some t =>
    if s.paired && decide (max t s.pair.changedAt + 65 ≤ s.now) then
      (s.setBit OLP_ROLE OLP_ROLE_PARTNER_UP false).takeover causeLost
    else s
  | none => s

/-- STANDBY_WAIT_TIMEOUT (R326): 1 s without a P0 peer after the module came up. -/
def standbyWaitTimeout (s : State) : State :=
  if s.paired && !s.pair.heard && s.portState 0 != portUp && decide (max s.pair.pairedAt s.pair.alone + 1000000 ≤ s.now) then s.takeover causeLost
  else s

/-- REVERT_TIMER (R333): the preferred module, in STANDBY, asks for a planned handover. -/
def revertTimer (s : State) : State :=
  let preferred := match s.pair.partner with
    | some b => decide (b.claim.toNat % 256 < s.fld OLP_PAIR OLP_PAIR_PREFERENCE)
    | none => false
  let long := match s.pair.bothSince with | some t => decide (t + 10000000 ≤ s.now) | none => false
  if s.role = roleStandby && s.bit OLP_PAIR OLP_PAIR_REVERT_EN && preferred && s.partnerIn roleActive && long && s.healthOk then
    ({ s with pair := { s.pair with ask := true } }).sendHeartbeat
  else s

/-- CASCADE_TAKEOVER_FLAG (R336): a HEARTBEAT frame with the TAKEOVER flag on a ring port. -/
def cascadeTakeoverFlag (p : Nat) (h : OlpHdr) (s : State) : State :=
  if !(p = 1 || p = 2) then s
  else match s.recv p h 0 with
    | (s1, true) =>
      let s2 := s1.bwAdd (15 + 2 * p) 20
      (if decide (2 ≤ s2.fld OLP_CASCADE OLP_CASCADE_SIZE) && s2.role = roleStandby && s2.healthOk && !s2.pair.refused then
        s2.takeActive causeCascade
      else s2).ackNow p
    | (s1, false) => s1

/-! ## Operations (R339) -/

/-- The fields of a PAIR_CONFIG. -/
def pairFieldsOk (d : Desc) : Bool :=
  dZero d 24 40 && (dF d 9 1 == 0 || (dF d 9 1 == 1 && inR 1 255 (dF d 10 1) && inR 1 168 (dF d 11 1) && decide (dF d 12 1 < 16) &&
    dZero d 13 3))

/-- Show a pair's configuration: preference, hours, flags and serial. -/
def State.showPair (s : State) (on : Bool) (pref hours flags : Nat) (serial : W64) : State :=
  let o := OLP_PAIR
  let s1 := ((((s.setBit o OLP_PAIR_PAIRED on).setBit o OLP_PAIR_REVERT_EN (decide (flags % 2 = 1))).setBit o OLP_PAIR_ROLE_GATE
    (decide (flags / 2 % 2 = 1))).setBit o OLP_PAIR_DIGEST_EN (decide (flags / 4 % 2 = 1))).setFld o OLP_PAIR_SWAP_PERIOD_H hours
  let s2 := s1.setFld o OLP_PAIR_PREFERENCE pref
  { s2 with pair := { s2.pair with serial := serial, refused := false, bothSince := none } }

/-- ENABLE 0: the module is unpaired. -/
def State.unpair (s : State) : State :=
  let s1 := (s.showPair false 0 24 0 0).changeSettings fun r => { r with pair := none }
  let s2 := { s1.setBit OLP_ROLE OLP_ROLE_PARTNER_UP false with pair := { s1.pair with partner := none, lastHb := none } }
  if s2.role = roleStandby || s2.role = roleActive then (s2.takeSolo causePairConfig).clearSwap else s2

/-- EPOCH_RESET clears the epoch. -/
def State.resetEpoch (s : State) : State := ((s.setSeen 0).setBit OLP_PAIR OLP_PAIR_EPOCH_HIGH false)

/-- ENABLE 1. -/
def State.pairUp (s : State) (d : Desc) : State :=
  let body := (List.range 15).map fun i => BitVec.ofNat 8 (dF d (9 + i) 1)
  let s1 := (s.showPair true (dF d 10 1) (dF d 11 1) (dF d 12 1) (BitVec.ofNat 64 (dF d 16 8))).changeSettings fun r =>
    { r with pair := some body }
  let s2 := if dF d 12 1 / 8 % 2 = 1 then s1.resetEpoch else s1
  let s3 := { s2 with pair := { s2.pair with heard := false, pairedAt := s2.now } }
  let old := s3.claim
  if s3.role = roleSolo then (s3.setRole roleStandby causePairConfig none).setClaim
  else if s3.role = roleActive then
    let keep := s3.fld OLP_CLAIM OLP_CLAIM_EPOCH
    let s4 := if dF d 12 1 / 8 % 2 = 1 then s3.setClaim
      else (s3.setFld OLP_CLAIM OLP_CLAIM_EPOCH keep).setFld OLP_CLAIM OLP_CLAIM_PREFERENCE (dF d 10 1)
    if s4.claim ≠ old then s4.newClaim else s4
  else s3.setClaim

/-- PAIR_CONFIG (R325, R339). -/
def pairConfig (r : Nat) (s : State) : State :=
  s.withAdmin r 0x40 (onMgmt r) fun f =>
    let d := f.desc
    if !(pairFieldsOk d) || s.role = roleSwapping then s.reject r f stBadDescriptor
    else if dF d 9 1 = 0 then (s.unpair).finishNow r f stDone 0 0
    else if s.portState 0 == portUp && s.fld (OLP_PORT_STATUS 0) OLP_PORT_STATUS_VERSION == 1 then
      (s.setBit OLP_ERR_STATUS OLP_ERR_STATUS_VERSION_REFUSED true).reject r f stVersionMismatch
    else (s.pairUp d).finishNow r f stDone 0 0

/-- ROLE_SWAP (R333, R339). -/
def roleSwap (r : Nat) (s : State) : State :=
  s.withAdmin r 0x41 (onMgmt r) fun f =>
    if !(dZero f.desc 9 55) || s.role ≠ roleActive || !(s.partnerIn roleStandby) || s.pair.swap.isSome then
      s.reject r f stBadDescriptor
    else (((s.popHead r).addWork (mkWork r f 0x41 .committing)).startSwap causeRoleSwap (some (r, f.seq))).settle

/-- ISOLATE (R327). -/
def isolate (r : Nat) (s : State) : State :=
  s.withAdmin r 0x42 (onMgmt r) fun f =>
    if !(dZero f.desc 9 55) then s.reject r f stBadDescriptor
    else (((s.setRole roleIsolated causeIsolate none).clearSwap).leaveEnd).finishNow r f stDone 0 0

/-- REJOIN (R327). -/
def rejoin (r : Nat) (s : State) : State :=
  s.withAdmin r 0x43 (onMgmt r) fun f =>
    if !(dZero f.desc 9 55) || s.role ≠ roleIsolated then s.reject r f stBadDescriptor
    else (if s.paired then s.setRole roleStandby causeRejoin none else s.takeSolo causeRejoin).finishNow r f stDone 0 0

/-! ## Steps 6 to 8 of the start sequence (R346, R368, R401) -/

/-- Migration (Table 16): from the version of the copy in force to 3. The older copy stays untouched. -/
def migrated (version image : Nat) (r : Settings) : Settings :=
  let r1 := if version < 2 then { r with cascade := none, armTtl := 60 } else r
  let r2 := if version < 3 then { r1 with ownerLock := 0, lastChangeId := 0, extCapW := 10 * r1.extCap10 } else r1
  { r2 with lastImageId := image }

/-- The settings block is migrated at the first start of new firmware. -/
def State.migrate (s : State) : State :=
  let image := s.fld MGT_IMAGE MGT_IMAGE_IMAGE_ID
  match s.nv.copyInForce with
  | some i =>
    if !(s.newFirmware image) then s
    else ((s.changeSettings (migrated (s.nv.settingsCopy i).version image)).settingsTaken).setBit MGT_SETTINGS
      MGT_SETTINGS_MIGRATED true
  | none => s

/-- An Olper port that the stored settings use is started. -/
def State.startPort (s : State) (p : Nat) : State := (s.powerOn (.port p)).setPortState p portLocking

/-- A little-endian field of a settings record. -/
def recF (b : List Byte) (i n : Nat) : Nat := leNat ((b.drop i).take n)

/-- The cascade of the stored settings. -/
def State.startCascade (s : State) : State :=
  match s.aon.settings.cascade with
  | some b =>
    let o := OLP_CASCADE
    let s1 := ((s.setFld o OLP_CASCADE_SIZE (recF b 0 1)).setFld o OLP_CASCADE_POSITION (recF b 1 1)).setFld o
      OLP_CASCADE_STANDBY_CASCADE (recF b 2 1)
    let s2 := { s1 with olp := { s1.olp with serials := (List.range 4).map fun k => BitVec.ofNat 64 (recF b (7 + 8 * k) 8) } }
    (s2.startPort 1).startPort 2
  | none => s

/-- The role under the stored settings: STANDBY when they pair the module, SOLO otherwise (R326). A module whose tray latch
released meanwhile stays ISOLATED. -/
def State.startRole (s : State) : State :=
  let s0 := { s with
    vrd := { s.vrd with open_ := true }
    pair := { s.pair with seen := max s.pair.seen s.aon.settings.epoch, pairedAt := s.now } }
  match s0.aon.settings.pair with
  | some b =>
    let s1 := ((s0.showPair true (recF b 1 1) (recF b 2 1) (recF b 3 1) (BitVec.ofNat 64 (recF b 7 8))).setClaim).startPort 0
    if s1.role = roleIsolated then s1 else s1.setRole roleStandby 0 none
  | none => if s0.role = roleIsolated then s0.setClaim else s0.takeSolo 0

/-- START_READY (R346, R401): self-test, settings and ports, and phase READY, unless the link is narrow. -/
def startReady (selfTestOk : Bool) (s : State) : State :=
  if s.phase = phStarting && s.aon.secDone && s.aon.trained = 0xFFF then
    if !selfTestOk then (s.report evSelfTest 0).startFails sfSelftest
    else
      let s1 := ((s.migrate).startCascade).startRole
      if s1.bit HIF_STATUS HIF_STATUS_NARROW then s1.startFails sfLinkNarrow
      else ((s1.setPhase phReady).setBit HIF_STATUS HIF_STATUS_READY s1.linkUp).report evReady 0
  else s

end Sys2Proof.Machine
end

