-- ==== Sys2Proof/Machine/Verdict.lean ====
section
/-! DEFINITION. The Verdict Port's frames and the cabinet verdict merge (Olper Links, Cascades and Hot-Standby Pairs,
R330, R331). -/

namespace Sys2Proof.Machine

/-! ## Frames (R330, Table 6) -/

/-- One shift of the CRC register: polynomial 0x1021, not reflected. -/
def crcShift (c : Nat) : Nat := if c / 32768 % 2 = 1 then ((2 * c) ^^^ 0x1021) % 65536 else 2 * c % 65536

/-- Take one byte into the CRC register. -/
def crcByte (c : Nat) (b : Byte) : Nat := (List.range 8).foldl (fun x _ => crcShift x) (c ^^^ (256 * b.toNat))

/-- The CRC of bytes 0 to 21, initial 0xFFFF, without a final XOR. -/
def crc16 (bs : List Byte) : Nat := bs.foldl crcByte 0xFFFF

/-- FTYPE. -/
def ftVerdict : Nat := 1
def ftClaim : Nat := 2
def ftResync : Nat := 3

/-- Bytes 6 to 20 of a frame that carries a channel's state. -/
def verdictBody (chan verdict seq prev : Nat) (score est : W32) (flags : BitVec 8) : List Byte :=
  leBytes 2 (chan % 4096 + 4096 * (verdict % 8)) ++ leBytes 3 seq ++ leBytes 1 (prev % 8) ++ leBytes 4 score.toNat ++
    leBytes 4 est.toNat ++ [flags]

/-- The 24 bytes of a frame. -/
def verdictFrame (ftype lines claim : Nat) (body : List Byte) (no : Nat) : List Byte :=
  let b := leBytes 1 ftype ++ leBytes 1 lines ++ leBytes 4 claim ++ body ++ leBytes 1 no
  b ++ leBytes 2 (crc16 b)

/-- Start a frame. It is counted, and the first one at a new claim ends the GAP that a change to ACTIVE measures. -/
def State.sendVerdict (s : State) (ftype : Nat) (body : List Byte) : State :=
  let s1 := ((s.emit (.verdict (verdictFrame ftype (s.fld VRD_STATUS VRD_STATUS_LINES) (s.fld VRD_CLAIM VRD_CLAIM_CLAIM) body
    s.vrd.frameNo))).addWrap VRD_FRAMES VRD_FRAMES_COUNT 1).setFld VRD_STATUS VRD_STATUS_FRAME_NO s.vrd.frameNo
  let s2 := match s1.vrd.gapFrom with
    | some t =>
      let gap := min 0xFFFFFFFF (100 * (s1.now - t))
      (s1.setFld OLP_SWITCH_LAST OLP_SWITCH_LAST_GAP gap).sample 0x0A 0 0 gap
    | none => s1
  { s2 with vrd := { s2.vrd with
      frameNo := (s.vrd.frameNo + 1) % 256
      lastAt := some s.now
      gapFrom := none
      claimDue := s.vrd.claimDue && ftype != ftClaim } }

/-- A CLAIM frame: bytes 6 to 20 zero. -/
def State.sendClaim (s : State) : State := s.sendVerdict ftClaim (leBytes 15 0)

/-- The RESYNC frame of a channel: its current state, PREV equal to VERDICT. -/
def State.sendResync (s : State) (n : Nat) : State :=
  let x := s.chan n
  (s.sendVerdict ftResync (verdictBody n x.verdict x.lastSeq x.verdict noScore x.est 0)).addWrap VRD_RESYNC
    VRD_RESYNC_COUNT 1

/-- The VERDICT frame of a record; the histogram takes the time from the window's doorbell. -/
def State.sendRecord (s : State) (r : VRec) : State :=
  let s1 := (s.addSat STN_RECORDS STN_RECORDS_COUNT 1).sendVerdict ftVerdict
    (verdictBody r.chan r.verdict r.seq r.prev r.score r.est r.flags)
  match r.at_ with
  | some t => s1.sample 0x02 0 0 (100 * (s1.now - t))
  | none => s1

/-- The channels whose RESYNC frame is still due: a disabled channel is not resynchronised. -/
def State.resyncDue (s : State) : List Nat := s.vrd.resync.filter fun n => (s.chan n).enabled

/-- The next frame in order of preference, a CLAIM frame where nothing else waits and `idle` says that 10 µs have
passed. -/
def State.nextFrame (s : State) (idle : Bool) : State :=
  if s.vrd.claimDue then s.sendClaim
  else match s.resyncDue with
    | n :: ns => ({ s with vrd := { s.vrd with resync := ns } }).sendResync n
    | [] =>
      let s1 := { s with vrd := { s.vrd with resync := [] } }
      match s1.stn.records with
      | r :: rs => ({ s1 with stn := { s1.stn with records := rs } }).sendRecord r
      | [] => if idle then s1.sendClaim else s1

/-- Records queued in a module that does not transmit are dropped (R328). -/
def State.dropRecords (s : State) : State :=
  (({ s with stn := { s.stn with records := [] } }).addSat STN_RECORDS STN_RECORDS_COUNT s.stn.records.length).addWrap VRD_HELD
    VRD_HELD_COUNT s.stn.records.length

/-- VERDICT_FRAME_SEND (R330): at most one frame per microsecond starts. -/
def verdictFrameSend (s : State) : State :=
  if !s.txOn then s.dropRecords
  else if s.vrd.lastAt = some s.now then s
  else s.nextFrame false

/-- CLAIM_FRAME_IDLE (R330): 10 µs without a frame. -/
def claimFrameIdle (s : State) : State :=
  if !s.txOn || s.recent s.vrd.lastAt 10 then s else s.nextFrame true

/-! ## The merge (R331) -/

/-- Byte `i` of a frame. -/
def fByte (f : List Byte) (i : Nat) : Nat := bf f i 1

/-- The frame checks: CRC, a listed FTYPE, and zero-fields. -/
def frameOk (f : List Byte) : Bool :=
  f.length == 24 && bf f 22 2 == crc16 (f.take 22) && inR 1 3 (fByte f 0) && decide (fByte f 7 < 128) &&
    decide (fByte f 11 < 8) && (fByte f 0 != ftClaim || bf f 6 15 == 0) && (fByte f 0 != ftResync || fByte f 20 == 0)

/-- CLAIM of a frame. -/
def frameClaim (f : List Byte) : Nat := bf f 2 4

/-- The line pins of an input. -/
def Merge.pins (m : Merge) (input : Nat) : BitVec 8 := if input = 0 then m.pins0 else m.pins1

/-- Does a checked frame at an input pass the held claim? -/
def Merge.accepts (m : Merge) (input : Nat) (f : List Byte) : Bool :=
  decide (m.held < frameClaim f) || (m.held == frameClaim f && m.followed == some input)

/-- An accepted frame sets the held claim and the followed input, and the lines. -/
def Merge.accept (m : Merge) (input : Nat) (f : List Byte) (now : Nat) : Merge :=
  let lines := BitVec.ofNat 8 (fByte f 1)
  let pins := m.pins input
  { m with
    held := frameClaim f
    followed := some input
    kept := if m.held < frameClaim f then [] else m.kept
    lines := if m.followed = some input then (m.lines &&& (lines ||| pins)) ||| pins else lines ||| pins
    stale := false
    lastAt := now }

/-- Does the frame repeat its channel's kept entry? -/
def Merge.repeats (m : Merge) (f : List Byte) : Bool :=
  tabGet? m.kept (bf f 6 2 % 4096) == some (bf f 8 3, bf f 6 2 / 4096 % 8)

/-- An accepted VERDICT or RESYNC frame is passed on unless it repeats the kept entry, which it becomes. -/
def State.passOn (s : State) (f : List Byte) : State :=
  if fByte f 0 = ftClaim || s.merge.repeats f then s
  else
    ({ s with merge := { s.merge with
        kept := tabSet s.merge.kept (bf f 6 2 % 4096) (bf f 8 3, bf f 6 2 / 4096 % 8) } }).emit (.merged f)

/-- MERGE_FRAME (R331). -/
def mergeFrame (input : Nat) (f : List Byte) (s : State) : State :=
  if 2 ≤ input then s
  else if !frameOk f then { s with merge := { s.merge with bad := s.merge.bad + 1 } }
  else if s.merge.accepts input f then ({ s with merge := s.merge.accept input f s.now }).passOn f
  else { s with merge := { s.merge with staleClaims := s.merge.staleClaims + 1 } }

/-- MERGE_LINE_PIN (R331): a pin of the followed input asserts its line; a clear pin de-asserts none by itself. -/
def mergeLinePin (input line : Nat) (high : Bool) (s : State) : State :=
  if 2 ≤ input || 8 ≤ line then s
  else
    let bit := BitVec.ofNat 8 (2 ^ line)
    let put := fun v : BitVec 8 => if high then v ||| bit else v &&& ~~~bit
    let m := s.merge
    let m1 := if input = 0 then { m with pins0 := put m.pins0 } else { m with pins1 := put m.pins1 }
    { s with merge := if high && m.followed == some input then { m1 with lines := m1.lines ||| bit } else m1 }

/-- H back to 0; every kept entry is forgotten. -/
def Merge.forget (m : Merge) : Merge := { m with held := 0, kept := [] }

/-- MERGE_AGE_OUT (R331): 50 ms without an accepted frame; the lines hold. -/
def mergeAgeOut (s : State) : State :=
  if s.merge.lastAt + 50000 ≤ s.now then { s with merge := { s.merge.forget with stale := true } } else s

/-- MERGE_EPOCH_RESET (R331). -/
def mergeEpochReset (s : State) : State := { s with merge := s.merge.forget }

end Sys2Proof.Machine
end

