-- ==== Sys2Proof/Machine/Manage.lean ====
section
/-! DEFINITION. The I3C management port, armed changes and their commit on ACT_STROBE, and the refusal states of updates
(Start-up, Firmware Update and Cabinet Management, R344, R350, R351, R359 to R364, R369). -/

namespace Sys2Proof.Machine

/-! ## Answers (R344, R350, R351) -/

/-- Completion codes of MCTP and PLDM messages. -/
def ccOk : Nat := 0
def ccMalformed : Nat := 1
def ccUnsupported : Nat := 5
def ccInvalidSensor : Nat := 0x80

/-- Answer a request. -/
def State.answer (s : State) (code : Nat) (bytes : List Byte) : State := s.emit (.answer code bytes)

/-- A request that the boot ROM serves: any level of code answers. -/
def State.atBootRom (s : State) (k : State → State) : State := if s.aon.level = .off then s else k s

/-- A request that the resident loader and Pedestal firmware serve. -/
def State.atLoader (s : State) (k : State → State) : State :=
  if s.aon.level = .off then s
  else if s.aon.level = .bootRom then s.answer ccUnsupported []
  else k s

/-- A request that Pedestal firmware alone serves. -/
def State.atPedestal (s : State) (k : State → State) : State :=
  if s.aon.level = .off then s
  else if s.aon.level = .pedestal then k s
  else s.answer ccUnsupported []

/-- ENTDAA (R350): the target takes a dynamic address, with the low 32 bits of GLB_SERIAL in its provisioned ID. -/
def entdaa (addr : Nat) (s : State) : State :=
  s.atBootRom fun s =>
    if s.aon.i3cAddr.isSome || 128 ≤ addr then s
    else ({ s with aon := { s.aon with i3cAddr := some addr } }).answer ccOk (leBytes 4 Config.serial.toNat)

/-- MGT_STATE as it reads: RELAY_DOWN while LINK frames came from downstream in the last 50 ms. -/
def State.mgtState (s : State) : W64 :=
  putBits (s.reg MGT_STATE) MGT_STATE_RELAY_DOWN (if s.recent s.aon.lastLinkDown 50000 then 1 else 0)

/-- The bytes that show a sensor of Table 6, its register field as it stands. -/
def State.sensorBytes (s : State) (n : Nat) : Option (List Byte) :=
  match n with
  | 1 => some (leBytes 1 (s.fld PWR_TEMPS PWR_TEMPS_TJ_MAX))
  | 2 => some (leBytes 1 (s.fld PWR_TEMPS PWR_TEMPS_INLET))
  | 3 => some (leBytes 1 (s.fld PWR_TEMPS PWR_TEMPS_OUTLET))
  | 4 => some (leBytes 1 (s.fld PWR_TEMPS PWR_TEMPS_FIN))
  | 5 => some (leBytes 2 (s.fld PWR_INPUT PWR_INPUT_VOLTAGE))
  | 6 => some (leBytes 2 (s.fld PWR_INPUT PWR_INPUT_CURRENT))
  | 7 => some (leBytes 2 (s.fld PWR_POWER PWR_POWER_P_100MS))
  | 8 => some (leBytes 2 (s.fld PWR_AIRFLOW PWR_AIRFLOW_AF_SLOW))
  | 9 => some (leBytes 8 (s.reg PWR_TOTAL_ENERGY).toNat)
  | 20 => some (leBytes 1 s.phase)
  | 21 => some (leBytes 1 s.role)
  | 22 => some (leBytes 1 (s.fld MGT_UPDATE MGT_UPDATE_STATE))
  | 23 => some (leBytes 1 (s.fld MGT_ARM MGT_ARM_STATE))
  | 24 => some (leBytes 1 (s.fld PWR_THROTTLE_REASON PWR_THROTTLE_REASON_BINDING))
  | _ => none

/-- Does the resident loader serve the sensor (R344)? -/
def loaderSensor (n : Nat) : Bool := inR 1 9 n || n == 20

/-- PLDM_SENSOR_READ (R350). -/
def pldmSensorRead (n : Nat) (s : State) : State :=
  s.atLoader fun s =>
    if s.aon.level = .loader && !(loaderSensor n) then s.answer ccUnsupported []
    else match s.sensorBytes n with
      | some b => s.answer ccOk b
      | none => s.answer ccInvalidSensor []

/-- PLATFORM_EVENT_MESSAGE (R350): the oldest event waiting is sent, once the target has an address. -/
def platformEventMessage (s : State) : State :=
  match s.aon.events, s.aon.i3cAddr with
  | (code, arg) :: es, some _ => ({ s with aon := { s.aon with events := es } }).emit (.event code arg)
  | _, _ => s

/-- GET_STATE (R350). -/
def getState (s : State) : State :=
  s.atBootRom fun s => s.answer ccOk (leBytes 4 s.mgtState.toNat ++ leBytes 8 (s.reg MGT_UPDATE).toNat ++
    leBytes 8 (s.reg MGT_ARM).toNat ++ leBytes 8 (s.reg MGT_ARM_DIGEST).toNat ++ leBytes 8 (s.reg MGT_IMAGE).toNat)

/-- An event-log entry as it is sent: uptime, boot count, code and argument. -/
def logBytes (e : LogEv) : List Byte := leBytes 8 e.uptime.toNat ++ leBytes 2 e.boots ++ leBytes 2 e.code ++ leBytes 4 e.arg

/-- Entries of the event log, oldest first. -/
def State.logEntries (s : State) (first count : Nat) : List LogEv := (s.nv.log.drop first).take count

/-- GET_EVENTS (R350). -/
def getEvents (first count : Nat) (s : State) : State :=
  s.atLoader fun s =>
    if 16 < count then s.answer ccMalformed [] else s.answer ccOk ((s.logEntries first count).flatMap logBytes)

/-! ## The external cap (R286) -/

/-- The cap comes into force and is kept in the settings block. -/
def State.takeCap (s : State) (watts : Nat) : State :=
  ((s.changeSettings fun r => r.withCap (capTaken watts)).setFld PWR_LIMITS PWR_LIMITS_EXT_CAP (capTaken watts)).applyActions

/-- SET_CAP (R286, R351). -/
def setCap (watts : Nat) (malformed : Bool) (s : State) : State :=
  s.atPedestal fun s =>
    if malformed || 65536 ≤ watts then s.answer ccMalformed []
    else
      let s1 := s.takeCap watts
      s1.answer ccOk (leBytes 2 (s1.fld PWR_LIMITS PWR_LIMITS_EXT_CAP))

/-! ## Refusal states (R359, R360) -/

/-- Codes of Table 13. -/
def rsNone : Nat := 0
def rsMoving : Nat := 1
def rsReserveLow : Nat := 2
def rsOwnerLock : Nat := 3
def rsPartnerUpdating : Nat := 4
def rsIdUsed : Nat := 5
def rsArmBusy : Nat := 6
def rsNotStaged : Nat := 7

def asIdle : Nat := 0
def asArmed : Nat := 1
def asCommitted : Nat := 2
def asExpired : Nat := 3
def asRefused : Nat := 4
def asDisarmed : Nat := 5

/-- Update states (Table 11). -/
def usIdle : Nat := 0
def usWriting : Nat := 1
def usStaged : Nat := 2
def usIncomplete : Nat := 3
def usArmed : Nat := 4
def usActivating : Nat := 5
def usRecovery : Nat := 6

def State.update (s : State) : Nat := s.fld MGT_UPDATE MGT_UPDATE_STATE
def State.setUpdate (s : State) (v : Nat) : State := s.setFld MGT_UPDATE MGT_UPDATE_STATE v
def State.armState (s : State) : Nat := s.fld MGT_ARM MGT_ARM_STATE

/-- The refusal states that apply to writing, as MGT_UPDATE.REFUSE shows them. -/
def State.refuseMask (s : State) : Nat :=
  (if s.bit MGT_STATE MGT_STATE_MOVING then 1 else 0) + (if s.aon.reserveOk then 0 else 2) +
    (if s.aon.settings.ownerLock = 0 then 0 else 4)

/-- The first reason of such a state. -/
def State.refuseReason (s : State) : Nat :=
  if s.bit MGT_STATE MGT_STATE_MOVING then rsMoving
  else if !s.aon.reserveOk then rsReserveLow
  else if s.aon.settings.ownerLock ≠ 0 then rsOwnerLock
  else rsNone

/-- The P0 partner's last STATUS, unless none has arrived for 1 s. -/
def State.partnerRow (s : State) : Option ModuleRow :=
  if s.paired then (s.aon.modules.map (·.2)).find? fun m => m.serial == s.pair.serial && decide (s.now < m.seenAt + 1000000)
  else none

/-- PARTNER_UPDATING holds. -/
def State.partnerUpdating (s : State) : Bool :=
  match s.partnerRow with
  | some m => [usWriting, usArmed, usActivating, usRecovery].contains m.update
  | none => false

/-- MGT_UPDATE.REFUSE shows the refusal states that refused (Table 19). -/
def State.showRefusal (s : State) (mask : Nat) : State := s.setFld MGT_UPDATE MGT_UPDATE_REFUSE mask

/-- A refusal of FW_ACTIVATE by a state of Table 12, at its ARM or at the strobe, is the last refusal of an update. -/
def State.noteUpdateReason (s : State) (why : Nat) : State :=
  if inR 1 3 why then s.showRefusal (s.refuseMask + if s.partnerUpdating then 8 else 0)
  else if why = rsPartnerUpdating then s.showRefusal 8
  else s

/-- The reason that keeps an FW_ACTIVATE from being armed, 0 when none does. -/
def State.armReason (s : State) : Nat :=
  if s.refuseReason ≠ rsNone then s.refuseReason else if s.partnerUpdating then rsPartnerUpdating else rsNone

/-- At a strobe, with both modules ARMED, which one may commit (R360). -/
def State.strobeYields (s : State) : Bool :=
  match s.partnerRow with
  | some m =>
    if m.update = usArmed then
      if s.role = m.role then decide (s.fld OLP_CLAIM OLP_CLAIM_PREFERENCE ≤ s.fld OLP_PARTNER_CLAIM OLP_CLAIM_PREFERENCE)
      else s.role != roleStandby
    else false
  | none => false

/-- RESERVE_OK (R359, R389): the filtered level. -/
def reserveOk (high : Bool) (s : State) : State :=
  let lost := s.aon.reserveOk && !high && s.aon.level == .pedestal
  let s1 := if lost then s.report evPartyLost 0 else s
  ({ s1 with aon := { s1.aon with reserveOk := high } }).setBit MGT_STATE MGT_STATE_RESERVE_OK (high && s.aon.rails)

/-- ACCELEROMETER_SHOCK (R359, R397): above 5 g, or roll or pitch (in units of 0.001°) beyond 15°. -/
def accelerometerShock (milliG : Nat) (roll pitch : Int) (s : State) : State :=
  if s.aon.rails && (decide (5000 < milliG) || decide (15000 < roll.natAbs) || decide (15000 < pitch.natAbs)) then
    ({ s with aon := { s.aon with movingUntil := some (s.now + 600000000) } }).setBit MGT_STATE MGT_STATE_MOVING true
  else s

/-- MOVING_EXPIRY (R359): 10 minutes without such motion. -/
def movingExpiry (s : State) : State :=
  match s.aon.movingUntil with
  | some t =>
    if t ≤ s.now then ({ s with aon := { s.aon with movingUntil := none } }).setBit MGT_STATE MGT_STATE_MOVING false else s
  | none => s

/-- The owner lock takes a value, kept in the settings block. -/
def State.takeLock (s : State) (lock : Nat) : State :=
  (s.changeSettings fun r => { r with ownerLock := lock }).setFld MGT_STATE MGT_STATE_OWNER_LOCK lock

/-- SET_LOCK (R350, R351, R359). -/
def setLock (lock : Nat) (s : State) : State :=
  s.atPedestal fun s => if 2 ≤ lock then s.answer ccMalformed [] else (s.takeLock lock).answer ccOk (leBytes 1 lock)

/-- OWNER_LOCK (R359, R369). -/
def ownerLock (r : Nat) (s : State) : State :=
  s.withAdmin r 0x33 (onMgmt r) fun f =>
    let lock := dF f.desc 9 1
    if !(decide (lock < 2) && dZero f.desc 10 54) then s.reject r f stBadDescriptor
    else (s.takeLock lock).finishNow r f stDone 0 lock

/-! ## Settings records (R367) -/

/-- The records of a byte string, at most `n`; none when it does not end with a record's end. -/
def parseRecs : Nat → List Byte → Option (List (Nat × List Byte))
  | _, [] => some []
  | 0, _ => none
  | n + 1, b =>
    let len := bf b 2 2
    if b.length < 4 + len then none
    else match parseRecs n (b.drop (4 + len)) with
      | some rs => some ((bf b 0 2, (b.drop 4).take len) :: rs)
      | none => none

/-- The body of a PAIR_CONFIG or CASCADE_CONFIG that a record holds: bytes from 9 on. -/
def bodyDesc (v : List Byte) : Desc := BitVec.ofNat 512 (leNat v * 256 ^ 9)

/-- A record is one of Table 15 with its length and range, or of a type that this firmware does not know. -/
def recordOk (e : Nat × List Byte) : Bool :=
  let v := leNat e.2
  let len := e.2.length
  match e.1 with
  | 0x0001 => len == 1 && decide (v < 2)
  | 0x0002 => len == 1
  | 0x0003 => len == 3
  | 0x0004 => len == 15 && pairFieldsOk (bodyDesc e.2)
  | 0x0005 => len == 39 && cascadeFieldsOk (bodyDesc e.2)
  | 0x0006 => len == 2 && inR 1 3600 v
  | 0x0007 => len == 1 && decide (v < 2)
  | 0x0008 => len == 4
  | 0x0009 => len == 4
  | 0x000A => len == 2
  | _ => true

/-- Apply one record: it takes effect as the operation that writes it, and the settings block keeps it. -/
def State.applyRecord (s : State) (all : List (Nat × List Byte)) (e : Nat × List Byte) : State :=
  let v := leNat e.2
  match e.1 with
  | 0x0001 => s.startMode v
  | 0x0002 => if all.any (fun x => x.1 == 0x000A) then s else s.takeCap (10 * v)
  | 0x0003 => if s.pair.seen < v then (s.setSeen v) else s.changeSettings fun r => { r with epoch := v }
  | 0x0004 => if dF (bodyDesc e.2) 9 1 = 0 then s.unpair else s.pairUp (bodyDesc e.2)
  | 0x0005 => s.setCascade (bodyDesc e.2)
  | 0x0006 => s.changeSettings fun r => { r with armTtl := v }
  | 0x0007 => s.takeLock v
  | 0x0008 => s.changeSettings fun r => { r with lastChangeId := v }
  | 0x0009 => s.changeSettings fun r => { r with lastImageId := v }
  | 0x000A => s.takeCap v
  | t => s.changeSettings fun r => { r with other := r.other.filter (fun x => x.1 != t) ++ [e] }

/-- Apply the records of a SETTINGS change. -/
def State.applyRecords (s : State) (b : List Byte) : State :=
  match parseRecs 256 b with
  | some rs => rs.foldl (fun t e => t.applyRecord rs e) s
  | none => s

/-! ## Arm and disarm (R363) -/

/-- Are the fields of an ARM within their ranges? -/
def armFieldsOk (q : ArmReq) : Bool :=
  (q.kind == 1 && decide (q.mode < 2)) ||
  (q.kind == 2 && decide (q.records.length ≤ 256) && match parseRecs 256 q.records with | some rs => rs.all recordOk | none => false) ||
  q.kind == 3

/-- The armed value, whose digest MGT_ARM_DIGEST shows. -/
def armValue (q : ArmReq) : List Byte :=
  if q.kind = 1 then leBytes 1 q.mode else if q.kind = 2 then q.records else leBytes 4 q.imageId.toNat

/-- MGT_ARM shows a change. -/
def State.showArm (s : State) (change state kind reason : Nat) : State :=
  (((s.setFld MGT_ARM MGT_ARM_CHANGE_ID change).setFld MGT_ARM MGT_ARM_STATE state).setFld MGT_ARM MGT_ARM_KIND kind).setFld
    MGT_ARM MGT_ARM_REASON reason

/-- An outcome that writes LAST_CHANGE_ID (R364). -/
def State.armOutcome (s : State) (change state kind reason : Nat) : State :=
  (s.showArm change state kind reason).changeSettings fun r => { r with lastChangeId := change }

/-- Why an ARM is refused, 0 when it is accepted. -/
def State.armRefusal (s : State) (q : ArmReq) : Nat :=
  if q.changeId.toNat ≤ s.aon.settings.lastChangeId then rsIdUsed
  else if s.aon.arm.isSome then rsArmBusy
  else if q.kind ≠ 3 then rsNone
  else if s.update ≠ usStaged || s.fld MGT_UPDATE MGT_UPDATE_IMAGE_ID ≠ q.imageId.toNat then rsNotStaged
  else s.armReason

/-- The state and reason of the response to an ARM. -/
def State.armResponse (s : State) (q : ArmReq) : Nat × Nat :=
  (if s.armRefusal q = rsNone then asArmed else asRefused, s.armRefusal q)

/-- An ARM whose fields are in range. -/
def State.armChange (s : State) (q : ArmReq) : State :=
  let why := s.armRefusal q
  let id := q.changeId.toNat
  if why = rsIdUsed || why = rsArmBusy then s
  else if why ≠ rsNone then (s.noteUpdateReason why).armOutcome id asRefused q.kind why
  else
    let held : ArmHeld := { changeId := id, kind := q.kind, mode := q.mode, imageId := q.imageId.toNat, records := q.records,
                            acceptedAt := s.now }
    let s1 := ({ s with aon := { s.aon with arm := some held } }).showArm id asArmed q.kind rsNone
    let s2 := s1.setReg MGT_ARM_DIGEST (BitVec.ofNat 64 (leNat (shakeBytes (armValue q) 8)))
    if q.kind = 3 then s2.setUpdate usArmed else s2

/-- MCTP_ARM (R351, R363). -/
def mctpArm (q : ArmReq) (malformed : Bool) (s : State) : State :=
  s.atPedestal fun s =>
    if malformed || !(armFieldsOk q) then s.answer ccMalformed []
    else (s.armChange q).answer ccOk (leBytes 1 (s.armResponse q).1 ++ leBytes 1 (s.armResponse q).2)

/-- The fields of an ADMIN ARM. -/
def armReqOf (d : Desc) (b : List Byte) : ArmReq :=
  { kind := dF d 9 1, changeId := BitVec.ofNat 32 (dF d 12 4), mode := dF d 16 1, imageId := BitVec.ofNat 32 (dF d 20 4), records := b }

/-- Reserved bytes and ranges of an ADMIN ARM. -/
def armDescOk (d : Desc) : Bool :=
  inR 1 3 (dF d 9 1) && dZero d 10 2 && dZero d 17 3 && dZero d 24 24 && dZero d 60 4 && decide (dF d 16 1 < 2) &&
    decide (dF d 56 4 ≤ 256)

/-- The end of an ADMIN ARM: its record gives the arm state and REASON. -/
def State.armAdmin (s : State) (r : Nat) (f : Fetched) (b : List Byte) : State :=
  let q := armReqOf f.desc b
  if !(armFieldsOk q) then s.reject r f stBadDescriptor
  else
    let p := s.armResponse q
    let s1 := s.armChange q
    if p.2 = rsNone then s1.finishNow r f stDone 0 (p.1 + 256 * p.2) else s1.rejectWith r f stAccessDenied (p.1 + 256 * p.2)

/-- ARM (R363, R369): the records of a SETTINGS change are read from host memory. -/
def arm (r : Nat) (rd : HostRd) (s : State) : State :=
  s.withAdmin r 0x31 (onMgmt r) fun f =>
    let d := f.desc
    if !(armDescOk d) then s.reject r f stBadDescriptor
    else if dF d 9 1 ≠ 2 then s.armAdmin r f []
    else match rd with
      | .error e => ((s.hostAsk (s.servingFn r) (dF d 48 8) (dF d 56 4)).noteHostErr r e).rejectWith r f (hostErrStatus e) s.armState
      | .data b =>
        let n := dF d 56 4
        if b.length < n then s else (s.hostReceived (s.servingFn r) (dF d 48 8) n).armAdmin r f (b.take n)

/-- A change that is no longer armed leaves a staged image STAGED (Table 11). -/
def State.dropArm (s : State) (a : ArmHeld) : State :=
  let s1 := { s with aon := { s.aon with arm := none } }
  if a.kind = 3 then s1.setUpdate usStaged else s1

/-- A DISARM: nothing changes unless its CHANGE_ID is that of the armed change. -/
def State.disarmChange (s : State) (change : Nat) : State :=
  match s.aon.arm with
  | some a => if a.changeId = change then (s.dropArm a).setFld MGT_ARM MGT_ARM_STATE asDisarmed else s
  | none => s

/-- MCTP_DISARM (R351, R363). -/
def mctpDisarm (changeId : W32) (malformed : Bool) (s : State) : State :=
  s.atPedestal fun s =>
    if malformed then s.answer ccMalformed []
    else
      let s1 := s.disarmChange changeId.toNat
      s1.answer ccOk (leBytes 1 s1.armState)

/-- DISARM (R363, R369). -/
def disarm (r : Nat) (s : State) : State :=
  s.withAdmin r 0x32 (onMgmt r) fun f =>
    if !(dZero f.desc 9 3 && dZero f.desc 16 48) then s.reject r f stBadDescriptor
    else
      let s1 := s.disarmChange (dF f.desc 12 4)
      s1.finishNow r f stDone 0 s1.armState

/-- ARM_EXPIRY (R363): ARM_TTL seconds without a strobe. -/
def armExpiry (s : State) : State :=
  match s.aon.arm with
  | some a =>
    if a.acceptedAt + 1000000 * s.aon.settings.armTtl ≤ s.now then (s.dropArm a).armOutcome a.changeId asExpired a.kind rsNone
    else s
  | none => s

/-! ## The strobe (R361, R364) -/

/-- FW_ACTIVATE at a strobe: refused under R359 and R360, or committed; a module in ACTIVE first hands over. -/
def State.strobeFirmware (s : State) (a : ArmHeld) (w : AonFacts) (f : StartFacts) : State :=
  let why := if s.refuseReason ≠ rsNone then s.refuseReason else if s.strobeYields then rsPartnerUpdating else rsNone
  if why ≠ rsNone then ((s.noteUpdateReason why).dropArm a).armOutcome a.changeId asRefused 3 why
  else
    let s1 := ({ s with
      nv := { s.nv with activating := some (a.changeId, a.imageId) }
      aon := { s.aon with arm := none } }).setUpdate usActivating
    if s1.servesPair then ({ s1 with aon := { s1.aon with restart := some (w, f) } }).leave .restart else s1.restartNow w f

/-- The commit of the armed change at a taken edge. -/
def State.commitArm (s : State) (a : ArmHeld) (w : AonFacts) (f : StartFacts) : State :=
  if a.kind = 3 then s.strobeFirmware a w f
  else
    let s1 := { s with aon := { s.aon with arm := none } }
    let s2 := if a.kind = 1 then s1.startMode a.mode else s1.applyRecords a.records
    s2.armOutcome a.changeId asCommitted a.kind rsNone

/-- ACT_STROBE (R364): a filtered rising edge, taken unless one was taken in the last 100 ms. -/
def actStrobe (w : AonFacts) (f : StartFacts) (s : State) : State :=
  if s.aon.level ≠ .pedestal || s.recent s.aon.strobeAt 100000 then s
  else
    let s1 := ({ s with aon := { s.aon with strobeAt := some s.now } }).addSat MGT_STROBES MGT_STROBES_EDGES 1
    match s1.aon.arm with
    | some a => if a.acceptedAt + 1000 ≤ s1.now then s1.commitArm a w f else s1
    | none => s1

/-! ## SVN_COMMIT and EVENT_READ (R369) -/

/-- SVN_COMMIT: fuses are blown; the floor never falls. -/
def svnCommit (r : Nat) (s : State) : State :=
  s.withAdmin r 0x34 (onMgmt r) fun f =>
    let svn := dF f.desc 12 4
    if !(dZero f.desc 9 3 && dZero f.desc 16 48 && decide (svn ≤ s.fld MGT_IMAGE MGT_IMAGE_SVN)) then s.reject r f stBadDescriptor
    else
      let s1 := { s with nv := { s.nv with minSvn := max s.nv.minSvn svn } }
      s1.finishNow r f stDone 0 s1.minSvn

/-- EVENT_READ: whole entries from FIRST on, as many as HOST_LEN holds. -/
def eventRead (r : Nat) (s : State) : State :=
  s.withAdmin r 0x35 (onMgmt r) fun f =>
    let d := f.desc
    if !(dZero d 9 3 && dZero d 16 32 && dZero d 60 4) then s.reject r f stBadDescriptor
    else
      let es := s.logEntries (dF d 12 4) (dF d 56 4 / 16)
      (s.hostWrite (s.servingFn r) (dF d 48 8) (es.flatMap logBytes)).finishNow r f stDone 0 es.length

end Sys2Proof.Machine
end

