-- ==== Sys2Proof/Machine/Relay.lean ====
section
/-! DEFINITION. The Relay chain: links, the manager, STATUS, commands, and firmware images on their way (Start-up, Firmware
Update and Cabinet Management, R344, R352 to R358, R362, R369; Olper Links, Cascades and Hot-Standby Pairs, R324). -/

namespace Sys2Proof.Machine

/-! ## Frames (R352, Tables 8 and 9) -/

/-- RTYPE. -/
def rtLink : Nat := 1
def rtStatus : Nat := 2
def rtCommand : Nat := 3
def rtResponse : Nat := 4
def rtImgOffer : Nat := 0x10
def rtImgData : Nat := 0x11
def rtImgAck : Nat := 0x12
def rtImgEnd : Nat := 0x13

def State.slot (s : State) : Nat := s.fld MGT_STATE MGT_STATE_SLOT

/-- Is a frame addressed to this module alone, and does it concern this module? -/
def State.aloneHere (s : State) (h : RelayHdr) : Bool := h.dst == s.slot
def State.concerns (s : State) (h : RelayHdr) : Bool := h.dst == s.slot || h.dst == 0xFF

/-- A frame goes on in its direction of travel with HOPS lowered by 1, and is dropped at 0. -/
def State.forward (s : State) (h : RelayHdr) (rtype : Nat) (payload : List Byte) : State :=
  if h.hops ≤ 1 then s else s.emit (.relay (!h.down) rtype h.src h.dst (h.hops - 1) payload)

/-- Any frame: a bad CRC or tag drops and counts it; one not for this module alone is forwarded. -/
def State.relayFrame (s : State) (h : RelayHdr) (rtype : Nat) (payload : List Byte) (k : State → State) : State :=
  if s.aon.level = .off then s
  else if !(h.crcOk && h.tagOk) then { s with aon := { s.aon with relayDropped := s.aon.relayDropped + 1 } }
  else
    let s1 := if s.aloneHere h then s else s.forward h rtype payload
    if s.concerns h then k s1 else s1

/-! ## LINK frames and the manager (R344, R352, R353) -/

/-- The payload of a LINK frame. -/
def linkBytes (slot : Nat) (serial : W64) : List Byte := leBytes 1 slot ++ leBytes 8 serial.toNat

/-- LINK (R344, R353): Pedestal firmware takes it; a level below forwards it. -/
def link (h : RelayHdr) (slot : Nat) (serial : W64) (s : State) : State :=
  if s.aon.level = .off then s
  else if !(h.crcOk && h.tagOk) then { s with aon := { s.aon with relayDropped := s.aon.relayDropped + 1 } }
  else
    let s1 := if s.aon.level = .pedestal then s else s.forward h rtLink (linkBytes slot serial)
    if h.down then
      (({ s1 with aon := { s1.aon with lastLinkUp := some s1.now } }).setBit MGT_STATE MGT_STATE_RELAY_UP true).setBit MGT_STATE
        MGT_STATE_MANAGER false
    else { s1 with aon := { s1.aon with lastLinkDown := some s1.now } }

/-- LINK_SEND (R352): each 1 ms, on each link. -/
def linkSend (s : State) : State :=
  if s.aon.level = .pedestal then
    let b := linkBytes s.slot Config.serial
    (s.relaySend true rtLink 0xFF b).relaySend false rtLink 0xFF b
  else s

/-- MANAGER_TIMEOUT (R353): no LINK frame from upstream for 50 ms. -/
def managerTimeout (s : State) : State :=
  if s.aon.level = .pedestal && decide (50000 ≤ s.now) && !(s.recent s.aon.lastLinkUp 50000) then
    (s.setBit MGT_STATE MGT_STATE_RELAY_UP false).setBit MGT_STATE MGT_STATE_MANAGER true
  else s

def State.isManager (s : State) : Bool := s.bit MGT_STATE MGT_STATE_MANAGER

/-! ## STATUS (R352, R353) -/

/-- The payload of a STATUS frame. -/
def statusBytes (x : RelayStatus) : List Byte :=
  leBytes 8 x.serial.toNat ++ leBytes 1 x.phase ++ leBytes 1 x.update ++ leBytes 1 x.arm ++ leBytes 4 x.changeId.toNat ++
    leBytes 1 x.role ++ leBytes 8 x.partner.toNat

/-- This module's own STATUS. -/
def State.ownStatus (s : State) : RelayStatus :=
  { serial := Config.serial, phase := s.phase, update := s.update, arm := s.armState,
    changeId := BitVec.ofNat 32 (s.fld MGT_ARM MGT_ARM_CHANGE_ID), role := s.role, partner := s.pair.serial }

/-- Do all 48 modules of the manager's table show READY? -/
def State.allReady (s : State) : Bool :=
  (List.range 48).all fun k => if k = s.slot then s.phase == phReady
    else match tabGet? s.aon.modules k with
      | some m => m.phase == phReady
      | none => false

/-- The manager reports CABINET_READY once all are READY (R349). -/
def State.noteCabinet (s : State) : State :=
  if s.isManager && s.allReady then
    if s.aon.cabinetReady then s else ({ s with aon := { s.aon with cabinetReady := true } }).report evCabinetReady 0
  else { s with aon := { s.aon with cabinetReady := false } }

/-- A STATUS of another module is kept: the manager needs it (R353), the partner (R359, R360), and a module that may have to
send its image to one in RECOVERY (R362). -/
def State.takeStatus (s : State) (src : Nat) (x : RelayStatus) : State :=
  let old := tabGet? s.aon.modules src
  let m : ModuleRow := { serial := x.serial, phase := x.phase, update := x.update, arm := x.arm, changeId := x.changeId.toNat,
                         role := x.role, partner := x.partner, seenAt := s.now,
                         result := (match old with | some o => o.result | none => 0),
                         ports := (match old with | some o => o.ports | none => []),
                         peers := (match old with | some o => o.peers | none => []) }
  ({ s with aon := { s.aon with modules := tabSet s.aon.modules src m } }).noteCabinet

/-- STATUS (R352, R353). -/
def status (h : RelayHdr) (x : RelayStatus) (s : State) : State :=
  s.relayFrame h rtStatus (statusBytes x) fun t => if t.aon.level = .pedestal then t.takeStatus h.src x else t

/-- STATUS_BROADCAST (R352): each 100 ms, in both directions. -/
def statusBroadcast (s : State) : State :=
  if s.aon.level = .pedestal || s.aon.level = .loader then
    let b := statusBytes s.ownStatus
    ((s.relaySend true rtStatus 0xFF b).relaySend false rtStatus 0xFF b).noteCabinet
  else s

/-! ## Commands of the manager (R324) -/

/-- The payload of a RESPONSE. -/
def responseBytes (result : Nat) (ports : List W32) (peers : List W64) : List Byte :=
  leBytes 1 result ++ ports.flatMap (fun p : W32 => leBytes 4 p.toNat) ++ peers.flatMap fun p : W64 => leBytes 8 p.toNat

/-- OLP_PORT_STATUS and OLP_PORT_PEER of P0 to P2. -/
def State.portWords (s : State) : List W32 := [0, 1, 2].map fun p => (s.reg (OLP_PORT_STATUS p)).truncate 32
def State.peerWords (s : State) : List W64 := [0, 1, 2].map fun p => s.reg (OLP_PORT_PEER p)

/-- COMMAND (R324): 1 SELF_TEST, whose result `passed` gives, and 2 REPORT_PORTS. The answer goes the other way. -/
def command (h : RelayHdr) (code : Nat) (passed : Bool) (s : State) : State :=
  s.relayFrame h rtCommand (leBytes 1 code) fun t =>
    if t.aon.level = .pedestal && (code == 1 || code == 2) then
      t.relaySend h.down rtResponse h.src (responseBytes (if code = 1 && !passed then 1 else 0) t.portWords t.peerWords)
    else t

/-- The peers that the configurations known to the manager give a worker's ports: its pair partner on P0, and its ring
neighbours where the manager's own cascade holds it. -/
def State.wantedPeers (s : State) (m : ModuleRow) : List (Option W64) :=
  let n := s.fld OLP_CASCADE OLP_CASCADE_SIZE
  let at_ := s.olp.serials.findIdx? (· == m.serial)
  let ring := fun d : Nat => match at_ with
    | some k => if 2 ≤ n && decide (k < n) then some (s.serialAt ((k + d) % n)) else none
    | none => none
  [if m.partner = 0 then none else some m.partner, ring 1, ring (n - 1)]

/-- Is an UP port of the worker joined to another peer than it should be? -/
def cablingBad (want : List (Option W64)) (ports : List W32) (peers : List W64) : Bool :=
  (List.range 3).any fun p =>
    getBits ((ports.getD p 0).zeroExtend 64) OLP_PORT_STATUS_STATE == portUp &&
      match want.getD p none with
      | some w => peers.getD p 0 != w
      | none => false

/-- RESPONSE (R324): the manager keeps it, and reports a CABLING_FAULT. -/
def response (h : RelayHdr) (result : Nat) (ports : List W32) (peers : List W64) (s : State) : State :=
  s.relayFrame h rtResponse (responseBytes result ports peers) fun t =>
    match tabGet? t.aon.modules h.src with
    | some m =>
      if t.aon.level = .pedestal && t.isManager then
        let m1 := { m with result := result, ports := ports, peers := peers }
        let t1 := { t with aon := { t.aon with modules := tabSet t.aon.modules h.src m1 } }
        if cablingBad (t.wantedPeers m) ports peers then t1.report evCabling h.src else t1
      else t
    | none => t

/-! ## Images (R352, R354 to R358) -/

/-- The index that acknowledges a complete offer. -/
def offerIndex : Nat := 0xFFFFFFFF

/-- Chunks of an image, and frame offsets of one of them. -/
def chunkCount (length : Nat) : Nat := (length + 65535) / 65536
def chunkOffsets (length k : Nat) : List Nat :=
  ((List.range 64).map fun i => chunkSize * k + frameSize * i).filter fun o => decide (o < length)

/-- The parts of an offer: the header of Table 10. -/
def headerOf (parts : Tab (List Byte)) : List Byte := parts.flatMap (·.2)
def offerHead (h : List Byte) : ImageHead :=
  { imageId := BitVec.ofNat 32 (bf h 8 4), length := bf h 12 4, digest := BitVec.ofNat 512 (bf h 84 64) }

def State.flow (s : State) (id : Nat) : Option ImageFlow := tabGet? s.aon.flows id
def State.setFlow (s : State) (f : ImageFlow) : State :=
  { s with aon := { s.aon with flows := tabSet s.aon.flows f.head.imageId.toNat f } }
def State.dropFlow (s : State) (id : Nat) : State := { s with aon := { s.aon with flows := tabDel s.aon.flows id } }

/-- The payload of an image frame: IMAGE_ID, a word and the bytes. -/
def imgBytes (id word : Nat) (b : List Byte) : List Byte := leBytes 4 id ++ leBytes 4 word ++ b

/-- A frame that this module sends or passes on. -/
def State.imgSend (s : State) (f : ImageFlow) (rtype word : Nat) (b : List Byte) : State :=
  if f.hops = 0 then s
  else s.emit (.relay f.up rtype f.src f.dst f.hops (imgBytes f.head.imageId.toNat word b))

/-- The payload of an IMG_END: complete or abandoned. -/
def endBytes (id : Nat) (abandoned : Bool) : List Byte := leBytes 4 id ++ leBytes 1 (if abandoned then 1 else 0)

/-- The image that this module passes on is abandoned: its IMG_END goes to the next module. -/
def State.sendAbandon (s : State) (f : ImageFlow) : State :=
  if f.hops = 0 then s else s.emit (.relay f.up rtImgEnd f.src f.dst f.hops (endBytes f.head.imageId.toNat true))

/-- The bytes of a frame of an image on its way. -/
def State.flowFrame (s : State) (f : ImageFlow) (o : Nat) : List Byte :=
  if f.own then s.regionFrame o else tabGetD f.buffer o []

/-- The frames of a chunk, or of the offer, are sent. -/
def State.sendChunk (s : State) (f : ImageFlow) (k : Nat) : State :=
  if k = offerIndex then f.offer.foldl (fun t e => t.imgSend f rtImgOffer e.1 e.2) s
  else (chunkOffsets f.head.length k).foldl (fun t o => t.imgSend f rtImgData o (t.flowFrame f o)) s

/-- Acknowledge a chunk or an offer towards the sender. -/
def State.ackChunk (s : State) (f : ImageFlow) (k : Nat) : State :=
  if f.injected || f.own then s else s.relaySend (!f.up) rtImgAck f.src (leBytes 4 f.head.imageId.toNat ++ leBytes 4 k)

/-- Frames held for a chunk go. -/
def dropChunk (b : Tab (List Byte)) (k : Nat) : Tab (List Byte) := b.filter fun e => decide (e.1 / chunkSize ≠ k)

/-- Waiting chunks are passed on while the link holds fewer than two unacknowledged ones and the offer is acknowledged;
each is then acknowledged towards the sender. At most `n` chunks. -/
def State.passChunks (id : Nat) : Nat → State → State
  | 0, s => s
  | n + 1, s =>
    match s.flow id with
    | none => s
    | some f =>
      match f.waiting with
      | [] => s
      | k :: ks =>
        if f.hops = 0 then
          State.passChunks id n ((s.setFlow { f with waiting := ks, buffer := dropChunk f.buffer k }).ackChunk f k)
        else if 2 ≤ f.unacked.length || f.unacked.any (fun u => u.1 == offerIndex) then s
        else
          State.passChunks id n (((s.sendChunk f k).setFlow { f with
            waiting := ks
            unacked := f.unacked ++ [(k, 0, s.now)] }).ackChunk f k)

/-- An image that has been passed on whole leaves; its originator sends IMG_END complete. -/
def State.endFlow (s : State) (id : Nat) : State :=
  match s.flow id with
  | none => s
  | some f =>
    if f.waiting.isEmpty && f.unacked.isEmpty && (f.own || decide (f.got.length = chunkCount f.head.length)) then
      let s1 := s.dropFlow id
      if f.injected || f.own then s1.relaySend f.up rtImgEnd f.dst (endBytes id false) else s1
    else s

/-- Pass on what can be passed on. -/
def State.pumpFlow (s : State) (id : Nat) : State :=
  match s.flow id with
  | some f => (State.passChunks id f.waiting.length s).endFlow id
  | none => s

/-- Is there a module below, or above, to pass a frame to? -/
def State.linkLive (s : State) (up : Bool) : Bool := s.recent (if up then s.aon.lastLinkUp else s.aon.lastLinkDown) 50000

/-- HOPS of frames passed on: none where the frame is for this module alone, at its last hop, or where no link follows. -/
def State.hopsOn (s : State) (h : RelayHdr) : Nat :=
  if s.aloneHere h || !(s.linkLive (!h.down)) then 0 else if h.hops ≤ 1 then 0 else h.hops - 1

/-! ## Offers (R357) -/

/-- Does the module accept an offer? A module in RECOVERY accepts one addressed to it, with no refusal states (R362). -/
def State.acceptsOffer (s : State) (x : ImageHead) (alone : Bool) : Bool :=
  decide (x.length ≤ imageMax) &&
  if s.update = usRecovery then s.aon.level == .loader && alone
  else s.aon.level == .pedestal && s.refuseMask == 0 && [usIdle, usStaged, usIncomplete].contains s.update &&
    x.imageId.toNat != s.fld MGT_IMAGE MGT_IMAGE_IMAGE_ID

/-- Writing starts over the image region. -/
def State.startWriting (s : State) (x : ImageHead) : State :=
  let s1 := { s with nv := { s.nv with image := { imageId := x.imageId.toNat, length := some x.length } } }
  let s2 := ((s1.setFld MGT_UPDATE MGT_UPDATE_IMAGE_ID x.imageId.toNat).setFld MGT_UPDATE MGT_UPDATE_CHUNKS 0)
  if s2.update = usRecovery then s2 else s2.setUpdate usWriting

/-- A refusal is recorded and reported. -/
def State.noteRefusal (s : State) : State :=
  (s.showRefusal s.refuseMask).report evUpdateRefused s.refuseMask

/-- An offer that this module holds whole is judged. -/
def State.judge (s : State) (f : ImageFlow) (alone : Bool) : State :=
  if s.acceptsOffer f.head alone then (s.startWriting f.head).setFlow { f with accepted := true }
  else (s.setFlow f).noteRefusal

/-- The whole offer: judged, unless it is one sent again, and acknowledged; the copy passed on waits for its own
acknowledgement. -/
def State.wholeOffer (s : State) (h : RelayHdr) (id : Nat) (parts : Tab (List Byte)) : State :=
  let s0 := { s with aon := { s.aon with offer := none } }
  match s0.flow id with
  | some f => s0.ackChunk f offerIndex
  | none =>
    let f : ImageFlow := { head := { offerHead (headerOf parts) with imageId := BitVec.ofNat 32 id }, offer := parts, src := h.src,
                           dst := h.dst, hops := s.hopsOn h, up := !h.down,
                           unacked := (if s.hopsOn h = 0 then [] else [(offerIndex, 0, s.now)]) }
    (s0.judge f (s0.aloneHere h)).ackChunk f offerIndex

/-- One frame of an offer. -/
def State.offerFrame (s : State) (h : RelayHdr) (id o : Nat) (b : List Byte) : State :=
  let old := match s.aon.offer with | some p => if p.imageId = id then some p else none | none => none
  let p : OfferPart := match old with
    | some p => { p with parts := tabSet p.parts o b }
    | none => { imageId := id, parts := [(o, b)], at_ := s.now }
  if p.parts.length = 4 then s.wholeOffer h id p.parts else { s with aon := { s.aon with offer := some p } }

/-- IMG_OFFER (R352, R357). -/
def imgOffer (h : RelayHdr) (imageId : W32) (o : Nat) (b : List Byte) (s : State) : State :=
  s.relayFrame h rtImgOffer (imgBytes imageId.toNat o b) fun t =>
    if t.aon.level = .bootRom || !([0, 1024, 2048, 3072].contains o) || b.length ≠ 1024 || !(h.down || t.aloneHere h) then t
    else t.offerFrame h imageId.toNat o b

/-- OFFER_PARTIAL_DISCARD (R352): 500 ms after its first frame. -/
def offerPartialDiscard (s : State) : State :=
  match s.aon.offer with
  | some p => if p.at_ + 500000 ≤ s.now then { s with aon := { s.aon with offer := none } } else s
  | none => s

/-! ## Chunks (R356, R358) -/

/-- SHAKE256 over the image from byte 4,096 on. -/
def State.imageDigest (s : State) : BitVec 512 :=
  Config.shake256 (s.region 4096 (s.regionLength - 4096))

/-- The last chunk is written: STAGED if IMAGE_DIGEST matches; a module in RECOVERY starts the image (R362). -/
def State.imageWritten (s : State) (x : ImageHead) (boot : Option (AonFacts × StartFacts)) : State :=
  let s1 := { s with nv := { s.nv with image := { s.nv.image with complete := true } } }
  let ok := s1.imageDigest == x.digest
  if s1.update = usRecovery then
    match ok, boot with
    | true, some b =>
      let s2 := s1.coreOff
      ({ s2 with aon := { s2.aon with flows := [], offer := none } }).loaderStart b.1 b.2
    | _, _ => s1
  else s1.setUpdate (if ok then usStaged else usIncomplete)

/-- Chunk `k` is written to flash: counted, and the write ends there when a refusal state has arisen. -/
def State.writeChunk (s : State) (f : ImageFlow) (k : Nat) (boot : Option (AonFacts × StartFacts)) : State :=
  let frames := (chunkOffsets f.head.length k).map fun o => (o, tabGetD f.buffer o [])
  let data := frames.foldl (fun t e => tabSet t e.1 e.2) s.nv.image.data
  let s1 := ({ s with nv := { s.nv with image := { s.nv.image with data := data } } }).addSat MGT_UPDATE MGT_UPDATE_CHUNKS 1
  if f.got.length = chunkCount f.head.length then s1.imageWritten f.head boot
  else if s1.update = usWriting && s1.refuseMask ≠ 0 then
    ((s1.setFlow { f with accepted := false }).noteRefusal).setUpdate usIncomplete
  else s1

/-- A chunk has arrived whole: it is written where the offer was accepted, passed on and acknowledged. -/
def State.chunkArrived (s : State) (f : ImageFlow) (k : Nat) (boot : Option (AonFacts × StartFacts)) : State :=
  let g := { f with got := f.got ++ [k], waiting := f.waiting ++ [k] }
  let s1 := s.setFlow g
  let writing := f.accepted && (s1.update == usWriting || s1.update == usRecovery)
  if writing && s1.update == usRecovery then ((s1.pumpFlow f.head.imageId.toNat).writeChunk g k boot)
  else ((if writing then s1.writeChunk g k boot else s1).pumpFlow f.head.imageId.toNat)

/-- One frame of an image; a chunk received before is only acknowledged again. -/
def State.dataFrame (s : State) (f : ImageFlow) (o : Nat) (b : List Byte) (boot : Option (AonFacts × StartFacts)) : State :=
  let k := o / chunkSize
  if f.got.contains k then (if chunkOffsets f.head.length k |>.getLast? |>.any (· == o) then s.ackChunk f k else s)
  else
    let g := { f with buffer := tabSet f.buffer o b }
    if (chunkOffsets f.head.length k).all fun x => (tabGet? g.buffer x).isSome then s.chunkArrived g k boot else s.setFlow g

/-- IMG_DATA (R358). Frames of an image whose offer this module has not held are forwarded as they come; those of an image
that it passes on go with their chunk. -/
def imgData (h : RelayHdr) (imageId : W32) (o : Nat) (b : List Byte) (a : AonFacts) (sf : StartFacts) (s : State) : State :=
  match s.flow imageId.toNat with
  | some f =>
    if s.aon.level = .off then s
    else if !(h.crcOk && h.tagOk) then { s with aon := { s.aon with relayDropped := s.aon.relayDropped + 1 } }
    else if f.injected || f.own || !(s.concerns h) || o % frameSize ≠ 0 || f.head.length ≤ o ||
        b.length ≠ min frameSize (f.head.length - o) then s.relayFrame h rtImgData (imgBytes imageId.toNat o b) id
    else s.dataFrame f o b (some (a, sf))
  | none => s.relayFrame h rtImgData (imgBytes imageId.toNat o b) id

/-- IMG_ACK (R358): a chunk, or the offer, passed on is acknowledged from the next module. -/
def imgAck (h : RelayHdr) (imageId : W32) (k : Nat) (s : State) : State :=
  match s.flow imageId.toNat with
  | some f =>
    if s.aon.level = .off then s
    else if !(h.crcOk && h.tagOk) then { s with aon := { s.aon with relayDropped := s.aon.relayDropped + 1 } }
    else if h.down == f.up && f.unacked.any (fun u => u.1 == k) then
      (s.setFlow { f with
        unacked := f.unacked.filter fun u => u.1 != k
        buffer := dropChunk f.buffer k }).pumpFlow imageId.toNat
    else s.relayFrame h rtImgAck (leBytes 4 imageId.toNat ++ leBytes 4 k) id
  | none => s.relayFrame h rtImgAck (leBytes 4 imageId.toNat ++ leBytes 4 k) id

/-- An image is abandoned: a write under way ends INCOMPLETE. -/
def State.abandon (s : State) (f : ImageFlow) : State :=
  let s1 := s.dropFlow f.head.imageId.toNat
  if f.accepted && s1.update = usWriting then s1.setUpdate usIncomplete else s1

/-- IMG_END (R356). -/
def imgEnd (h : RelayHdr) (imageId : W32) (abandoned : Bool) (s : State) : State :=
  s.relayFrame h rtImgEnd (endBytes imageId.toNat abandoned) fun t =>
    match t.flow imageId.toNat with
    | some f => if f.injected || f.own then t else if abandoned then t.abandon f else t.endFlow imageId.toNat
    | none => t

/-- The chunk, or offer, of an image that has waited 500 ms for its acknowledgement. -/
def State.overdue (s : State) (k : Nat) : Option (ImageFlow × Nat) :=
  s.aon.flows.findSome? fun e =>
    match e.2.unacked.find? fun u => u.1 == k && decide (u.2.2 + 500000 ≤ s.now) with
    | some u => some (e.2, u.2.1)
    | none => none

/-- CHUNK_RESEND (R358): sent again whole, up to 4 times; then the sender sends IMG_END abandoned and passes nothing more on. -/
def chunkResend (k : Nat) (s : State) : State :=
  match s.overdue k with
  | none => s
  | some (f, tries) =>
    if tries < 4 then
      (s.sendChunk f k).setFlow { f with unacked := f.unacked.map fun u => if u.1 = k then (k, u.2.1 + 1, s.now) else u }
    else
      let s1 := s.sendAbandon f
      if f.own then s1.dropFlow f.head.imageId.toNat
      else (s1.setFlow { f with hops := 0, unacked := [] }).pumpFlow f.head.imageId.toNat

/-! ## Recovery (R362) -/

/-- Does a slot's last STATUS, of the last second, show an update state? -/
def State.shows (s : State) (slot update : Nat) : Bool :=
  match tabGet? s.aon.modules slot with
  | some m => m.update == update && decide (s.now < m.seenAt + 1000000)
  | none => false

/-- Is this module the nearest one in IDLE to a slot, looked for upstream of it first, which is at lower slots, and then
downstream? -/
def State.nearestIdle (s : State) (slot : Nat) : Bool :=
  s.update == usIdle &&
    if s.slot < slot then (List.range slot).all fun k => k ≤ s.slot || !(s.shows k usIdle)
    else (List.range s.slot).all fun k => k == slot || !(s.shows k usIdle)

/-- The flow of an image that this module originates to one slot. -/
def State.recoveryFlow (s : State) (slot : Nat) : ImageFlow :=
  { head := { imageId := BitVec.ofNat 32 (s.fld MGT_IMAGE MGT_IMAGE_IMAGE_ID), length := s.regionLength, digest := 0 }
    offer := [0, 1024, 2048, 3072].map fun o => (o, s.regionFrame o)
    src := s.slot, dst := slot, hops := 47, up := decide (slot < s.slot), own := true
    waiting := List.range (chunkCount s.regionLength)
    unacked := [(offerIndex, 0, s.now)] }

/-- RECOVERY_IMAGE_SEND: the nearest module in IDLE sends its image region to a module in RECOVERY, addressed to it. -/
def recoveryImageSend (slot : Nat) (s : State) : State :=
  if s.aon.level = .pedestal && slot < 48 && slot ≠ s.slot && !s.aon.slotInvalid && s.shows slot usRecovery && s.nearestIdle slot &&
      (s.flow (s.fld MGT_IMAGE MGT_IMAGE_IMAGE_ID)).isNone then
    (s.sendChunk (s.recoveryFlow slot) offerIndex).setFlow (s.recoveryFlow slot)
  else s

/-! ## IMAGE_INJECT (R358, R369) -/

/-- The class words: CHUNKS written and the update state. -/
def State.injectWords (s : State) : Nat := s.fld MGT_UPDATE MGT_UPDATE_CHUNKS + 2 ^ 32 * s.update

/-- The injection under way on a ring. -/
def State.injectWork (s : State) (r : Nat) : Option Work :=
  s.hif.works.find? fun w => w.ring == r && w.cls == clAdmin && w.op == 0x30

/-- The injected image. -/
def State.injected (s : State) : Option ImageFlow := (s.aon.flows.find? fun e => e.2.injected).map (·.2)

/-- The fields of an IMAGE_INJECT. -/
def injectFieldsOk (d : Desc) : Bool :=
  dZero d 9 39 && dZero d 60 4 && decide (dF d 48 8 % 4096 = 0) && inR 4096 imageMax (dF d 56 4)

/-- The four parts of the header. -/
def partsOf (b : List Byte) : Tab (List Byte) := [0, 1024, 2048, 3072].map fun o => (o, (b.drop o).take 1024)

/-- The header has been read: the image is judged as an offer is, and offered down the chain. -/
def State.injectHead (s : State) (r : Nat) (f : Fetched) (b : List Byte) : State :=
  let x := { offerHead b with length := dF f.desc 56 4 }
  let ok := (bf b 0 4 == 0x5746514B) && decide (x.imageId ≠ 0) && (s.injected).isNone && (s.flow x.imageId.toNat).isNone &&
    s.acceptsOffer x false
  if !ok then (if s.refuseMask = 0 then s else s.noteRefusal).rejectWith r f stAccessDenied (2 ^ 32 * s.update)
  else
    let on := if s.linkLive false && !s.aon.slotInvalid then 47 else 0
    let g : ImageFlow := { head := x, offer := partsOf b, src := s.slot, dst := 0xFF, hops := on, accepted := true, injected := true,
                           unacked := (if on = 0 then [] else [(offerIndex, 0, s.now)]) }
    let s1 := ((s.startWriting x).setFlow g).sendChunk g offerIndex
    (s1.popHead r).addWork (mkWork r f 0x30 .running)

/-- The next chunk has been read: written here, passed on, and after the last one the descriptor completes. -/
def State.injectChunk (s : State) (w : Work) (g : ImageFlow) (b : List Byte) : State :=
  let k := g.got.length
  let os := chunkOffsets g.head.length k
  let buf := os.foldl (fun t o => tabSet t o ((b.drop (o - chunkSize * k)).take frameSize)) g.buffer
  let s1 := s.chunkArrived { g with buffer := buf } k none
  if s1.update = usWriting then s1
  else if s1.update = usStaged then s1.complete w stDone 0 s1.injectWords
  else if k + 1 = chunkCount g.head.length then s1.complete w stDone 0 s1.injectWords
  else (s1.endInject).complete w stAccessDenied 0 s1.injectWords

/-- The read of an injected image's next chunk goes out. -/
def State.askChunk (s : State) (r : Nat) (w : Work) (g : ImageFlow) : State :=
  s.hostAsk (s.servingFn r) (dF w.desc 48 8 + chunkSize * g.got.length) (min chunkSize (g.head.length - chunkSize * g.got.length))

/-- IMAGE_INJECT: its admission with the header read from host memory, and then one chunk after another. -/
def imageInject (r : Nat) (rd : HostRd) (s : State) : State :=
  match s.injectWork r, s.injected with
  | some w, some g =>
    if 2 ≤ g.waiting.length then s
    else (match rd with
    | .error e => (((s.askChunk r w g).noteHostErr r e).endInject).complete w (hostErrStatus e) 0 ((s.endInject).injectWords)
    | .data b =>
      let n := min chunkSize (g.head.length - chunkSize * g.got.length)
      if b.length < n then s else (s.hostReceived (s.servingFn r) (dF w.desc 48 8 + chunkSize * g.got.length) n).injectChunk w g (b.take n))
  | _, _ =>
    s.withAdmin r 0x30 (onMgmt r) fun f =>
      if !(injectFieldsOk f.desc) then s.reject r f stBadDescriptor
      else match rd with
        | .error e => ((s.hostAsk (s.servingFn r) (dF f.desc 48 8) 4096).noteHostErr r e).rejectWith r f (hostErrStatus e) s.injectWords
        | .data b => if b.length < 4096 then s else (s.hostReceived (s.servingFn r) (dF f.desc 48 8) 4096).injectHead r f (b.take 4096)

end Sys2Proof.Machine
end

