-- ==== Sys2Proof/Machine/Monitor.lean ====
section
/-! DEFINITION. The MON block: event counters, bandwidth windows, histogram units and the trace port (Performance Counters,
Histograms and Cast Capture, R371 to R378). -/

namespace Sys2Proof.Machine

/-! ## Event counters (R372, R374) -/

/-- The events of Table 3: for a listed code, how many units it has (none without a unit), and whether it has a context. -/
def evInfo (code : Nat) : Option (Option Nat × Bool) :=
  if inR 0x01 0x08 code then some (some 64, true)
  else if inR 0x10 0x13 code then some (some 12, true)
  else if code = 0x14 then some (some 12, false)
  else if inR 0x18 0x1B code then some (some 8, true)
  else if inR 0x20 0x23 code then some (none, true)
  else if inR 0x28 0x29 code then some (some 3, true)
  else if code = 0x2A then some (some 3, false)
  else if inR 0x30 0x32 code then some (none, true)
  else if code = 0x38 then some (some 8, false)
  else if code = 0x39 then some (none, false)
  else if code = 0x3A then some (none, true)
  else if code = 0x3B then some (none, false)
  else none

/-- Does a selection write pass the checks of R372? -/
def selectOk (v : W64) : Bool :=
  match evInfo (getBits v MON_CNT_SEL_EVENT) with
  | none => false
  | some (units, ctx) =>
    (match units with
      | none => getBits v MON_CNT_SEL_UNIT_EN == 0
      | some n => decide (getBits v MON_CNT_SEL_UNIT < n)) &&
    (ctx || getBits v MON_CNT_SEL_CTX_EN == 0)

/-- The fields of a selection, reserved bits zero. -/
def selectWord (v : W64) : W64 :=
  putBits (putBits (putBits (putBits (putBits 0 MON_CNT_SEL_CTX_EN (getBits v MON_CNT_SEL_CTX_EN)) MON_CNT_SEL_CTX
    (getBits v MON_CNT_SEL_CTX)) MON_CNT_SEL_UNIT_EN (getBits v MON_CNT_SEL_UNIT_EN)) MON_CNT_SEL_UNIT
    (getBits v MON_CNT_SEL_UNIT)) MON_CNT_SEL_EVENT (getBits v MON_CNT_SEL_EVENT)

/-- A write of MON_CNT_SEL: the counter clears and the new selection starts, or BAD_SELECT. A selection without CTX_EN clears
the counter's COMPAT bit (R374). -/
def State.selectWrite (s : State) (i : Nat) (v : W64) : State :=
  if selectOk v then
    let s1 := (s.setReg (MON_CNT_SEL i) (selectWord v)).setReg (MON_CNT i) 0
    if getBits v MON_CNT_SEL_CTX_EN = 0 then s1.setMaskBit MON_CTRL MON_CTRL_COMPAT i false else s1
  else s.setBit MON_ERR_STATUS MON_ERR_STATUS_BAD_SELECT true

/-- CLEAR_ALL (R372, R375). -/
def State.clearCounters (s : State) : State :=
  (s.each (List.range 16) fun t i => t.setReg (MON_CNT i) 0).each (List.range 20) fun t k => t.setReg (MON_BW k) 0

/-- A write of COMPAT: a bit whose selection has CTX_EN clear is refused (R374). -/
def State.compatWrite (s : State) (v : Nat) : State :=
  s.each (List.range 16) fun t i =>
    let want := v / 2 ^ i % 2 = 1
    if want && !(t.bit (MON_CNT_SEL i) MON_CNT_SEL_CTX_EN) then
      (t.setMaskBit MON_CTRL MON_CTRL_COMPAT i false).setBit MON_ERR_STATUS MON_ERR_STATUS_COMPAT_REFUSED true
    else t.setMaskBit MON_CTRL MON_CTRL_COMPAT i want

/-- A write of MON_CTRL; COMPAT is locked by the setup lock. -/
def State.monCtrlWrite (s : State) (v : W64) (locked : Bool) : State :=
  let s1 := (s.setFld MON_CTRL MON_CTRL_COUNT_EN (getBits v MON_CTRL_COUNT_EN)).setFld MON_CTRL MON_CTRL_HIST_FREEZE
    (getBits v MON_CTRL_HIST_FREEZE)
  let s2 := if getBits v MON_CTRL_CLEAR_ALL = 1 then s1.clearCounters else s1
  if locked then s2 else s2.compatWrite (getBits v MON_CTRL_COMPAT)

/-- The mirror of a counter in a context's window (R374). -/
def State.mirror (s : State) (c i : Nat) : W64 :=
  if s.maskBit MON_CTRL MON_CTRL_COMPAT i && s.bit (MON_CNT_SEL i) MON_CNT_SEL_CTX_EN && s.fld (MON_CNT_SEL i) MON_CNT_SEL_CTX == c
  then s.reg (MON_CNT i) else 0

/-! ## Bandwidth windows (R375) -/

/-- A write of WINDOW: every window starts again. -/
def State.windowWrite (s : State) (v : W64) : State :=
  { s.setFld MON_BW_CTRL MON_BW_CTRL_WINDOW (getBits v MON_BW_CTRL_WINDOW) with mon := { s.mon with bw := [], bwAt := s.now } }

/-- The length of a window in microseconds. DESIGN CHOICE (notes/assumptions/30.md): a reserved code acts as the longest. -/
def State.windowUs (s : State) : Nat := 10 ^ min 4 (s.fld MON_BW_CTRL MON_BW_CTRL_WINDOW)

/-- BW_WINDOW_END: LAST and PEAK of every port, once the window's time is over; the next window starts where it ended. -/
def bwWindowEnd (s : State) : State :=
  if s.isOn .hcx && decide (s.mon.bwAt + s.windowUs ≤ s.now) then
    let s1 := s.each (List.range 20) fun t k =>
      let n := min 0xFFFFFFFF (tabGetD s.mon.bw k 0)
      (t.setFld (MON_BW k) MON_BW_LAST n).setFld (MON_BW k) MON_BW_PEAK (max n (t.fld (MON_BW k) MON_BW_PEAK))
    { s1 with mon := { s1.mon with bw := [], bwAt := s.now - (s.now - s.mon.bwAt) % s.windowUs } }
  else s

/-! ## Histograms (R376) -/

/-- Clear a unit as ENABLE is set. -/
def State.histClear (s : State) (h : Nat) : State :=
  let s1 := s.each (List.range 16) fun t b => t.clearReg (MON_HIST_BIN h b)
  (((s1.clearReg (MON_HIST_MINMAX h)).clearReg (MON_HIST_COUNT h)).clearReg (MON_HIST_OVER h)).clearReg (MON_HIST_DROPPED h)

/-- The fields of a configuration, reserved bits zero; a WIDTH of 0 is taken as 1. -/
def histWord (v : W64) : W64 :=
  let w := getBits v MON_HIST_CFG_WIDTH
  let a := putBits (putBits (putBits 0 MON_HIST_CFG_ENABLE (getBits v MON_HIST_CFG_ENABLE)) MON_HIST_CFG_LOG
    (getBits v MON_HIST_CFG_LOG)) MON_HIST_CFG_SOURCE (getBits v MON_HIST_CFG_SOURCE)
  putBits (putBits (putBits (putBits (putBits a MON_HIST_CFG_CTX_EN (getBits v MON_HIST_CFG_CTX_EN)) MON_HIST_CFG_CTX
    (getBits v MON_HIST_CFG_CTX)) MON_HIST_CFG_UNIT_EN (getBits v MON_HIST_CFG_UNIT_EN)) MON_HIST_CFG_UNIT
    (getBits v MON_HIST_CFG_UNIT)) MON_HIST_CFG_WIDTH (if w = 0 then 1 else w)

/-- A write of MON_HIST_CFG: enabled and cleared, or ignored with CONFIG_BUSY where it changes another field of a unit that
is enabled. -/
def State.histWrite (s : State) (h : Nat) (v : W64) : State :=
  let o := MON_HIST_CFG h
  let new := histWord v
  if s.bit o MON_HIST_CFG_ENABLE then
    if putBits new MON_HIST_CFG_ENABLE 1 = s.reg o then s.setReg o new
    else s.setBit MON_ERR_STATUS MON_ERR_STATUS_CONFIG_BUSY true
  else
    let s1 := s.setReg o new
    if getBits v MON_HIST_CFG_ENABLE = 1 then s1.histClear h else s1

/-! ## The trace port (R378) -/

/-- TIME of a record: TRC clocks of 2.5 ns since module reset. -/
def State.trcTime (s : State) : Nat := 400 * s.now

/-- The 32 bytes of record `n`. -/
def traceBytes (e : TraceEv) (time n log2 : Nat) : List Byte :=
  leBytes 8 time ++ leBytes 1 e.kind ++ leBytes 1 e.ctx ++ leBytes 2 e.ring ++ leBytes 4 e.seq.toNat ++ leBytes 4 e.tag.toNat ++
    leBytes 4 e.arg.toNat ++ leBytes 7 0 ++ [if recordPhase log2 n then 0x80 else 0]

/-- A record is written to the host ring, or dropped where STOP_FULL finds the ring full; WRITTEN runs free. -/
def State.traceWrite (s : State) (e : TraceEv) : State :=
  let n := s.fld MON_TRACE_HEAD MON_TRACE_HEAD_WRITTEN
  let log2 := s.fld MON_TRACE_CTRL MON_TRACE_CTRL_LOG2_RECORDS
  let unread := (BitVec.ofNat 32 n - BitVec.ofNat 32 (s.fld MON_TRACE_TAIL MON_TRACE_TAIL_READ)).toNat
  if s.bit MON_TRACE_CTRL MON_TRACE_CTRL_STOP_FULL && unread == 2 ^ log2 then s.traceDrop
  else
    (s.hostWrite 0 ((s.reg MON_TRACE_BASE).toNat + 32 * (n % 2 ^ log2)) (traceBytes e s.trcTime n log2)).addWrap MON_TRACE_HEAD
      MON_TRACE_HEAD_WRITTEN 1

/-- The queue of records drains: one record per TRC clock, and a microsecond holds 400 of them. -/
def State.traceDrain (s : State) : State :=
  s.mon.trace.foldl State.traceWrite { s with mon := { s.mon with trace := [] } }

/-- TRACE_RECORD: a TRC clock in which the queue's oldest record is written. Events queue theirs as they occur (State.trace);
the command and the tick drain the queue (DESIGN CHOICE, notes/assumptions/30.md). -/
def traceRecord (s : State) : State :=
  match s.mon.trace with
  | [] => s
  | e :: es => ({ s with mon := { s.mon with trace := es } }).traceWrite e

/-! ## The tick (notes/assumptions/3.md) -/

/-- What a microsecond without a command does: the local uptime advances (MGT_UPTIME), FAB_CLOCK events occur, and the trace
queue drains. Nothing runs without AON power or in a Cast freeze. -/
def State.tick (s : State) : State :=
  if !s.aon.rails || s.aon.cast.frozen then s
  else
    let s1 := s.setReg MGT_UPTIME (s.reg MGT_UPTIME + 1)
    (if s1.isOn .hcx then (s1.count 0x3B 0 0 640).traceDrain else s1).updateLines

end Sys2Proof.Machine
end

