-- ==== Sys2Proof/Machine/Bus.lean ====
section
/-! DEFINITION. Register accesses: how a register reads, what a write does, and the errors of an access (Krequel KQM-3264 at
a Glance, R6 to R8; Module and Die Organisation, R23, R25, R26, R28 to R30; Host Interface, R235). -/

namespace Sys2Proof.Machine

/-! ## Registers that show state held elsewhere -/

/-- A bit of a word. -/
def flag (b : Bool) (f : Bits) : Nat := if b then 2 ^ f.lo else 0

/-- A field of a word. -/
def fieldAt (v : Nat) (f : Bits) : Nat := v % 2 ^ (f.hi - f.lo + 1) * 2 ^ f.lo

/-- HIF_CTX_STATUS[c]. -/
def State.ctxStatus (s : State) (c : Nat) : Nat :=
  flag (s.vfServed c) HIF_CTX_STATUS_VF_SERVED + flag (s.ctx c).scrubbing HIF_CTX_STATUS_SCRUBBING +
    flag (s.partOf c).isSome HIF_CTX_STATUS_HOLDS_PART + fieldAt c HIF_CTX_STATUS_CTX +
    fieldAt (s.ringsOn c) HIF_CTX_STATUS_RINGS_ON

/-- HIF_CTX_HALTED[c][i]. -/
def State.haltedWord (s : State) (c i : Nat) : Nat :=
  ((List.range 32).map fun b => if (s.ring (128 * c + 32 * i + b)).halted then 2 ^ b else 0).sum

/-- A submission ring register: ENABLE and HALTED are the ring's. -/
def State.sqWord (s : State) (off r : Nat) : W64 :=
  putBits (putBits (s.reg off) HIF_SQ_HALTED (if (s.ring r).halted then 1 else 0)) HIF_SQ_ENABLE
    (if (s.ring r).enabled then 1 else 0)

/-- SEC_PART[p]. -/
def State.secPart (s : State) (p : Nat) : Nat :=
  let x := s.part p
  flag (x.clusters ≠ 0) SEC_PART_VALID + flag (s.sentPart p) SEC_PART_SENTINEL + flag x.switching SEC_PART_SWITCHING +
    flag x.current.isSome SEC_PART_CURRENT_VALID + fieldAt (x.current.getD 0) SEC_PART_CURRENT_CTX + fieldAt x.slice SEC_PART_SLICE +
    fieldAt x.clusters.toNat SEC_PART_CLUSTERS

/-- SEC_CTX[c]. -/
def State.secCtx (s : State) (c : Nat) : Nat :=
  let x := s.ctx c
  let cur := (List.range 8).any fun p => (s.part p).current == some c
  flag (x.keys ≠ []) SEC_CTX_OWNER_KEY + flag x.debugPermit SEC_CTX_DEBUG_PERMIT + flag (s.partOf c).isSome SEC_CTX_HOLDS_PART +
    flag cur SEC_CTX_CURRENT + fieldAt ((s.partOf c).getD 0) SEC_CTX_PARTITION +
    fieldAt ((x.keys.map fun k => 2 ^ k.1).sum) SEC_CTX_KEY_VALID + fieldAt x.prots.length SEC_CTX_PROT_REGIONS

/-- A grant or protected region of a context. -/
def regionWord (base len slot : Nat) : Nat :=
  2 ^ 63 + fieldAt slot SEC_PROT_KEY_SLOT + fieldAt (len / twoMiB) SEC_REGION_LEN_2M + fieldAt (base / twoMiB) SEC_REGION_BASE_2M
def State.grantWord (s : State) (c i : Nat) : Nat :=
  match tabGet? (s.ctx c).grants i with | some g => regionWord g.1 g.2 0 | none => 0
def State.protWord (s : State) (c j : Nat) : Nat :=
  match tabGet? (s.ctx c).prots j with | some p => regionWord p.base p.len p.slot | none => 0

/-- KVP_FRAMES, KVP_STATUS and KVP_SEQ_INFO. -/
def State.framesWord (s : State) : Nat :=
  let d := s.kv.frames.filter fun e => e.2.size4k != 0
  fieldAt d.length KVP_FRAMES_DEFINED + fieldAt (d.filter fun e => e.2.state != 0).length KVP_FRAMES_MAPPED +
    fieldAt (d.filter fun e => e.2.state == 0).length KVP_FRAMES_FREE
def seqCode : SeqState → Nat
  | .unregistered => 0
  | .active => 1
  | .swappingOut => 2
  | .swapped => 3
  | .swappingIn => 4
def State.kvpStatus (s : State) : Nat :=
  flag s.kv.checking.isSome KVP_STATUS_PFT_BUSY +
    fieldAt (s.kv.seqs.filter fun e => e.2.state != .unregistered).length KVP_STATUS_SEQ_COUNT
def State.seqInfo (s : State) (q : Nat) : Nat :=
  let x := s.seq q
  if x.state = .unregistered then 0
  else fieldAt (seqCode x.state) KVP_SEQ_INFO_STATE + fieldAt x.ctx KVP_SEQ_INFO_CTX + fieldAt x.prio KVP_SEQ_INFO_PRIO +
    fieldAt x.length KVP_SEQ_INFO_LENGTH + fieldAt x.pages.length KVP_SEQ_INFO_FRAMES + fieldAt x.holds KVP_SEQ_INFO_HOLDS

/-- STN_STATUS. -/
def State.stnStatus (s : State) : W64 :=
  putBits (putBits (s.reg STN_STATUS) STN_STATUS_MODELS s.stn.models.length) STN_STATUS_CHANNELS s.enabledChans.length

/-- VCD_STREAM_INFO and VCD_STREAM_CPB of the stream shown. -/
def State.streamInfo (s : State) (k : Nat) : Nat :=
  match tabGet? s.vcd.streams k with
  | some x => 2 ^ 63 + flag x.encode VCD_STREAM_INFO_ENCODE + fieldAt x.codec VCD_STREAM_INFO_CODEC +
      fieldAt x.ctx VCD_STREAM_INFO_CTX + fieldAt x.shownUse.toNat VCD_STREAM_INFO_SLOTS_IN_USE +
      fieldAt x.pictures VCD_STREAM_INFO_PICTURES
  | none => 0
def State.streamCpb (s : State) (k : Nat) : Nat :=
  match tabGet? s.vcd.streams k with
  | some x => if x.encode && x.rateMode != 0 then x.f else 0
  | none => 0

/-- HUB_STATUS[c] (Table 16 of Tiles, Matrix Engines and Kernel Execution). -/
def State.hubStatus (s : State) (c : Nat) : Nat :=
  let p := s.clusterPart c
  let cur := match p with | some k => (s.part k).current.getD 0 | none => 0
  let tiles := fun b : Bits => ((List.range 8).map fun i => if s.bit (TILE_STATUS (8 * c + i)) b then 2 ^ i else 0).sum
  flag p.isSome HUB_STATUS_PART_VALID + fieldAt (p.getD 0) HUB_STATUS_PARTITION +
    fieldAt (s.fld (PWR_CLU c) PWR_CLU_MARGIN_CLASS) HUB_STATUS_MARGIN_CLASS + fieldAt cur HUB_STATUS_OWNER_CTX +
    fieldAt (tiles TILE_STATUS_RUNNING) HUB_STATUS_TILE_RUNNING + fieldAt (tiles TILE_STATUS_CLAIMED) HUB_STATUS_TILE_CLAIMED

/-- Is the role gate closed (R328)? -/
def State.gateShown (s : State) : Bool :=
  s.role == roleIsolated || (s.bit OLP_PAIR OLP_PAIR_ROLE_GATE && (s.role == roleStandby || s.role == roleSwapping ||
    s.bit OLP_ROLE OLP_ROLE_SWAP_DUE))

/-- OLP_ROLE with HEALTH_OK and GATE. -/
def State.roleWord (s : State) : W64 :=
  putBits (putBits (s.reg OLP_ROLE) OLP_ROLE_HEALTH_OK (if s.healthOk then 1 else 0)) OLP_ROLE_GATE (if s.gateShown then 1 else 0)

/-- A HIF or SEC register. -/
def State.hifRead (s : State) (off : Nat) : W64 :=
  if off = HIF_MGMT_SQ then s.sqWord off mgmtRing
  else if off < 0x18000 then s.reg off
  else
    let c := (off - 0x18000) / 0x400
    let o := (off - 0x18000) % 0x400
    if o = 0 then BitVec.ofNat 64 (s.ctxStatus c)
    else if o = 0x10 then s.sqWord off (128 * c)
    else if 0x30 ≤ o && o < 0x40 then BitVec.ofNat 64 (s.haltedWord c ((o - 0x30) / 4))
    else if 0x100 ≤ o then s.mirror c ((o - 0x100) / 8)
    else s.reg off
def State.secRead (s : State) (off : Nat) : W64 :=
  if off = SEC_FUSE_STATE then BitVec.ofNat 64 fuseState
  else if off = SEC_FW_MIN_SVN then BitVec.ofNat 64 s.minSvn
  else if off = SEC_DEBUG_PERMIT then BitVec.ofNat 64 s.debugMask
  else if 0x20040 ≤ off && off < 0x20060 then BitVec.ofNat 64 (s.secPart ((off - 0x20040) / 4))
  else if 0x20060 ≤ off && off < 0x20080 then (s.part ((off - 0x20060) / 4)).ctxMask.zeroExtend 64
  else if 0x20100 ≤ off && off < 0x20180 then BitVec.ofNat 64 (s.secCtx ((off - 0x20100) / 4))
  else if 0x20200 ≤ off && off < 0x20300 then s.tenancy ((off - 0x20200) / 8)
  else if 0x21000 ≤ off && off < 0x22000 then BitVec.ofNat 64 (s.grantWord ((off - 0x21000) / 0x80) ((off - 0x21000) % 0x80 / 8))
  else if 0x22000 ≤ off && off < 0x23000 then BitVec.ofNat 64 (s.protWord ((off - 0x22000) / 0x80) ((off - 0x22000) % 0x80 / 8))
  else s.reg off

/-- BANK_STATE of a bank: CLEAR_LEFT counts the words still to write down, one for each clock of its cluster (R93). -/
def State.bankStateWord (s : State) (g : Nat) : W64 :=
  let gone := (s.now - (s.bankSt g).clearAt) * s.fld (GLB_CLU_FREQ (g / 64)) GLB_CLU_FREQ_MHZ
  if s.bankClearing g then putBits (s.reg (bankState g)) BANK_STATE_CLEAR_LEFT (16384 - min gone 16384) else s.reg (bankState g)

/-- What a register of a block reads. -/
def State.blockRead (s : State) (b : Block) (off : Nat) : W64 :=
  match b with
  | .glb =>
    if off = GLB_CLK_DOMAIN_STATUS0 then BitVec.ofNat 64 (s.clockWord 0 32)
    else if off = GLB_CLK_DOMAIN_STATUS1 then BitVec.ofNat 64 (s.clockWord 32 28)
    else s.reg off
  | .hif => s.hifRead off
  | .sec => s.secRead off
  | .olp => if off = OLP_ROLE then s.roleWord else s.reg off
  | .pwr => if off = PWR_SHUTDOWN then putBits (s.reg off) PWR_SHUTDOWN_LEFT s.stopLeft else s.reg off
  | .vrd => if off = VRD_STATUS then putBits (s.reg off) VRD_STATUS_TX_ON (if s.txOn then 1 else 0) else s.reg off
  | .mgt => if off = MGT_STATE then s.mgtState else s.reg off
  | .stn =>
    let n := s.fld STN_CHAN_SELECT STN_CHAN_SELECT_CHANNEL
    if off = STN_STATUS then s.stnStatus
    else if off = STN_CHAN_STATUS then BitVec.ofNat 64 (s.chanStatus n)
    else if off = STN_CHAN_COUNTS then BitVec.ofNat 64 (s.chanCounts n)
    else if off = STN_CHAN_ESTIMATE then (s.chan n).est.zeroExtend 64
    else if off = STN_CHAN_SCORE then (s.chan n).score.zeroExtend 64
    else s.reg off
  | .vcd =>
    let k := s.fld VCD_STREAM_SELECT VCD_STREAM_SELECT_STREAM
    if off = VCD_STATUS then putBits (s.reg off) VCD_STATUS_STREAMS s.vcd.streams.length
    else if off = VCD_STREAM_INFO then BitVec.ofNat 64 (s.streamInfo k)
    else if off = VCD_STREAM_CPB then BitVec.ofNat 64 (s.streamCpb k)
    else s.reg off
  | .kvp =>
    if off = KVP_STATUS then BitVec.ofNat 64 s.kvpStatus
    else if off = KVP_FRAMES then BitVec.ofNat 64 s.framesWord
    else if off = KVP_SEQ_INFO then BitVec.ofNat 64 (s.seqInfo (s.fld KVP_SEQ_SELECT KVP_SEQ_SELECT_SEQ_ID))
    else s.reg off
  | .hub c => if off = HUB_STATUS c then BitVec.ofNat 64 (s.hubStatus c) else s.reg off
  | .tile t =>
    match (tileBanks t).find? fun g => bankState g == off with
    | some g => s.bankStateWord g
    | none => s.reg off
  | .pft => (s.frame ((off - 0x3000000) / 32)).word (off % 32 / 8)
  | _ => s.reg off

/-- What a register reads. -/
def State.regRead (s : State) (off : Nat) : W64 :=
  match blockAt off with
  | some (b, _) => s.blockRead b off
  | none => 0

/-! ## Errors of an access (R7, R26, R28, R29, Table 12) -/

/-- An access sets error bits of GLB_ERR_STATUS; GLB_ERR_ADDR keeps the offset of the first. -/
def State.glbErr (s : State) (bits : List Bits) (off : Nat) : State :=
  if bits = [] then s
  else
    let s1 := if s.reg GLB_ERR_STATUS = 0 then s.setFld GLB_ERR_ADDR GLB_ERR_ADDR_OFFSET off else s
    bits.foldl (fun t b => t.setBit GLB_ERR_STATUS b true) s1

/-- The switched domain that serves a block; none for what the always-on domain serves (Table 8). DESIGN CHOICE
(notes/assumptions/22.md): Table 8 gives the VCD window to PD_V0 to PD_V7 together; here PD_V0 serves it, and its registers
are lost with that core. -/
def blockDomain : Block → Option Domain
  | .glb => none
  | .pwr => none
  | .vrd => none
  | .mgt => none
  | .hif => some .hcx
  | .sec => some .hcx
  | .mon => some .hcx
  | .olp => some .hcx
  | .stn => some .hcx
  | .kvp => some .hcx
  | .pft => some .hcx
  | .vcd => some (.codec 0)
  | .mem m => some (.mem m)
  | .tile t => some (.tile t)
  | .hub c => some (.hub c)

/-- Is the domain that serves a block ON? -/
def State.blockOn (s : State) (b : Block) : Bool :=
  match blockDomain b with
  | some d => s.isOn d
  | none => true

/-- The start of the register that covers an offset, with its row. -/
def regCover (off : Nat) : Option (Nat × RegRow) :=
  match regFind (off / 4 * 4) with
  | some r => some (off / 4 * 4, r)
  | none =>
    match regFind (off / 8 * 8) with
    | some r => if r.wide then some (off / 8 * 8, r) else none
    | none => none

/-- Width of a register in bits. -/
def RegRow.width (r : RegRow) : Nat := if r.wide then 64 else 32

/-- Is an access of legal width and alignment for what it lands on (R29)? -/
def accessFits (off bits : Nat) : Bool :=
  (bits == 32 || bits == 64) && off % (bits / 8) == 0 &&
    match regCover off with
    | some (o, r) => o == off && r.width == bits
    | none => true

/-! ## Writes -/

/-- Is the setup lock set (R7)? -/
def State.setupLocked (s : State) : Bool := s.bit GLB_SETUP_LOCK GLB_SETUP_LOCK_LOCK

/-- A write as the access codes give it; a locked field counts as LOCKED_WRITE. -/
def State.plainWrite (s : State) (off : Nat) (r : RegRow) (v : W64) : State :=
  let w := writeFields s.setupLocked v r.flds (s.reg off)
  (s.setReg off w.1).glbErr (if w.2 then [GLB_ERR_STATUS_LOCKED_WRITE] else []) off

/-- A write of a register whose fields are locked by the setup lock: `k` while it is clear. -/
def State.lockedOr (s : State) (off : Nat) (k : State) : State :=
  if s.setupLocked then s.glbErr [GLB_ERR_STATUS_LOCKED_WRITE] off else k

/-- A write of MEM_PATROL: HOURS 0 is ignored, and a sweep is in progress while ENABLE is set on a channel that is ON
(R260, Table 17 of Host Interface). -/
def State.patrolWrite (s : State) (m off : Nat) (r : RegRow) (v : W64) : State :=
  let s1 := s.plainWrite off r
    (if getBits v MEM_PATROL_HOURS = 0 then putBits v MEM_PATROL_HOURS (s.fld off MEM_PATROL_HOURS) else v)
  s1.setBit (MEM_STATUS m) MEM_STATUS_PATROL_RUN (s1.isOn (.mem m) && s1.bit off MEM_PATROL_ENABLE)

/-- A write of a tile's BANK_PWR_POLICY (R91). -/
def State.policyWrite (s : State) (t off : Nat) (r : RegRow) (v : W64) : State :=
  s.lockedOr off ((s.plainWrite off r v).setFreeOff t (getBits v BANK_PWR_POLICY_FREE_OFF == 1))

/-- A write of a HIF register. -/
def State.hifWrite (s : State) (fn off : Nat) (r : RegRow) (v : W64) : State :=
  if off = HIF_MGMT_SQ then s.sqWrite mgmtRing v
  else if off = HIF_MGMT_CQ then s.cqWrite mgmtRing v
  else if off < 0x18000 then s.plainWrite off r v
  else
    let c := (off - 0x18000) / 0x400
    let o := (off - 0x18000) % 0x400
    if o = 0x8 then versionSelectWrite fn c (v.truncate 32) s
    else if o = 0x10 then s.sqWrite (128 * c) v
    else if o = 0x18 then s.cqWrite (128 * c) v
    else s.plainWrite off r v

/-- A write of a MON register. -/
def State.monWrite (s : State) (off : Nat) (r : RegRow) (v : W64) : State :=
  if off = MON_CTRL then (s.monCtrlWrite v s.setupLocked).glbErr (if s.setupLocked then [GLB_ERR_STATUS_LOCKED_WRITE] else []) off
  else if off = MON_BW_CTRL then s.windowWrite v
  else if 0x40010 ≤ off && off < 0x40090 then s.selectWrite ((off - 0x40010) / 8) v
  else if 0x40400 ≤ off && off < 0x40800 && off % 0x80 = 0 then s.histWrite ((off - 0x40400) / 0x80) v
  else s.plainWrite off r v

/-- A write of STN_CTRL; CLUSTER and CTX are locked by the setup lock (R189). -/
def State.stnWrite (s : State) (v : W64) : State :=
  if s.setupLocked then
    let keep := s.reg STN_CTRL
    let w := putBits keep STN_CTRL_ENABLE (getBits v STN_CTRL_ENABLE)
    (s.stnCtrlWrite (w.truncate 32)).glbErr [GLB_ERR_STATUS_LOCKED_WRITE] STN_CTRL
  else s.stnCtrlWrite (v.truncate 32)

/-- The effect of a write on the register at `off`. -/
def State.regWrite (s : State) (fn off : Nat) (b : Block) (r : RegRow) (v : W64) : State :=
  match b with
  | .glb =>
    if off = GLB_SETUP_LOCK then
      (if getBits v GLB_SETUP_LOCK_SET = 1 then s.setBit GLB_SETUP_LOCK GLB_SETUP_LOCK_LOCK true else s)
    else s.plainWrite off r v
  | .hif => s.hifWrite fn off r v
  | .mon => s.monWrite off r v
  | .stn => if off = STN_CTRL then s.stnWrite v else s.plainWrite off r v
  | .mem m => if off % 0x1000 = 0x20 then s.patrolWrite m off r v else s.plainWrite off r v
  | .tile t => if off = BANK_PWR_POLICY t then s.policyWrite t off r v else s.plainWrite off r v
  | .pwr =>
    if off = PWR_POLICY && getBits v PWR_POLICY_AIR_STOP_S < 10 then s.plainWrite off r (putBits v PWR_POLICY_AIR_STOP_S 10)
    else s.plainWrite off r v
  | .pft => if off % 32 = 0 then pftWrite 0 ((off - 0x3000000) / 32) v s else s.pftRefuse ((off - 0x3000000) / 32)
  | _ => s.plainWrite off r v

/-! ## Accesses (R26, R28, R29, R235) -/

/-- A 32-bit register takes the low half of a write. -/
def narrowTo (r : RegRow) (v : W64) : W64 := if r.wide then v else (v.truncate 32).zeroExtend 64

/-- An access that lands on a register of a domain that is ON. -/
def State.regAccess (s : State) (fn off : Nat) (b : Block) (r : RegRow) (acc : RegAccess) : State :=
  match acc with
  | .read => s.regData fn off acc (s.regRead off)
  | .write v => s.regWrite fn off b r (narrowTo r v)

/-- Is an offset in the context window that a VF reaches? -/
def inVfWindow (v off : Nat) : Bool := decide (1 ≤ v) && decide (0x18000 + 0x400 * (v - 1) ≤ off) && decide (off < 0x18000 + 0x400 * v)

/-- An access by a VF: silent outside its window (R28, R235). -/
def State.vfAccess (s : State) (v off bits : Nat) (acc : RegAccess) : State :=
  match regFind off with
    | some r =>
      if inVfWindow v off && accessFits off bits then s.regAccess v off .hif r acc
      else s.regData v off acc 0
    | none => s.regData v off acc 0

/-- An access by the PF, or by Pedestal firmware (function 33). -/
def State.pfAccess (s : State) (fn off bits : Nat) (acc : RegAccess) : State :=
  match regCover off, blockAt off with
  | some (_, r), some (b, _) =>
    if !(accessFits off bits) then (s.glbErr [GLB_ERR_STATUS_NARROW_ACCESS] off).regData fn off acc 0
    else if !(s.blockOn b) then (s.glbErr [GLB_ERR_STATUS_OFF_DOMAIN_ACCESS] off).regData fn off acc 0
    else s.regAccess 0 off b r acc
  | _, _ =>
    let narrow := if accessFits off bits then [] else [GLB_ERR_STATUS_NARROW_ACCESS]
    (s.glbErr (GLB_ERR_STATUS_UNMAPPED_ACCESS :: narrow) off).regData fn off acc 0

/-- Function number of Pedestal firmware's own accesses. -/
def fnPedestal : Nat := 33

/-- An access by a function. Offsets from 0 are those of BAR0; BAR2 follows at 0x400_0000, BAR4 at 0x440_0000 and configuration
space at 0x450_0000 (DESIGN CHOICE, notes/assumptions/27.md). -/
def State.fnAccess (s : State) (fn off bits : Nat) (acc : RegAccess) : State :=
  if off < 0x4000000 then (if fn = 0 then s.pfAccess 0 off bits acc else s.vfAccess fn off bits acc)
  else if off < 0x4400000 then
    match acc with
    | .read => s.regData fn off acc 0
    | .write v => s.bar2Write fn (off - 0x4000000) bits v
  else if off < 0x4410000 then s.bar4Access fn (off - 0x4400000) off bits acc
  else if inR 0x4500000 0x4500FFF off then s.cfgAccess fn (off - 0x4500000) off bits acc
  else s

/-- REGISTER_WRITE (R6, R28, R29, R233, R234, R238): an access of a function needs PD_HCX and the link, and its payload is
counted; Pedestal firmware reaches BAR0 alone. -/
def registerWrite (fn off bits : Nat) (acc : RegAccess) (s : State) : State :=
  if fn = fnPedestal then (if s.aon.level = .pedestal && decide (off < 0x4000000) then s.pfAccess fn off bits acc else s)
  else if !(s.isOn .hcx && s.linkUp) || decide (s.numVf < fn) then s
  else match acc with
    | .read => (s.fnAccess fn off bits .read).tlpOut fn (bits / 8)
    | .write v => (s.tlpIn fn (bits / 8)).fnAccess fn off bits (.write v)

/-- A write that a command of its own names. -/
def State.writeBy (s : State) (fn off : Nat) (v : W64) : State :=
  match regFind off with
  | some r => registerWrite fn off r.width (.write v) s
  | none => s

/-- GLB_SETUP_LOCK_SET (R7). -/
def glbSetupLockSet (fn : Nat) (v : W32) (s : State) : State := s.writeBy fn GLB_SETUP_LOCK (v.zeroExtend 64)

/-- A write of FREE_OFF alone, the other fields of BANK_PWR_POLICY as they are (R91). -/
def State.writeFreeOff (s : State) (t : Nat) (v : Bool) : State :=
  if t < 64 then
    s.writeBy 0 (BANK_PWR_POLICY t) (putBits (s.reg (BANK_PWR_POLICY t)) BANK_PWR_POLICY_FREE_OFF (if v then 1 else 0))
  else s

/-- FREE_OFF_SET (R91). -/
def freeOffSet (t : Nat) (s : State) : State := s.writeFreeOff t true

/-- FREE_OFF_CLEAR (R91). -/
def freeOffClear (t : Nat) (s : State) : State := s.writeFreeOff t false

/-! ## Domains by command (R22 to R27) -/

/-- Does the domain still hold admitted work (R24)? Every address range of DRAM is spread over the twelve channels (R17), so
any work that runs, and the Sentinel while it serves, holds every channel. -/
def State.domainBusy (s : State) (d : Domain) : Bool :=
  match d with
  | .tile t =>
    (s.tile t).claim.isSome || s.bit (TILE_STATUS t) TILE_STATUS_CLAIMED ||
      s.sentCluster == some (tileCluster t) ||
      (tileBanks t).any fun g => s.heldBanks.contains g || !(s.bankSt g).quiet ||
        s.bit (bankState g) BANK_STATE_WAKING || s.bankClearing g || s.bankHandover g
  | .hub c => (s.hub c).claim.isSome || !(s.hub c).setQueue.isEmpty || s.sentCluster == some c
  | .mem _ => (s.hif.works.any fun w => w.cls != clFence && w.cls != clAbort && w.cls != clHint) || s.stnRunning
  | .codec v => (s.hif.works.any fun w => w.cls == clCodec) || (decide (v = 0) && !s.vcd.streams.isEmpty)
  | .port p => s.hif.works.any fun w =>
      (s.dmaWindows w).any (fun i => i / 16 == p) || (w.kern.isSome && kXmod w.desc && decide (p ≠ 0))
  | .hcx => !s.hif.works.isEmpty || s.stnRunning

/-- Is any Page Frame Table entry defined (R166)? -/
def State.anyFrame (s : State) : Bool := s.kv.frames.any fun e => e.2.size4k != 0

/-- May a domain be switched ON (R23)? -/
def State.mayPowerOn (s : State) (d : Domain) : Bool :=
  match d with
  | .tile t => s.isOn .hcx && s.isOn (.hub (tileCluster t))
  | .hcx => s.aon.core
  | _ => s.isOn .hcx

/-- May a domain be switched OFF (R23, R24)? -/
def State.mayPowerOff (s : State) (d : Domain) : Bool :=
  !(s.domainBusy d) &&
    match d with
    | .hub c => !(s.anyTileOn c)
    | .hcx => !s.linkUp && s.phase != phStarting && !s.anyFrame
    | _ => true

/-- Does a register stand in a block of PD_HCX (Table 8)? -/
def hcxBlock (off : Nat) : Bool :=
  match blockAt off with
  | some (b, _) => blockDomain b == some .hcx
  | none => false

/-- PD_HCX goes OFF by itself: what its blocks held is lost, the fuses apart (Tables 6 and 8), the Olper links and the pair
with the OLP block. The switched domains that are ON stay ON; the Verdict Port is the AON domain's. -/
def State.hcxOff (s : State) : State :=
  let s1 := s.endInject
  ({ s1 with
    regs := s1.regs.filter fun p => !(hcxBlock p.1)
    hif := { perstLow := s1.hif.perstLow }
    sec := { base := s1.nv.draws }
    nv := { s1.nv with draws := s1.nv.draws + 64 }
    kv := {}
    vcd := {}
    stn := {}
    pair := { seen := s1.pair.seen }
    olp := {}
    mon := {} }).setOn .hcx false

/-- What switching a domain ON or OFF does beyond its bit. -/
def State.domainSwitchOn (s : State) (d : Domain) : State :=
  match d with
  | .port p => s.startPort p
  | _ => s.powerOn d

def State.domainSwitchOff (s : State) (d : Domain) : State :=
  match d with
  | .port p =>
    let was := s.portState p = portUp
    let s1 := ((s.dropLink p).powerOff (.port p)).setPort p {}
    if was then s1.afterLoss p else s1
  | .hcx => s.hcxOff
  | _ => s.powerOff d

/-- A refused request is logged (R23, R24). -/
def State.domainRefused (s : State) (d : Domain) : State :=
  let pl := domPlace d
  s.log evDomainRefused (pl.1 * 256 + pl.2.lo)

/-- DOMAIN_OFF (R22 to R27): Pedestal firmware's request. -/
def domainOff (d : Domain) (s : State) : State :=
  if !(domValid d) || s.aon.level != .pedestal || !s.isOn d then s
  else if s.mayPowerOff d then s.domainSwitchOff d
  else s.domainRefused d

/-- A memory channel that has not trained: its training is a part of its OFF-to-ON transition, which DDR_TRAINING ends, so
its bit stays clear until then (Table 13). -/
def State.untrained (s : State) (d : Domain) : Bool :=
  match d with
  | .mem m => !(s.bit (MEM_STATUS m) MEM_STATUS_TRAINED)
  | _ => false

/-- DOMAIN_ON (R22 to R27): Pedestal firmware's request; work that waited for the domain runs. -/
def domainOn (d : Domain) (s : State) : State :=
  if !(domValid d) || s.aon.level != .pedestal || s.isOn d || s.untrained d then s
  else if s.mayPowerOn d then (s.domainSwitchOn d).tryLaunches
  else s.domainRefused d

end Sys2Proof.Machine
end

