-- ==== Sys2Proof/Machine/Cast.lean ====
section
/-! DEFINITION. Cast capture and the boundary-scan TAP (Performance Counters, Histograms and Cast Capture, R379 to R382;
Electrical, Optical and Mechanical Characteristics, R389, R391, R395; Stacked Scratchpad Banks, R94). -/

namespace Sys2Proof.Machine

def State.setCast (s : State) (x : Cast) : State := { s with aon := { s.aon with cast := x } }

/-! ## The freeze (R379) -/

/-- A freeze: CAST_FREEZES counts it, the Verdict Port stops with its line pins de-asserted, and every clock stops with the
state held. What Cast reads is attributed by that held state. -/
def State.freeze (s : State) : State :=
  if !s.aon.rails || s.aon.cast.frozen then s
  else (s.setCast { s.aon.cast with frozen := true, freezes := s.aon.cast.freezes + 1 }).setFld VRD_STATUS VRD_STATUS_LINES 0

/-- CAST_N is held low for `lowNanos` (R379, R389): below 960 ns it never takes effect, from 1,040 ns on it always does. -/
def castN (lowNanos : Nat) (s : State) : State :=
  if lowNanos < 960 then s
  else if 1040 ≤ lowNanos then s.freeze
  else if Config.freeBool s.free then s.bump.freeze else s.bump

/-- A module reset that ends a freeze: the rails stay, and the module restarts from step 3 of the AON start with the next
AON_START or, without input, INPUT_RESTORED. CAST_FREEZES shows the freeze until the next reset; the TAP keeps its own
registers. -/
def State.castReset (s : State) : State :=
  let s1 := s.moduleReset
  { s1 with aon := { s1.aon with
    rails := s.aon.rails
    input := s.aon.input
    cast := { s.aon.cast with frozen := false, addr := 0 } } }

/-! ## The freeze and the other commands -/

/-- The reset comparator, the over-voltage cut-off and the loss of input end a freeze. -/
def State.castInput (s : State) (surge : Bool) : State :=
  let s1 := s.castReset
  { s1 with aon := { s1.aon with input := false, overVoltage := surge } }

/-- The Tj trip ends a freeze; the trip is shown and a fresh permit is asked for (R301, R400). -/
def State.castTrip (s : State) (sensor : Nat) : State :=
  if 85 ≤ sensor then s
  else (((s.castReset).setBit PWR_TRIP PWR_TRIP_TRIPPED true).setFld PWR_TRIP PWR_TRIP_SENSOR sensor).askFresh true

/-! ## The TAP (R380, Table 10) -/

def tiExtest : BitVec 8 := 0x00
def tiIdcode : BitVec 8 := 0x01
def tiSample : BitVec 8 := 0x02
def tiFreeze : BitVec 8 := 0x20
def tiAddr : BitVec 8 := 0x21
def tiData : BitVec 8 := 0x22
def tiRelease : BitVec 8 := 0x23
def tiBypass : BitVec 8 := 0xFF

/-- An instruction reaches Update-IR: any but EXTEST stops driving the pins from the cells. -/
def State.tapInstr (s : State) (i : BitVec 8) : State :=
  s.setCast { s.aon.cast with instr := i, driven := false, tckAt := some s.now }

/-- The TAP has power with the AON rails. -/
def State.onTap (s : State) (k : State → State) : State := if s.aon.rails then k s else s

/-- CAST_FREEZE (R379). -/
def castFreeze (s : State) : State := s.onTap fun t => (t.tapInstr tiFreeze).freeze

/-- CAST_RELEASE (R379): a module reset, in a freeze only. -/
def castRelease (s : State) : State :=
  s.onTap fun t => let t1 := t.tapInstr tiRelease; if t1.aon.cast.frozen then t1.castReset else t1

/-- CAST_ADDR (R381): outside a freeze the data register captures zero. -/
def castAddr (v : BitVec 48) (s : State) : State :=
  s.onTap fun t =>
    let old := if t.aon.cast.frozen then t.aon.cast.addr.toNat else 0
    let t1 := (t.tapInstr tiAddr).emit (.tdo 48 old)
    t1.setCast { t1.aon.cast with addr := v }

/-! ## Attribution and read-out (R381, R382, Table 11) -/

/-- The fixed pattern. -/
def castPattern : W64 := 0xCA57CA57CA57CA57

/-- What Cast attributes an item to: its context where there is one, the frozen content, and whether Table 11 or an
undecided owner patterns it. -/
structure CastItem where
  ctx : Option Nat := none
  data : W64 := 0
  hidden : Bool := false
  /-- is the word uncorrectable: where the state does not say, it is open -/
  bad : Option Bool := some false
  deriving DecidableEq, Repr

/-- A bank word. -/
def State.castBank (s : State) (a : Nat) : CastItem :=
  if 2 ^ 29 ≤ a then { hidden := true }
  else
    let g := bankOf a
    let word := BitVec.ofNat 64 (leNat (s.bankRead (a / 8 * 8) 8))
    let owner := if s.bankValid g then some (s.bankCtx g)
      else if !(s.bankClean g) then some (s.fld (bankOwner g) BANK_OWNER_LAST_CTX) else none
    { ctx := owner
      data := if owner.isSome then word else 0
      hidden := s.bankHandover g || s.bankClearing g
      bad := some (s.badGroup (a / 8 * 8) 8).isSome }

/-- Whom a tile's state and sequencer cache belong to. -/
def State.castTileCtx (s : State) (t : Nat) : Option Nat :=
  if s.bit (TILE_STATUS t) TILE_STATUS_CLAIMED || s.fld (TILE_STATUS t) TILE_STATUS_PLACE_KEY != 0 then
    some (s.fld (TILE_STATUS t) TILE_STATUS_OWNER_CTX)
  else match s.clusterPart (tileCluster t) with
    | some p => (s.part p).current
    | none => none

/-- A word of a tile's state image, or of its sequencer cache; their contents are not documented. -/
def State.castTile (s : State) (t : Nat) : CastItem :=
  match (if t < 64 then s.castTileCtx t else none) with
  | some c => { ctx := some c, data := s.freeWord, bad := none }
  | none => { hidden := true }

/-- A line of a slice, or its tag, which stands after the 4 MiB of lines: slot `16 · set + way`. -/
def State.castSlice (s : State) (m off : Nat) : CastItem :=
  let slot := if off < 0x400000 then off / 64 else (off - 0x400000) / 8
  if 12 ≤ m || 0x10000 ≤ slot then { hidden := true }
  else match (tabGetD s.mem.lines (m * 4096 + slot / 16) [])[slot % 16]? with
    | some (line, c, _) =>
      { ctx := some c
        data := if off < 0x400000 then BitVec.ofNat 64 (leNat (s.dramRead c (line * 64 + off % 64 / 8 * 8) 8)) else s.freeWord
        hidden := (s.ctx c).scrubbing
        bad := none }
    | none => { hidden := true }

/-- A hub's state: an index names the Set Engine or a look-aside entry, and the manual does not say which, so it is shown
only where every candidate's context permits it. -/
def State.castHub (s : State) (c : Nat) : CastItem :=
  if 8 ≤ c then { hidden := true }
  else
    let owner := match (s.hub c).claim with
      | some w => some (ringCtxD w.1)
      | none => match s.clusterPart c with
        | some p => (s.part p).current
        | none => none
    { ctx := owner
      data := s.freeWord
      hidden := owner.isNone || (s.hub c).buffer.any (fun e => !(s.ctx e.ctx).debugPermit)
      bad := none }

/-- A word of the register space: a 64-bit register, or the two 32-bit registers at its halves, as the PF reads them. -/
def State.castReg (s : State) (off : Nat) : CastItem :=
  let hidden := inR 0x20000 0x2FFFF off
  match regFind off with
  | some r =>
    if r.wide then { data := s.regRead off, hidden := hidden }
    else { data := BitVec.ofNat 64 ((s.regRead off).toNat % 2 ^ 32 + (match regFind (off + 4) with
      | some r2 => if r2.wide then 0 else (s.regRead (off + 4)).toNat % 2 ^ 32 * 2 ^ 32
      | none => 0)), hidden := hidden }
  | none => { hidden := hidden }

/-- The item at an address of a space; another space is patterned with CTX 0 and OWNED clear. -/
def State.castItem (s : State) (a : BitVec 48) : CastItem :=
  let space := a.toNat / 2 ^ 44
  let x := a.toNat % 2 ^ 44
  if space = 0 then s.castBank x
  else if space = 1 then s.castTile (x / 2 ^ 24)
  else if space = 2 then s.castTile (x / 2 ^ 16)
  else if space = 3 then s.castSlice (x / 2 ^ 24) (x % 2 ^ 24)
  else if space = 4 then s.castHub (x / 2 ^ 24)
  else if space = 5 then s.castReg x
  else { hidden := true }

/-- Is an item returned as the fixed pattern (R382)? -/
def State.castHides (s : State) (i : CastItem) : Bool :=
  Config.debugClosed || i.hidden || (match i.ctx with | some c => !(s.ctx c).debugPermit | none => false)

/-- The 72 bits that CAST_DATA captures. The state knows the uncorrectable words of the banks; in the other memories UE is open.
The raw bits of such a word are free. -/
def State.castWord (s : State) (i : CastItem) : Nat :=
  let ue := i.bad.getD (Config.freeBool (s.free + 1))
  let hides := s.castHides i
  let d := if hides then castPattern else if ue then Config.freeWord (s.free + 2) else i.data
  d.toNat * 2 ^ 8 + (if i.ctx.isSome then 2 ^ 7 else 0) + (i.ctx.getD 0) % 32 * 4 + (if ue then 2 else 0) + (if hides then 1 else 0)

/-- The address after one read: ADDRESS advances by 8 in SPACE. -/
def castNext (a : BitVec 48) : BitVec 48 :=
  BitVec.ofNat 48 (a.toNat / 2 ^ 44 * 2 ^ 44 + (a.toNat % 2 ^ 44 + 8) % 2 ^ 44)

/-- CAST_DATA (R381, R382): one Capture-DR. -/
def castData (s : State) : State :=
  s.onTap fun t =>
    let t1 := t.tapInstr tiData
    if t1.aon.cast.frozen then
      let a := t1.aon.cast.addr
      let t2 := t1.emit (.tdo 72 (t1.castWord (t1.castItem a)))
      ({ t2 with free := t2.free + 3 }).setCast { t2.aon.cast with addr := castNext a }
    else t1.emit (.tdo 72 0)

/-! ## Boundary scan (R380, R395) -/

/-- Does EXTEST take effect? -/
def State.extestActs (s : State) : Bool :=
  s.aon.cast.frozen || s.phase == phAonStart || s.phase == phWaitPermit || s.phase == phFailed

/-- May cells 8 and 13 enable the verdict lines and the outputs beside them? -/
def State.cellsMayEnable (s : State) : Bool := s.extestActs && !s.aon.cast.frozen && !s.aon.permit

/-- The levels that the boundary-scan cells capture: the pins whose level the state holds, and free levels for the others. RLY_BYPASS_N,
cell 9, is low while the TAP has power (R393). -/
def State.pins (s : State) : BitVec 32 :=
  let known : BitVec 32 := 0x1B002FF
  let lines := BitVec.ofNat 32 (s.fld VRD_STATUS VRD_STATUS_LINES)
  let bitAt (i : Nat) (b : Bool) : BitVec 32 := if b then BitVec.ofNat 32 (2 ^ i) else 0
  let held := lines ||| bitAt 20 (!s.hif.perstLow) ||| bitAt 21 s.aon.permit ||| bitAt 23 s.aon.reserveOk ||| bitAt 24 (!s.aon.latch)
  (held &&& known) ||| ((s.freeWord.truncate 32) &&& ~~~known)

/-- The boundary-scan register shifts: what it captured comes out, and the new cells go in. -/
def State.shiftCells (s : State) (cells : BitVec 32) : State :=
  let s1 := (s.emit (.tdo 32 s.pins.toNat)).bump
  s1.setCast { s1.aon.cast with cells := cells }

/-- EXTEST (R380, R395): where it takes no effect it acts as BYPASS. -/
def extest (cells : BitVec 32) (s : State) : State :=
  s.onTap fun t =>
    let t1 := t.tapInstr tiExtest
    if t1.extestActs then
      let held := if t1.cellsMayEnable then cells else cells &&& ~~~(0x2100#32)
      let t2 := t1.shiftCells held
      t2.setCast { t2.aon.cast with driven := true }
    else t1.emit (.tdo 1 0)

/-- The identity of stepping A1. -/
def idcodeWord : Nat := 0x1 * 2 ^ 28 + 0x3264 * 2 ^ 12 + Config.jedecId.toNat * 2 + 1

/-- IDCODE (R380). -/
def idcode (s : State) : State := s.onTap fun t => (t.tapInstr tiIdcode).emit (.tdo 32 idcodeWord)

/-- SAMPLE/PRELOAD (R380). -/
def samplePreload (cells : BitVec 32) (s : State) : State := s.onTap fun t => (t.tapInstr tiSample).shiftCells cells

/-- Does a code select BYPASS: its own, or one that Table 10 does not list? -/
def selectsBypass (code : BitVec 8) : Bool :=
  !([tiExtest, tiIdcode, tiSample, tiFreeze, tiAddr, tiData, tiRelease].contains code)

/-- BYPASS (R380): one bit, captured as 0. -/
def bypass (code : BitVec 8) (s : State) : State :=
  if selectsBypass code then s.onTap fun t => (t.tapInstr tiBypass).emit (.tdo 1 0) else s

/-- TAP_RESET (R380): TMS held high for five clocks. -/
def tapReset (s : State) : State := s.onTap fun t => t.tapInstr tiIdcode

end Sys2Proof.Machine
end

