-- ==== Sys2Proof/Machine/Commands.lean ====
section
/-! DEFINITION. The meaning of every command, one definition each: the operation of its family's file, with the conditions
under which the module acts at all (Module and Die Organisation, R12, R22; Performance Counters, Histograms and Cast Capture,
R379). After every command the line pins show what the new state gives them (R205).
Every meaning is total: a command for which the state gives no occasion changes nothing (notes/assumptions/1.md). -/

namespace Sys2Proof.Machine

/-! ## When the module acts -/

/-- A command of the always-on domain: AON rails in regulation, and no Cast freeze. -/
def State.whenLive (s : State) (k : State → State) : State :=
  if s.aon.rails && !s.aon.cast.frozen then (k s).updateLines else s

/-- A command of the switched domains: core rails up, and no Cast freeze. Demand errors that reach the limit of R259 then
start UE_FAILOVER. -/
def State.whenCore (s : State) (k : State → State) : State :=
  if s.aon.core && !s.aon.cast.frozen then (s.checkUe (k s)).updateLines else s

/-- A command that starts the always-on domain. -/
def State.whenThawed (s : State) (k : State → State) : State := if s.aon.cast.frozen then s else (k s).updateLines

/-- The object of a SENT command that loads none. -/
def noObj : ObjFacts :=
  { signed := false, wrapper := .openCode, version := 0, digest := 0, entries := [], model := none }

/-- A SOLO module whose frames stopped on a link loss sends again when a channel is next enabled (R335). -/
def State.resumeSolo (s after : State) : State :=
  if after.vrd.silent && after.role == roleSolo && after.stnRunning &&
      after.enabledChans.any (fun n => !(s.enabledChans.contains n)) then after.takeSolo 0
  else after

/-! ## Registers, start and domains -/

/-- REGISTER_WRITE (R6). A write to configuration space may change what serves a context, as SERVING_FUNCTION_CHANGE does. -/
def execRegisterWrite (fn : Nat) (off : Nat) (bits : Nat) (acc : RegAccess) (s : State) : Ans :=
  .next (s.whenLive (fun t =>
    if off < 0x4500000 then registerWrite fn off bits acc t else (registerWrite fn off bits acc t).refreshHints))

/-- GLB_SETUP_LOCK_SET (R7). -/
def execGlbSetupLockSet (fn : Nat) (v : W32) (s : State) : Ans := .next (s.whenLive (glbSetupLockSet fn v))

/-- AON_START (R343). -/
def execAonStart (a : AonFacts) (f : StartFacts) (s : State) : Ans := .next (s.whenThawed (aonStart a f))

/-- HOLDUP_CHARGED (R343). -/
def execHoldupCharged (f : StartFacts) (s : State) : Ans := .next (s.whenLive (holdupCharged f))

/-- INPUT_BELOW_RESET (R12). -/
def execInputBelowReset (s : State) : Ans :=
  .next ((if s.aon.cast.frozen then s.castInput false else inputBelowReset s).updateLines)

/-- INPUT_OVER_VOLTAGE (R386). -/
def execInputOverVoltage (s : State) : Ans :=
  .next ((if s.aon.cast.frozen then s.castInput true else inputOverVoltage s).updateLines)

/-- INPUT_RESTORED (R12). -/
def execInputRestored (a : AonFacts) (f : StartFacts) (s : State) : Ans := .next (s.whenThawed (inputRestored a f))

/-- START_PERMIT (R345). -/
def execStartPermit (f : StartFacts) (s : State) : Ans :=
  .next ((if s.aon.cast.frozen then { s with aon := { s.aon with permit := true } } else startPermit f s).updateLines)

/-- START_PERMIT_WITHDRAWN (R345). -/
def execStartPermitWithdrawn (s : State) : Ans :=
  .next ((if s.aon.cast.frozen then { s with aon := { s.aon with permit := false } } else startPermitWithdrawn s).updateLines)

/-- DDR_TRAINING (R20). -/
def execDdrTraining (ok : BitVec 12) (temp : Int) (ms : BitVec 16) (s : State) : Ans :=
  .next (s.whenCore (ddrTraining ok temp ms))

/-- START_READY (R346). -/
def execStartReady (selfTestOk : Bool) (s : State) : Ans := .next (s.whenCore (startReady selfTestOk))

/-- DOMAIN_OFF (R25). -/
def execDomainOff (d : Domain) (s : State) : Ans := .next (s.whenLive (domainOff d))

/-- DOMAIN_ON (R25). -/
def execDomainOn (d : Domain) (s : State) : Ans := .next (s.whenLive (domainOn d))

/-! ## Kernels and Pointing Engines -/

/-- KERNEL (R57). -/
def execKernel (ring : Nat) (obj : ObjFacts) (s : State) : Ans := .next (s.whenCore (kernelCmd ring obj))

/-- CLAIM_GRANT (R60). -/
def execClaimGrant (part : Nat) (s : State) : Ans := .next (s.whenCore (claimGrant part))

/-- STAGGER_WAVE (R70). -/
def execStaggerWave (cluster : Nat) (s : State) : Ans := .next (s.whenCore (staggerWave cluster))

/-- BARRIER_ARRIVE (R67). -/
def execBarrierArrive (ring : Nat) (seq : Nat) (tile : Nat) (bar : Nat) (queued : BitVec 4) (s : State) : Ans :=
  .next (s.whenCore (barrierArrive ring seq tile bar queued.toNat))

/-- KERNEL_FINISH (R64). -/
def execKernelFinish (ring : Nat) (seq : Nat) (fin : KernelFin) (s : State) : Ans :=
  .next (s.whenCore (kernelFinish ring seq fin))

/-- KERNEL_TIMEOUT (R69). -/
def execKernelTimeout (ring : Nat) (seq : Nat) (s : State) : Ans := .next (s.whenCore (kernelTimeout ring seq))

/-- SEQUENCER_TRAP (R73). -/
def execSequencerTrap (ring : Nat) (seq : Nat) (tile : Nat) (cause : BitVec 8) (s : State) : Ans :=
  .next (s.whenCore (sequencerTrap ring seq tile cause.toNat))

/-- ICACHE_FILL (R74). -/
def execIcacheFill (tile : Nat) (line : Nat) (s : State) : Ans := .next (s.whenCore (icacheFill tile line))

/-- PE_REQUEST (R98). -/
def execPeRequest (tile step q : Nat) (req : PeReq) (s : State) : Ans :=
  .next (s.whenCore (peRequest tile step q req))

/-- FALLBACK_HOLD_EXPIRY (R173). -/
def execFallbackHoldExpiry (cluster : Nat) (s : State) : Ans := .next (s.whenCore (fallbackExpiry cluster))

/-- PE_FILL_RETURN (R99). -/
def execPeFillReturn (tile : Nat) (q : Nat) (ecc : Ecc) (s : State) : Ans := .next (s.whenCore (peFillReturn tile q ecc))

/-! ## Banks -/

/-- BANK_ACCESS_REQUEST (R82). -/
def execBankAccessRequest (bank clock : Nat) (reqs : List BankReq) (ecc : Ecc) (group : Nat) (s : State) : Ans :=
  .next (s.whenCore (fun t => (bankAccessRequest bank clock reqs ecc group t).tryLaunches))

/-- BANK_OWNER_WRITE (R87). -/
def execBankOwnerWrite (bank : Nat) (owner : Option Nat) (s : State) : Ans := .next (s.whenCore (bankOwnerWrite bank owner))

/-- HANDOVER_DRAIN (R87). -/
def execHandoverDrain (bank : Nat) (s : State) : Ans := .next (s.whenCore (fun t => (handoverDrain bank t).tryLaunches))

/-- BANK_WAKE (R90). -/
def execBankWake (bank : Nat) (s : State) : Ans := .next (s.whenCore (fun t => (bankWake bank t).tryLaunches))

/-- BANK_CLEAR (R93). -/
def execBankClear (bank : Nat) (s : State) : Ans := .next (s.whenCore (fun t => (bankClear bank t).tryLaunches))

/-- BANK_IDLE_RET (R91). -/
def execBankIdleRet (bank : Nat) (s : State) : Ans := .next (s.whenCore (bankIdleRet bank))

/-- FREE_OFF_SET (R91). -/
def execFreeOffSet (tile : Nat) (s : State) : Ans := .next (s.whenCore (freeOffSet tile))

/-- FREE_OFF_CLEAR (R91). -/
def execFreeOffClear (tile : Nat) (s : State) : Ans := .next (s.whenCore (freeOffClear tile))

/-! ## Set Engines -/

/-- SET_ENGINE_COMMAND (R111). -/
def execSetEngineCommand (tile : Nat) (cmd : SetCmd) (s : State) : Ans := .next (s.whenCore (setEngineCommand tile cmd))

/-- SET_OPERATION_DONE (R110). -/
def execSetOperationDone (cluster : Nat) (s : State) : Ans := .next (s.whenCore (setOperationDone cluster))

/-- SORT (R114). -/
def execSort (ring : Nat) (s : State) : Ans := .next (s.whenCore (sortCmdHead ring 1))

/-- TOPK (R108). -/
def execTopk (ring : Nat) (s : State) : Ans := .next (s.whenCore (sortCmdHead ring 2))

/-- MERGE (R107). -/
def execMerge (ring : Nat) (s : State) : Ans := .next (s.whenCore (sortCmdHead ring 3))

/-- INTERSECT (R107). -/
def execIntersect (ring : Nat) (s : State) : Ans := .next (s.whenCore (sortCmdHead ring 4))

/-- SEGREDUCE (R109). -/
def execSegreduce (ring : Nat) (s : State) : Ans := .next (s.whenCore (sortCmdHead ring 5))

/-! ## Attention -/

/-- ATTEND (R157). -/
def execAttend (ring : Nat) (s : State) : Ans := .next (s.whenCore (attnCmd ring 1))

/-- VERIFY (R151). -/
def execVerify (ring : Nat) (s : State) : Ans := .next (s.whenCore (attnCmd ring 2))

/-- ACCEPT (R152). -/
def execAccept (ring : Nat) (s : State) : Ans := .next (s.whenCore (attnCmd ring 3))

/-- ATTN_COMMIT (R158). -/
def execAttnCommit (ring : Nat) (seq : Nat) (cycles : Nat) (s : State) : Ans :=
  .next (s.whenCore (attnCommit ring seq cycles))

/-- ATTN_TIMEOUT (R159). -/
def execAttnTimeout (ring : Nat) (seq : Nat) (s : State) : Ans := .next (s.whenCore (attnTimeout ring seq))

/-! ## KV paging -/

/-- PFT_W0_WRITE (R167). -/
def execPftW0Write (fn : Nat) (frame : Nat) (v : W64) (s : State) : Ans :=
  .next (s.whenCore (fun t => t.writeBy fn (PFT_W0 frame) v))

/-- PFT_CHECK_DONE (R167). -/
def execPftCheckDone (s : State) : Ans := .next (s.whenCore pftDone)

/-- SEQ_REGISTER (R180). -/
def execSeqRegister (ring : Nat) (s : State) : Ans := .next (s.whenCore (seqCmd ring 1 (.data [])))

/-- SEQ_EXTEND (R180). -/
def execSeqExtend (ring : Nat) (s : State) : Ans := .next (s.whenCore (seqCmd ring 2 (.data [])))

/-- SEQ_FORK (R180). -/
def execSeqFork (ring : Nat) (s : State) : Ans := .next (s.whenCore (seqCmd ring 3 (.data [])))

/-- SEQ_RELEASE (R180). -/
def execSeqRelease (ring : Nat) (s : State) : Ans := .next (s.whenCore (seqCmd ring 4 (.data [])))

/-- SEQ_PREEMPT (R184). -/
def execSeqPreempt (ring : Nat) (s : State) : Ans := .next (s.whenCore (seqCmd ring 5 (.data [])))

/-- SEQ_SWAP_OUT (R184). -/
def execSeqSwapOut (ring : Nat) (s : State) : Ans := .next (s.whenCore (seqCmd ring 6 (.data [])))

/-- SEQ_SWAP_IN (R185). -/
def execSeqSwapIn (ring : Nat) (image : HostRd) (s : State) : Ans := .next (s.whenCore (seqCmd ring 7 image))

/-- SEQ_REMAP (R180). -/
def execSeqRemap (ring : Nat) (s : State) : Ans := .next (s.whenCore (seqCmd ring 8 (.data [])))

/-- SEQ_START (R181). -/
def execSeqStart (ring : Nat) (seq : Nat) (image : HostRd) (s : State) : Ans :=
  .next (s.whenCore (seqStartCmd ring seq image))

/-- HOLD_END (R182). -/
def execHoldEnd (seqId : Nat) (image : HostRd) (s : State) : Ans := .next (s.whenCore (holdEnd seqId image))

/-- SEQ_FRAME_TIMEOUT (R182). -/
def execSeqFrameTimeout (ring : Nat) (seq : Nat) (s : State) : Ans := .next (s.whenCore (seqTimeout ring seq))

/-- SWAP_IMAGE_FLUSHED (R184). -/
def execSwapImageFlushed (ring : Nat) (seq : Nat) (image : HostRd) (s : State) : Ans :=
  .next (s.whenCore (imageFlushed ring seq image))

/-! ## Stream Sentinel -/

/-- STN_CTRL_ENABLE (R189). -/
def execStnCtrlEnable (v : W32) (s : State) : Ans :=
  .next (s.whenCore (fun t => if v.getLsbD 31 then t.writeBy 0 STN_CTRL (v.zeroExtend 64) else t))

/-- STN_CTRL_DISABLE (R189). -/
def execStnCtrlDisable (v : W32) (s : State) : Ans :=
  .next (s.whenCore (fun t => if v.getLsbD 31 then t else t.writeBy 0 STN_CTRL (v.zeroExtend 64)))

/-- SENTINEL_RUNNING (R189). -/
def execSentinelRunning (s : State) : Ans := .next (s.whenCore sentinelRunning)

/-- SENTINEL_DOORBELL (R194). -/
def execSentinelDoorbell (fn off bits : Nat) (v : W64) (s : State) : Ans :=
  .next (s.whenCore (fun t => sentinelDoorbell fn off bits v (t.tlpIn fn (bits / 8))))

/-- WINDOW_FETCH_DONE (R196). -/
def execWindowFetchDone (chan : Nat) (rd : HostRd) (s : State) : Ans := .next (s.whenCore (windowFetchDone chan rd))

/-- MODEL_DONE (R197). -/
def execModelDone (chan latency : Nat) (s : State) : Ans :=
  .next (s.whenCore (modelDone chan latency))

/-- MODEL_FAULT (R198). -/
def execModelFault (chan : Nat) (kind : FaultKind) (offset : Nat) (s : State) : Ans :=
  .next (s.whenCore (modelFault chan kind offset))

/-- STALE_TIMEOUT (R201). -/
def execStaleTimeout (chan : Nat) (s : State) : Ans := .next (s.whenCore (staleTimeout chan))

/-- SENT_CONFIGURE (R193). -/
def execSentConfigure (ring : Nat) (s : State) : Ans := .next (s.whenCore (sentCmd ring 1 noObj))

/-- SENT_ENABLE (R210). -/
def execSentEnable (ring : Nat) (s : State) : Ans := .next (s.whenCore (fun t => t.resumeSolo (sentCmd ring 2 noObj t)))

/-- SENT_DISABLE (R202). -/
def execSentDisable (ring : Nat) (s : State) : Ans := .next (s.whenCore (sentCmd ring 3 noObj))

/-- SENT_RESET (R202). -/
def execSentReset (ring : Nat) (s : State) : Ans := .next (s.whenCore (sentCmd ring 4 noObj))

/-- SENT_ACK (R200). -/
def execSentAck (ring : Nat) (s : State) : Ans := .next (s.whenCore (sentCmd ring 5 noObj))

/-- SENT_LOAD_MODEL (R197). -/
def execSentLoadModel (ring : Nat) (obj : ObjFacts) (s : State) : Ans := .next (s.whenCore (sentCmd ring 6 obj))

/-- SENT_UNLOAD_MODEL (R210). -/
def execSentUnloadModel (ring : Nat) (s : State) : Ans := .next (s.whenCore (sentCmd ring 7 noObj))

/-- SENT_READ_STATE (R210). -/
def execSentReadState (ring : Nat) (s : State) : Ans := .next (s.whenCore (sentCmd ring 8 noObj))

/-! ## Codec -/

/-- CODEC_REGISTER (R214). -/
def execCodecRegister (ring : Nat) (s : State) : Ans := .next (s.whenCore (codecCmd ring 1))

/-- CODEC_DECODE (R224). -/
def execCodecDecode (ring : Nat) (s : State) : Ans := .next (s.whenCore (codecCmd ring 2))

/-- CODEC_ENCODE (R222). -/
def execCodecEncode (ring : Nat) (s : State) : Ans := .next (s.whenCore (codecCmd ring 3))

/-- CODEC_FLUSH (R226). -/
def execCodecFlush (ring : Nat) (s : State) : Ans := .next (s.whenCore (codecCmd ring 4))

/-- CODEC_UNREGISTER (R221). -/
def execCodecUnregister (ring : Nat) (s : State) : Ans := .next (s.whenCore (codecCmd ring 5))

/-- PICTURE_START (R216). -/
def execPictureStart (shape : PicShape) (s : State) : Ans := .next (s.whenCore (pictureStart shape))

/-- PICTURE_DONE (R221). -/
def execPictureDone (res : PicResult) (s : State) : Ans := .next (s.whenCore (pictureDone res))

/-- PICTURE_TIMEOUT (R225). -/
def execPictureTimeout (s : State) : Ans := .next (s.whenCore pictureTimeout)

/-! ## Host interface -/

/-- PCIE_LINK_UP (R237). -/
def execPcieLinkUp (width : Nat) (speed : Nat) (s : State) : Ans := .next (s.whenCore (pcieLinkUp width speed))

/-- PCIE_LINK_DOWN (R237). -/
def execPcieLinkDown (s : State) : Ans := .next (s.whenCore (fun t => (pcieLinkDown t).refreshHints))

/-- PERST_N (R391). -/
def execPerstN (low : Bool) (s : State) : Ans :=
  .next ((if s.aon.cast.frozen then { s with hif := { s.hif with perstLow := low } } else (perstN low s).refreshHints).updateLines)

/-- VF_FLR (R236). -/
def execVfFlr (v : Nat) (s : State) : Ans := .next (s.whenCore (fun t => (vfFlr v t).refreshHints))

/-- PF_FLR (R236). -/
def execPfFlr (s : State) : Ans := .next (s.whenCore (fun t => (pfFlr t).refreshHints))

/-- SERVING_FUNCTION_CHANGE (R235). -/
def execServingFunctionChange (numVfs : Nat) (enable : Bool) (s : State) : Ans :=
  .next (s.whenCore (fun t => (servingFunctionChange numVfs enable t).refreshHints))

/-- SUBMISSION_TAIL_DOORBELL (R240). -/
def execSubmissionTailDoorbell (fn off bits : Nat) (v : W64) (s : State) : Ans :=
  .next (s.whenCore (submissionTailDoorbell fn off bits v))

/-- COMPLETION_HEAD_DOORBELL (R240). -/
def execCompletionHeadDoorbell (fn off bits : Nat) (v : W64) (s : State) : Ans :=
  .next (s.whenCore (completionHeadDoorbell fn off bits v))

/-- DESCRIPTOR_FETCH (R241). -/
def execDescriptorFetch (ring : Nat) (count : Nat) (rd : HostRd) (s : State) : Ans :=
  .next (s.whenCore (descriptorFetch ring count rd))

/-- HOLDOFF_EXPIRY (R243). -/
def execHoldoffExpiry (ring : Nat) (s : State) : Ans := .next (s.whenCore (holdoffExpiry ring))

/-- DMA_COPY (R249). -/
def execDmaCopy (ring : Nat) (s : State) : Ans := .next (s.whenCore (dmaCmd ring 1))

/-- DMA_FILL (R249). -/
def execDmaFill (ring : Nat) (s : State) : Ans := .next (s.whenCore (dmaCmd ring 2))

/-- DMA_DONE (R250). -/
def execDmaDone (ring : Nat) (seq : Nat) (rd : HostRd) (ecc : Ecc) (byte : Nat) (s : State) : Ans :=
  .next (s.whenCore (dmaDone ring seq rd ecc byte))

/-- FENCE (R248). -/
def execFence (ring : Nat) (s : State) : Ans := .next (s.whenCore (fenceCmd ring))

/-- ABORT (R255). -/
def execAbort (ring : Nat) (rd : HostRd) (s : State) : Ans := .next (s.whenCore (abortCmd ring rd))

/-- RING_CREATE (R257). -/
def execRingCreate (ring : Nat) (s : State) : Ans := .next (s.whenCore (ringCreate ring))

/-- RING_DELETE (R257). -/
def execRingDelete (ring : Nat) (s : State) : Ans := .next (s.whenCore (ringDelete ring))

/-- MGMT_RING_ENABLE (R263). -/
def execMgmtRingEnable (v : W64) (s : State) : Ans := .next (s.whenCore (fun t => t.writeBy 0 HIF_MGMT_SQ v))

/-- CTX_RING_ENABLE (R241). -/
def execCtxRingEnable (fn : Nat) (ctx : Nat) (v : W64) (s : State) : Ans :=
  .next (s.whenCore (fun t => t.writeBy fn (HIF_CTX_SQ0 ctx) v))

/-- VERSION_SELECT_WRITE (R258). -/
def execVersionSelectWrite (fn : Nat) (ctx : Nat) (v : W32) (s : State) : Ans :=
  .next (s.whenCore (fun t => t.writeBy fn (HIF_VERSION_SELECT ctx) (v.zeroExtend 64)))

/-- PATROL_READ (R260). -/
def execPatrolRead (chan : Nat) (ecc : Ecc) (s : State) : Ans := .next (s.whenCore (patrolRead chan ecc))

/-! ## Contexts -/

/-- PART_DEFINE (R265). -/
def execPartDefine (ring : Nat) (s : State) : Ans := .next (s.whenCore (fun t => (partDefine ring t).refreshHints))

/-- PART_SCHEDULE (R266). -/
def execPartSchedule (ring : Nat) (s : State) : Ans := .next (s.whenCore (fun t => (partSchedule ring t).refreshHints))

/-- CTX_GRANT (R269). -/
def execCtxGrant (ring : Nat) (s : State) : Ans := .next (s.whenCore (ctxGrant ring))

/-- CTX_SCRUB (R275). -/
def execCtxScrub (ring : Nat) (s : State) : Ans := .next (s.whenCore (fun t => (ctxScrub ring t).refreshHints))

/-- PROV_REPORT (R280). -/
def execProvReport (ring : Nat) (s : State) : Ans := .next (s.whenCore (provReport ring))

/-- PROV_CERT (R281). -/
def execProvCert (ring : Nat) (s : State) : Ans := .next (s.whenCore (provCert ring))

/-- KEY_INSTALL (R276). -/
def execKeyInstall (ring : Nat) (s : State) : Ans := .next (s.whenCore (keyInstall ring))

/-- KEY_REMOVE (R279). -/
def execKeyRemove (ring : Nat) (s : State) : Ans := .next (s.whenCore (keyRemove ring))

/-- WEIGHT_IMPORT (R277). -/
def execWeightImport (ring : Nat) (s : State) : Ans := .next (s.whenCore (weightImport ring))

/-- CTX_DEBUG (R278). -/
def execCtxDebug (ring : Nat) (s : State) : Ans := .next (s.whenCore (ctxDebug ring))

/-- SLICE_EXPIRY (R267). -/
def execSliceExpiry (part : Nat) (s : State) : Ans := .next (s.whenCore (sliceExpiry part))

/-- TENANT_SWITCH (R268). -/
def execTenantSwitch (part : Nat) (time : Nat) (s : State) : Ans :=
  .next (s.whenCore (fun t => (tenantSwitch part time t).refreshHints))

/-- CONTEXT_BECOMES_CURRENT (R267). -/
def execContextBecomesCurrent (part : Nat) (s : State) : Ans :=
  .next (s.whenCore (fun t => (contextBecomesCurrent part t).refreshHints))

/-- RNG_FAIL (R274). -/
def execRngFail (s : State) : Ans := .next (s.whenCore rngFail)

/-! ## Power -/

/-- POWER_SAMPLE (R283). -/
def execPowerSample (m : PowerMeas) (s : State) : Ans := .next (s.whenLive (powerSample m))

/-- PEAK_PROJECTION (R286). -/
def execPeakProjection (worstUJ : Nat) (s : State) : Ans := .next (s.whenLive (peakProjection worstUJ))

/-- SUPPLY_WARN (R306). -/
def execSupplyWarn (voltage10mV : Nat) (s : State) : Ans := .next (s.whenLive (supplyWarn voltage10mV))

/-- HOLD_RELEASE (R306). -/
def execHoldRelease (voltage10mV : Nat) (micros : Nat) (s : State) : Ans :=
  .next (s.whenLive (holdRelease voltage10mV micros))

/-- TJ_HIGH_STEP (R300). -/
def execTjHighStep (cluster : Nat) (temp : Nat) (s : State) : Ans := .next (s.whenCore (tjHighStep cluster temp))

/-- TJ_TRIP (R301). -/
def execTjTrip (sensor : Nat) (s : State) : Ans :=
  .next ((if s.aon.cast.frozen then s.castTrip sensor else tjTrip sensor s).updateLines)

/-- INLET_SHUTDOWN (R302). -/
def execInletShutdown (s : State) : Ans := .next (s.whenLive inletShutdown)

/-- AIRFLOW_ESTIMATE (R303). -/
def execAirflowEstimate (a : AirFacts) (s : State) : Ans := .next (s.whenLive (airflowEstimate a))

/-- AIR_STOP_COUNTDOWN (R304). -/
def execAirStopCountdown (s : State) : Ans := .next (s.whenLive airStopCountdown)

/-- VOLTAGE_LOOP_UPDATE (R292). -/
def execVoltageLoopUpdate (cluster : Nat) (marginMV : Nat) (slackMHz : Nat) (s : State) : Ans :=
  .next (s.whenCore (voltageLoopUpdate cluster marginMV slackMHz))

/-- DROOP_DETECT (R293). -/
def execDroopDetect (cluster : Nat) (marginMV : Nat) (clocks : Nat) (s : State) : Ans :=
  .next (s.whenCore (droopDetect cluster marginMV clocks))

/-- MODE_CHANGE_CLUSTER (R291). -/
def execModeChangeCluster (cluster : Nat) (s : State) : Ans := .next (s.whenCore (modeChangeCluster cluster))

/-- HINT (R296). -/
def execHint (ring : Nat) (s : State) : Ans := .next (s.whenCore (hintCmd ring))

/-- HINT_EXPIRY (R296). -/
def execHintExpiry (ring : Nat) (seq : Nat) (s : State) : Ans := .next (s.whenCore (hintExpiry ring seq))

/-- ENERGY_ACCUMULATE (R308). -/
def execEnergyAccumulate (parts : List Nat) (ctxs : List Nat) (s : State) : Ans :=
  .next (s.whenLive (energyAccumulate parts ctxs))

/-- POWER_MODE (R291). -/
def execPowerMode (ring : Nat) (s : State) : Ans := .next (s.whenCore (powerMode ring))

/-- ENERGY_SNAPSHOT (R308). -/
def execEnergySnapshot (ring : Nat) (s : State) : Ans := .next (s.whenCore (energySnapshot ring))

/-! ## Olper links, pairs and the Verdict Port -/

/-- PORT_TRAINING (R312). -/
def execPortTraining (port : Nat) (lanes : BitVec 8) (ringsLocked : Bool) (s : State) : Ans :=
  .next (s.whenCore (portTrainingCmd port lanes ringsLocked))

/-- TRAINING_RETRY (R312). -/
def execTrainingRetry (port : Nat) (lanes : BitVec 8) (s : State) : Ans := .next (s.whenCore (trainingRetry port lanes))

/-- HELLO (R313). -/
def execHello (port : Nat) (h : Hello) (s : State) : Ans := .next (s.whenCore (hello port h))

/-- PROOF (R313). -/
def execProof (port : Nat) (p : BitVec 256) (s : State) : Ans := .next (s.whenCore (proof port p))

/-- LIGHT_REGAINED (R313). -/
def execLightRegained (port : Nat) (lanes : BitVec 8) (s : State) : Ans := .next (s.whenCore (lightRegained port lanes))

/-- IDLE (R317). -/
def execIdle (port : Nat) (h : OlpHdr) (s : State) : Ans := .next (s.whenCore (idle port h))

/-- REPLAY_TIMEOUT (R317). -/
def execReplayTimeout (port : Nat) (s : State) : Ans := .next (s.whenCore (replayTimeout port))

/-- LANE_DROP (R314). -/
def execLaneDrop (port : Nat) (lane : Nat) (s : State) : Ans := .next (s.whenCore (laneDrop port lane))

/-- DATA (R320). -/
def execData (port : Nat) (h : OlpHdr) (win : Nat) (offset : Nat) (bytes : List Byte) (s : State) : Ans :=
  .next (s.whenCore (data port h win offset bytes))

/-- BARRIER (R321). -/
def execBarrier (port : Nat) (h : OlpHdr) (ring : Nat) (bar : Nat) (origin : Nat) (gen : W32) (s : State) : Ans :=
  .next (s.whenCore (barrier port h ring bar origin gen))

/-- DIGEST (R337). -/
def execDigest (port : Nat) (h : OlpHdr) (chan : Nat) (block : Nat) (skip : Bool) (d : W64) (s : State) : Ans :=
  .next (s.whenCore (digest port h chan block skip d))

/-- HEARTBEAT_SEND (R329). -/
def execHeartbeatSend (s : State) : Ans := .next (s.whenCore heartbeatSend)

/-- HEARTBEAT (R329). -/
def execHeartbeat (h : OlpHdr) (b : Heart) (s : State) : Ans := .next (s.whenCore (heartbeat h b))

/-- PARTNER_LOST (R329). -/
def execPartnerLost (s : State) : Ans := .next (s.whenCore partnerLost)

/-- STANDBY_WAIT_TIMEOUT (R326). -/
def execStandbyWaitTimeout (s : State) : Ans := .next (s.whenCore standbyWaitTimeout)

/-- SWAP_TIMEOUT (R333). -/
def execSwapTimeout (s : State) : Ans := .next (s.whenCore swapTimeout)

/-- REVERT_TIMER (R333). -/
def execRevertTimer (s : State) : Ans := .next (s.whenCore revertTimer)

/-- LEAVING_TIMEOUT (R335). -/
def execLeavingTimeout (s : State) : Ans := .next (s.whenCore leavingTimeout)

/-- SWAP_DUE (R338). -/
def execSwapDue (s : State) : Ans := .next (s.whenCore swapDue)

/-- SWAP_DEFERRED (R338). -/
def execSwapDeferred (s : State) : Ans := .next (s.whenCore swapDeferred)

/-- PAIR_CONFIG (R339). -/
def execPairConfig (ring : Nat) (s : State) : Ans := .next (s.whenCore (pairConfig ring))

/-- ROLE_SWAP (R333). -/
def execRoleSwap (ring : Nat) (s : State) : Ans := .next (s.whenCore (roleSwap ring))

/-- ISOLATE (R327). -/
def execIsolate (ring : Nat) (s : State) : Ans := .next (s.whenCore (isolate ring))

/-- REJOIN (R327). -/
def execRejoin (ring : Nat) (s : State) : Ans := .next (s.whenCore (rejoin ring))

/-- CASCADE_CONFIG (R319). -/
def execCascadeConfig (ring : Nat) (s : State) : Ans := .next (s.whenCore (cascadeConfig ring))

/-- CASCADE_DEGRADED (R323). -/
def execCascadeDegraded (port : Nat) (s : State) : Ans := .next (s.whenCore (cascadeDegraded port))

/-- WINDOW_OPEN (R320). -/
def execWindowOpen (ring : Nat) (s : State) : Ans := .next (s.whenCore (windowOpen ring))

/-- WINDOW_CLOSE (R339). -/
def execWindowClose (ring : Nat) (s : State) : Ans := .next (s.whenCore (windowClose ring))

/-- LINK_RETRAIN (R312). -/
def execLinkRetrain (ring : Nat) (s : State) : Ans := .next (s.whenCore (linkRetrain ring))

/-- VERDICT_FRAME_SEND (R330). -/
def execVerdictFrameSend (s : State) : Ans := .next (s.whenCore verdictFrameSend)

/-- CLAIM_FRAME_IDLE (R330). -/
def execClaimFrameIdle (s : State) : Ans := .next (s.whenCore claimFrameIdle)

/-- MERGE_FRAME (R331). -/
def execMergeFrame (input : Nat) (bytes : List Byte) (s : State) : Ans := .next (mergeFrame input bytes s)

/-- MERGE_AGE_OUT (R331). -/
def execMergeAgeOut (s : State) : Ans := .next (mergeAgeOut s)

/-- MERGE_EPOCH_RESET (R331). -/
def execMergeEpochReset (s : State) : Ans := .next (mergeEpochReset s)

/-! ## Management -/

/-- TRAY_LATCH_N (R335). -/
def execTrayLatchN (s : State) : Ans :=
  .next ((if s.aon.cast.frozen then { s with aon := { s.aon with latch := false } } else trayLatchN s).updateLines)

/-- ENTDAA (R350). -/
def execEntdaa (addr : Nat) (s : State) : Ans := .next (s.whenLive (entdaa addr))

/-- PLDM_SENSOR_READ (R350). -/
def execPldmSensorRead (sensor : Nat) (s : State) : Ans := .next (s.whenLive (pldmSensorRead sensor))

/-- PLATFORM_EVENT_MESSAGE (R350). -/
def execPlatformEventMessage (s : State) : Ans := .next (s.whenLive platformEventMessage)

/-- GET_STATE (R350). -/
def execGetState (s : State) : Ans := .next (s.whenLive getState)

/-- SET_CAP (R286). -/
def execSetCap (watts : Nat) (malformed : Bool) (s : State) : Ans := .next (s.whenLive (setCap watts malformed))

/-- MCTP_ARM (R363). -/
def execMctpArm (r : ArmReq) (malformed : Bool) (s : State) : Ans := .next (s.whenLive (mctpArm r malformed))

/-- MCTP_DISARM (R363). -/
def execMctpDisarm (changeId : W32) (malformed : Bool) (s : State) : Ans :=
  .next (s.whenLive (mctpDisarm changeId malformed))

/-- SET_LOCK (R359). -/
def execSetLock (lock : Nat) (s : State) : Ans := .next (s.whenLive (setLock lock))

/-- GET_EVENTS (R350). -/
def execGetEvents (first : Nat) (count : Nat) (s : State) : Ans := .next (s.whenLive (getEvents first count))

/-- LINK (R353). -/
def execLink (h : RelayHdr) (slot : Nat) (serial : W64) (s : State) : Ans := .next (s.whenLive (link h slot serial))

/-- LINK_SEND (R352). -/
def execLinkSend (s : State) : Ans := .next (s.whenLive linkSend)

/-- MANAGER_TIMEOUT (R353). -/
def execManagerTimeout (s : State) : Ans := .next (s.whenLive managerTimeout)

/-- STATUS (R352). -/
def execStatus (h : RelayHdr) (st : RelayStatus) (s : State) : Ans := .next (s.whenLive (status h st))

/-- STATUS_BROADCAST (R352). -/
def execStatusBroadcast (s : State) : Ans := .next (s.whenLive statusBroadcast)

/-- COMMAND (R324). -/
def execCommand (h : RelayHdr) (code : Nat) (passed : Bool) (s : State) : Ans := .next (s.whenLive (command h code passed))

/-- RESPONSE (R324). -/
def execResponse (h : RelayHdr) (result : Nat) (ports : List W32) (peers : List W64) (s : State) : Ans :=
  .next (s.whenLive (response h result ports peers))

/-- IMG_OFFER (R357). -/
def execImgOffer (h : RelayHdr) (imageId : W32) (offset : Nat) (bytes : List Byte) (s : State) : Ans :=
  .next (s.whenLive (imgOffer h imageId offset bytes))

/-- IMG_DATA (R358). -/
def execImgData (h : RelayHdr) (imageId : W32) (offset : Nat) (bytes : List Byte) (a : AonFacts) (f : StartFacts) (s : State) : Ans :=
  .next (s.whenLive (imgData h imageId offset bytes a f))

/-- IMG_ACK (R358). -/
def execImgAck (h : RelayHdr) (imageId : W32) (index : Nat) (s : State) : Ans := .next (s.whenLive (imgAck h imageId index))

/-- IMG_END (R356). -/
def execImgEnd (h : RelayHdr) (imageId : W32) (abandoned : Bool) (s : State) : Ans :=
  .next (s.whenLive (imgEnd h imageId abandoned))

/-- CHUNK_RESEND (R358). -/
def execChunkResend (index : Nat) (s : State) : Ans := .next (s.whenLive (chunkResend index))

/-- OFFER_PARTIAL_DISCARD (R352). -/
def execOfferPartialDiscard (s : State) : Ans := .next (s.whenLive offerPartialDiscard)

/-- RECOVERY_IMAGE_SEND (R362). -/
def execRecoveryImageSend (slot : Nat) (s : State) : Ans := .next (s.whenLive (recoveryImageSend slot))

/-- IMAGE_INJECT (R358). -/
def execImageInject (ring : Nat) (rd : HostRd) (s : State) : Ans := .next (s.whenCore (imageInject ring rd))

/-- ARM (R363). -/
def execArm (ring : Nat) (rd : HostRd) (s : State) : Ans := .next (s.whenCore (arm ring rd))

/-- DISARM (R363). -/
def execDisarm (ring : Nat) (s : State) : Ans := .next (s.whenCore (disarm ring))

/-- OWNER_LOCK (R359). -/
def execOwnerLock (ring : Nat) (s : State) : Ans := .next (s.whenCore (ownerLock ring))

/-- SVN_COMMIT (R369). -/
def execSvnCommit (ring : Nat) (s : State) : Ans := .next (s.whenCore (svnCommit ring))

/-- EVENT_READ (R369). -/
def execEventRead (ring : Nat) (s : State) : Ans := .next (s.whenCore (eventRead ring))

/-- ARM_EXPIRY (R363). -/
def execArmExpiry (s : State) : Ans := .next (s.whenLive armExpiry)

/-- ACT_STROBE (R364). -/
def execActStrobe (a : AonFacts) (f : StartFacts) (s : State) : Ans := .next (s.whenLive (actStrobe a f))

/-- RESERVE_OK (R359). -/
def execReserveOk (high : Bool) (s : State) : Ans :=
  .next ((if s.aon.cast.frozen then { s with aon := { s.aon with reserveOk := high } } else reserveOk high s).updateLines)

/-- ACCELEROMETER_SHOCK (R359). -/
def execAccelerometerShock (milliG : Nat) (roll : Int) (pitch : Int) (s : State) : Ans :=
  .next (s.whenLive (accelerometerShock milliG roll pitch))

/-- MOVING_EXPIRY (R359). -/
def execMovingExpiry (s : State) : Ans := .next (s.whenLive movingExpiry)

/-! ## Cast and monitors -/

/-- CAST_N (R379). -/
def execCastN (lowNanos : Nat) (s : State) : Ans := .next ((castN lowNanos s).updateLines)

/-- CAST_FREEZE (R379). -/
def execCastFreeze (s : State) : Ans := .next ((castFreeze s).updateLines)

/-- CAST_RELEASE (R379). -/
def execCastRelease (s : State) : Ans := .next ((castRelease s).updateLines)

/-- CAST_ADDR (R381). -/
def execCastAddr (v : BitVec 48) (s : State) : Ans := .next ((castAddr v s).updateLines)

/-- CAST_DATA (R382). -/
def execCastData (s : State) : Ans := .next ((castData s).updateLines)

/-- EXTEST (R395). -/
def execExtest (cells : BitVec 32) (s : State) : Ans := .next ((extest cells s).updateLines)

/-- IDCODE (R380). -/
def execIdcode (s : State) : Ans := .next ((idcode s).updateLines)

/-- SAMPLE_PRELOAD (R380). -/
def execSamplePreload (cells : BitVec 32) (s : State) : Ans := .next ((samplePreload cells s).updateLines)

/-- BYPASS (R380). -/
def execBypass (code : BitVec 8) (s : State) : Ans := .next ((bypass code s).updateLines)

/-- TAP_RESET (R380). -/
def execTapReset (s : State) : Ans := .next ((tapReset s).updateLines)

/-- MON_CNT_SEL_WRITE (R372). -/
def execMonCntSelWrite (i : Nat) (v : W32) (s : State) : Ans :=
  .next (s.whenCore (fun t => if i < 16 then t.writeBy 0 (MON_CNT_SEL i) (v.zeroExtend 64) else t))

/-- CLEAR_ALL (R372). -/
def execClearAll (s : State) : Ans :=
  .next (s.whenCore (fun t => t.writeBy 0 MON_CTRL (putBits (t.reg MON_CTRL) MON_CTRL_CLEAR_ALL 1)))

/-- COUNT_EN (R373). -/
def execCountEn (on : Bool) (s : State) : Ans :=
  .next (s.whenCore (fun t => t.writeBy 0 MON_CTRL (putBits (t.reg MON_CTRL) MON_CTRL_COUNT_EN (if on then 1 else 0))))

/-- HIST_FREEZE (R377). -/
def execHistFreeze (on : Bool) (s : State) : Ans :=
  .next (s.whenCore (fun t => t.writeBy 0 MON_CTRL (putBits (t.reg MON_CTRL) MON_CTRL_HIST_FREEZE (if on then 1 else 0))))

/-- COMPAT (R374). -/
def execCompat (v : BitVec 16) (s : State) : Ans :=
  .next (s.whenCore (fun t => t.writeBy 0 MON_CTRL (putBits (t.reg MON_CTRL) MON_CTRL_COMPAT v.toNat)))

/-- MON_BW_WINDOW_WRITE (R375). -/
def execMonBwWindowWrite (v : W32) (s : State) : Ans :=
  .next (s.whenCore (fun t => t.writeBy 0 MON_BW_CTRL (v.zeroExtend 64)))

/-- BW_WINDOW_END (R375). -/
def execBwWindowEnd (s : State) : Ans := .next (s.whenCore bwWindowEnd)

/-- MON_HIST_CFG_WRITE (R376). -/
def execMonHistCfgWrite (h : Nat) (v : W64) (s : State) : Ans :=
  .next (s.whenCore (fun t => if h < 8 then t.writeBy 0 (MON_HIST_CFG h) v else t))

/-- TRACE_RECORD (R378). -/
def execTraceRecord (s : State) : Ans := .next (s.whenCore traceRecord)

/-! ## Later rows of the table -/

/-- LATCH_CLOSED (R345). -/
def execLatchClosed (f : StartFacts) (s : State) : Ans :=
  .next ((if s.aon.cast.frozen then { s with aon := { s.aon with latch := true } } else latchClosed f s).updateLines)

/-- MERGE_LINE_PIN (R331). -/
def execMergeLinePin (input : Nat) (line : Nat) (high : Bool) (s : State) : Ans := .next (mergeLinePin input line high s)

/-- CASCADE_TAKEOVER_FLAG (R336). -/
def execCascadeTakeoverFlag (port : Nat) (h : OlpHdr) (s : State) : Ans := .next (s.whenCore (cascadeTakeoverFlag port h))

/-- DMA_TIMEOUT (R250). -/
def execDmaTimeout (ring : Nat) (seq : Nat) (written : Nat) (s : State) : Ans :=
  .next (s.whenCore (dmaTimeout ring seq written))

/-- AON_POWER_LOSS (R22). -/
def execAonPowerLoss (s : State) : Ans := .next ((aonPowerLoss s).updateLines)

/-- FRESH_DRAW (R274). -/
def execFreshDraw (s : State) : Ans := .next (s.whenCore freshDraw)

/-- DIGEST_BLOCK_TIMEOUT (R337). -/
def execDigestBlockTimeout (chan : Nat) (block : Nat) (s : State) : Ans := .next (s.whenCore (digestBlockTimeout chan block))

/-- RESTART_CONDITION (R400). -/
def execRestartCondition (f : StartFacts) (s : State) : Ans := .next (s.whenLive (restartCondition f))

/-- MSIX_UNMASK (R243). -/
def execMsixUnmask (fn : Nat) (vector : Nat) (s : State) : Ans := .next (s.whenCore (msixUnmask fn vector))

end Sys2Proof.Machine
end

