-- ==== Sys2Proof/Machine/Dispatch.lean ====
section
/-! DEFINITION. The effect of every command: one arm per row of spec/opcode_table.json. -/

namespace Sys2Proof.Machine

def exec (i : Instr) (s : State) : Host.Outcome State Fault Refusal :=
  match i with
  | .registerWrite fn off bits acc => Sys2Proof.Machine.execRegisterWrite fn off bits acc s
  | .glbSetupLockSet fn v => Sys2Proof.Machine.execGlbSetupLockSet fn v s
  | .aonStart a f => Sys2Proof.Machine.execAonStart a f s
  | .holdupCharged f => Sys2Proof.Machine.execHoldupCharged f s
  | .inputBelowReset => Sys2Proof.Machine.execInputBelowReset s
  | .inputOverVoltage => Sys2Proof.Machine.execInputOverVoltage s
  | .inputRestored a f => Sys2Proof.Machine.execInputRestored a f s
  | .startPermit f => Sys2Proof.Machine.execStartPermit f s
  | .startPermitWithdrawn => Sys2Proof.Machine.execStartPermitWithdrawn s
  | .ddrTraining ok temp ms => Sys2Proof.Machine.execDdrTraining ok temp ms s
  | .startReady selfTestOk => Sys2Proof.Machine.execStartReady selfTestOk s
  | .domainOff d => Sys2Proof.Machine.execDomainOff d s
  | .domainOn d => Sys2Proof.Machine.execDomainOn d s
  | .kernel ring obj => Sys2Proof.Machine.execKernel ring obj s
  | .claimGrant part => Sys2Proof.Machine.execClaimGrant part s
  | .staggerWave cluster => Sys2Proof.Machine.execStaggerWave cluster s
  | .barrierArrive ring seq tile bar queued => Sys2Proof.Machine.execBarrierArrive ring seq tile bar queued s
  | .kernelFinish ring seq fin => Sys2Proof.Machine.execKernelFinish ring seq fin s
  | .kernelTimeout ring seq => Sys2Proof.Machine.execKernelTimeout ring seq s
  | .sequencerTrap ring seq tile cause => Sys2Proof.Machine.execSequencerTrap ring seq tile cause s
  | .icacheFill tile line => Sys2Proof.Machine.execIcacheFill tile line s
  | .peRequest tile step q req => Sys2Proof.Machine.execPeRequest tile step q req s
  | .fallbackHoldExpiry cluster => Sys2Proof.Machine.execFallbackHoldExpiry cluster s
  | .peFillReturn tile q ecc => Sys2Proof.Machine.execPeFillReturn tile q ecc s
  | .bankAccessRequest bank clock reqs ecc group => Sys2Proof.Machine.execBankAccessRequest bank clock reqs ecc group s
  | .bankOwnerWrite bank owner => Sys2Proof.Machine.execBankOwnerWrite bank owner s
  | .handoverDrain bank => Sys2Proof.Machine.execHandoverDrain bank s
  | .bankWake bank => Sys2Proof.Machine.execBankWake bank s
  | .bankClear bank => Sys2Proof.Machine.execBankClear bank s
  | .bankIdleRet bank => Sys2Proof.Machine.execBankIdleRet bank s
  | .freeOffSet tile => Sys2Proof.Machine.execFreeOffSet tile s
  | .freeOffClear tile => Sys2Proof.Machine.execFreeOffClear tile s
  | .setEngineCommand tile cmd => Sys2Proof.Machine.execSetEngineCommand tile cmd s
  | .setOperationDone cluster => Sys2Proof.Machine.execSetOperationDone cluster s
  | .sort ring => Sys2Proof.Machine.execSort ring s
  | .topk ring => Sys2Proof.Machine.execTopk ring s
  | .merge ring => Sys2Proof.Machine.execMerge ring s
  | .intersect ring => Sys2Proof.Machine.execIntersect ring s
  | .segreduce ring => Sys2Proof.Machine.execSegreduce ring s
  | .attend ring => Sys2Proof.Machine.execAttend ring s
  | .verify ring => Sys2Proof.Machine.execVerify ring s
  | .accept ring => Sys2Proof.Machine.execAccept ring s
  | .attnCommit ring seq cycles => Sys2Proof.Machine.execAttnCommit ring seq cycles s
  | .attnTimeout ring seq => Sys2Proof.Machine.execAttnTimeout ring seq s
  | .pftW0Write fn frame v => Sys2Proof.Machine.execPftW0Write fn frame v s
  | .pftCheckDone => Sys2Proof.Machine.execPftCheckDone s
  | .seqRegister ring => Sys2Proof.Machine.execSeqRegister ring s
  | .seqExtend ring => Sys2Proof.Machine.execSeqExtend ring s
  | .seqFork ring => Sys2Proof.Machine.execSeqFork ring s
  | .seqRelease ring => Sys2Proof.Machine.execSeqRelease ring s
  | .seqPreempt ring => Sys2Proof.Machine.execSeqPreempt ring s
  | .seqSwapOut ring => Sys2Proof.Machine.execSeqSwapOut ring s
  | .seqSwapIn ring image => Sys2Proof.Machine.execSeqSwapIn ring image s
  | .seqRemap ring => Sys2Proof.Machine.execSeqRemap ring s
  | .seqStart ring seq image => Sys2Proof.Machine.execSeqStart ring seq image s
  | .holdEnd seqId image => Sys2Proof.Machine.execHoldEnd seqId image s
  | .seqFrameTimeout ring seq => Sys2Proof.Machine.execSeqFrameTimeout ring seq s
  | .swapImageFlushed ring seq image => Sys2Proof.Machine.execSwapImageFlushed ring seq image s
  | .stnCtrlEnable v => Sys2Proof.Machine.execStnCtrlEnable v s
  | .stnCtrlDisable v => Sys2Proof.Machine.execStnCtrlDisable v s
  | .sentinelRunning => Sys2Proof.Machine.execSentinelRunning s
  | .sentinelDoorbell fn off bits v => Sys2Proof.Machine.execSentinelDoorbell fn off bits v s
  | .windowFetchDone chan rd => Sys2Proof.Machine.execWindowFetchDone chan rd s
  | .modelDone chan latency => Sys2Proof.Machine.execModelDone chan latency s
  | .modelFault chan kind offset => Sys2Proof.Machine.execModelFault chan kind offset s
  | .staleTimeout chan => Sys2Proof.Machine.execStaleTimeout chan s
  | .sentConfigure ring => Sys2Proof.Machine.execSentConfigure ring s
  | .sentEnable ring => Sys2Proof.Machine.execSentEnable ring s
  | .sentDisable ring => Sys2Proof.Machine.execSentDisable ring s
  | .sentReset ring => Sys2Proof.Machine.execSentReset ring s
  | .sentAck ring => Sys2Proof.Machine.execSentAck ring s
  | .sentLoadModel ring obj => Sys2Proof.Machine.execSentLoadModel ring obj s
  | .sentUnloadModel ring => Sys2Proof.Machine.execSentUnloadModel ring s
  | .sentReadState ring => Sys2Proof.Machine.execSentReadState ring s
  | .codecRegister ring => Sys2Proof.Machine.execCodecRegister ring s
  | .codecDecode ring => Sys2Proof.Machine.execCodecDecode ring s
  | .codecEncode ring => Sys2Proof.Machine.execCodecEncode ring s
  | .codecFlush ring => Sys2Proof.Machine.execCodecFlush ring s
  | .codecUnregister ring => Sys2Proof.Machine.execCodecUnregister ring s
  | .pictureStart shape => Sys2Proof.Machine.execPictureStart shape s
  | .pictureDone res => Sys2Proof.Machine.execPictureDone res s
  | .pictureTimeout => Sys2Proof.Machine.execPictureTimeout s
  | .pcieLinkUp width speed => Sys2Proof.Machine.execPcieLinkUp width speed s
  | .pcieLinkDown => Sys2Proof.Machine.execPcieLinkDown s
  | .perstN low => Sys2Proof.Machine.execPerstN low s
  | .vfFlr v => Sys2Proof.Machine.execVfFlr v s
  | .pfFlr => Sys2Proof.Machine.execPfFlr s
  | .servingFunctionChange numVfs enable => Sys2Proof.Machine.execServingFunctionChange numVfs enable s
  | .submissionTailDoorbell fn off bits v => Sys2Proof.Machine.execSubmissionTailDoorbell fn off bits v s
  | .completionHeadDoorbell fn off bits v => Sys2Proof.Machine.execCompletionHeadDoorbell fn off bits v s
  | .descriptorFetch ring count rd => Sys2Proof.Machine.execDescriptorFetch ring count rd s
  | .holdoffExpiry ring => Sys2Proof.Machine.execHoldoffExpiry ring s
  | .dmaCopy ring => Sys2Proof.Machine.execDmaCopy ring s
  | .dmaFill ring => Sys2Proof.Machine.execDmaFill ring s
  | .dmaDone ring seq rd ecc byte => Sys2Proof.Machine.execDmaDone ring seq rd ecc byte s
  | .fence ring => Sys2Proof.Machine.execFence ring s
  | .abort ring rd => Sys2Proof.Machine.execAbort ring rd s
  | .ringCreate ring => Sys2Proof.Machine.execRingCreate ring s
  | .ringDelete ring => Sys2Proof.Machine.execRingDelete ring s
  | .mgmtRingEnable v => Sys2Proof.Machine.execMgmtRingEnable v s
  | .ctxRingEnable fn ctx v => Sys2Proof.Machine.execCtxRingEnable fn ctx v s
  | .versionSelectWrite fn ctx v => Sys2Proof.Machine.execVersionSelectWrite fn ctx v s
  | .patrolRead chan ecc => Sys2Proof.Machine.execPatrolRead chan ecc s
  | .partDefine ring => Sys2Proof.Machine.execPartDefine ring s
  | .partSchedule ring => Sys2Proof.Machine.execPartSchedule ring s
  | .ctxGrant ring => Sys2Proof.Machine.execCtxGrant ring s
  | .ctxScrub ring => Sys2Proof.Machine.execCtxScrub ring s
  | .provReport ring => Sys2Proof.Machine.execProvReport ring s
  | .provCert ring => Sys2Proof.Machine.execProvCert ring s
  | .keyInstall ring => Sys2Proof.Machine.execKeyInstall ring s
  | .keyRemove ring => Sys2Proof.Machine.execKeyRemove ring s
  | .weightImport ring => Sys2Proof.Machine.execWeightImport ring s
  | .ctxDebug ring => Sys2Proof.Machine.execCtxDebug ring s
  | .sliceExpiry part => Sys2Proof.Machine.execSliceExpiry part s
  | .tenantSwitch part time => Sys2Proof.Machine.execTenantSwitch part time s
  | .contextBecomesCurrent part => Sys2Proof.Machine.execContextBecomesCurrent part s
  | .rngFail => Sys2Proof.Machine.execRngFail s
  | .powerSample m => Sys2Proof.Machine.execPowerSample m s
  | .peakProjection worstUJ => Sys2Proof.Machine.execPeakProjection worstUJ s
  | .supplyWarn voltage10mV => Sys2Proof.Machine.execSupplyWarn voltage10mV s
  | .holdRelease voltage10mV micros => Sys2Proof.Machine.execHoldRelease voltage10mV micros s
  | .tjHighStep cluster temp => Sys2Proof.Machine.execTjHighStep cluster temp s
  | .tjTrip sensor => Sys2Proof.Machine.execTjTrip sensor s
  | .inletShutdown => Sys2Proof.Machine.execInletShutdown s
  | .airflowEstimate a => Sys2Proof.Machine.execAirflowEstimate a s
  | .airStopCountdown => Sys2Proof.Machine.execAirStopCountdown s
  | .voltageLoopUpdate cluster marginMV slackMHz => Sys2Proof.Machine.execVoltageLoopUpdate cluster marginMV slackMHz s
  | .droopDetect cluster marginMV clocks => Sys2Proof.Machine.execDroopDetect cluster marginMV clocks s
  | .modeChangeCluster cluster => Sys2Proof.Machine.execModeChangeCluster cluster s
  | .hint ring => Sys2Proof.Machine.execHint ring s
  | .hintExpiry ring seq => Sys2Proof.Machine.execHintExpiry ring seq s
  | .energyAccumulate parts ctxs => Sys2Proof.Machine.execEnergyAccumulate parts ctxs s
  | .powerMode ring => Sys2Proof.Machine.execPowerMode ring s
  | .energySnapshot ring => Sys2Proof.Machine.execEnergySnapshot ring s
  | .portTraining port lanes ringsLocked => Sys2Proof.Machine.execPortTraining port lanes ringsLocked s
  | .trainingRetry port lanes => Sys2Proof.Machine.execTrainingRetry port lanes s
  | .hello port h => Sys2Proof.Machine.execHello port h s
  | .proof port p => Sys2Proof.Machine.execProof port p s
  | .lightRegained port lanes => Sys2Proof.Machine.execLightRegained port lanes s
  | .idle port h => Sys2Proof.Machine.execIdle port h s
  | .replayTimeout port => Sys2Proof.Machine.execReplayTimeout port s
  | .laneDrop port lane => Sys2Proof.Machine.execLaneDrop port lane s
  | .data port h win offset bytes => Sys2Proof.Machine.execData port h win offset bytes s
  | .barrier port h ring bar origin gen => Sys2Proof.Machine.execBarrier port h ring bar origin gen s
  | .digest port h chan block skip d => Sys2Proof.Machine.execDigest port h chan block skip d s
  | .heartbeatSend => Sys2Proof.Machine.execHeartbeatSend s
  | .heartbeat h b => Sys2Proof.Machine.execHeartbeat h b s
  | .partnerLost => Sys2Proof.Machine.execPartnerLost s
  | .standbyWaitTimeout => Sys2Proof.Machine.execStandbyWaitTimeout s
  | .swapTimeout => Sys2Proof.Machine.execSwapTimeout s
  | .revertTimer => Sys2Proof.Machine.execRevertTimer s
  | .leavingTimeout => Sys2Proof.Machine.execLeavingTimeout s
  | .swapDue => Sys2Proof.Machine.execSwapDue s
  | .swapDeferred => Sys2Proof.Machine.execSwapDeferred s
  | .pairConfig ring => Sys2Proof.Machine.execPairConfig ring s
  | .roleSwap ring => Sys2Proof.Machine.execRoleSwap ring s
  | .isolate ring => Sys2Proof.Machine.execIsolate ring s
  | .rejoin ring => Sys2Proof.Machine.execRejoin ring s
  | .cascadeConfig ring => Sys2Proof.Machine.execCascadeConfig ring s
  | .cascadeDegraded port => Sys2Proof.Machine.execCascadeDegraded port s
  | .windowOpen ring => Sys2Proof.Machine.execWindowOpen ring s
  | .windowClose ring => Sys2Proof.Machine.execWindowClose ring s
  | .linkRetrain ring => Sys2Proof.Machine.execLinkRetrain ring s
  | .verdictFrameSend => Sys2Proof.Machine.execVerdictFrameSend s
  | .claimFrameIdle => Sys2Proof.Machine.execClaimFrameIdle s
  | .mergeFrame input bytes => Sys2Proof.Machine.execMergeFrame input bytes s
  | .mergeAgeOut => Sys2Proof.Machine.execMergeAgeOut s
  | .mergeEpochReset => Sys2Proof.Machine.execMergeEpochReset s
  | .trayLatchN => Sys2Proof.Machine.execTrayLatchN s
  | .entdaa addr => Sys2Proof.Machine.execEntdaa addr s
  | .pldmSensorRead sensor => Sys2Proof.Machine.execPldmSensorRead sensor s
  | .platformEventMessage => Sys2Proof.Machine.execPlatformEventMessage s
  | .getState => Sys2Proof.Machine.execGetState s
  | .setCap watts malformed => Sys2Proof.Machine.execSetCap watts malformed s
  | .mctpArm r malformed => Sys2Proof.Machine.execMctpArm r malformed s
  | .mctpDisarm changeId malformed => Sys2Proof.Machine.execMctpDisarm changeId malformed s
  | .setLock lock => Sys2Proof.Machine.execSetLock lock s
  | .getEvents first count => Sys2Proof.Machine.execGetEvents first count s
  | .link h slot serial => Sys2Proof.Machine.execLink h slot serial s
  | .linkSend => Sys2Proof.Machine.execLinkSend s
  | .managerTimeout => Sys2Proof.Machine.execManagerTimeout s
  | .status h st => Sys2Proof.Machine.execStatus h st s
  | .statusBroadcast => Sys2Proof.Machine.execStatusBroadcast s
  | .command h code passed => Sys2Proof.Machine.execCommand h code passed s
  | .response h result ports peers => Sys2Proof.Machine.execResponse h result ports peers s
  | .imgOffer h imageId offset bytes => Sys2Proof.Machine.execImgOffer h imageId offset bytes s
  | .imgData h imageId offset bytes a f => Sys2Proof.Machine.execImgData h imageId offset bytes a f s
  | .imgAck h imageId index => Sys2Proof.Machine.execImgAck h imageId index s
  | .imgEnd h imageId abandoned => Sys2Proof.Machine.execImgEnd h imageId abandoned s
  | .chunkResend index => Sys2Proof.Machine.execChunkResend index s
  | .offerPartialDiscard => Sys2Proof.Machine.execOfferPartialDiscard s
  | .recoveryImageSend slot => Sys2Proof.Machine.execRecoveryImageSend slot s
  | .imageInject ring rd => Sys2Proof.Machine.execImageInject ring rd s
  | .arm ring rd => Sys2Proof.Machine.execArm ring rd s
  | .disarm ring => Sys2Proof.Machine.execDisarm ring s
  | .ownerLock ring => Sys2Proof.Machine.execOwnerLock ring s
  | .svnCommit ring => Sys2Proof.Machine.execSvnCommit ring s
  | .eventRead ring => Sys2Proof.Machine.execEventRead ring s
  | .armExpiry => Sys2Proof.Machine.execArmExpiry s
  | .actStrobe a f => Sys2Proof.Machine.execActStrobe a f s
  | .reserveOk high => Sys2Proof.Machine.execReserveOk high s
  | .accelerometerShock milliG roll pitch => Sys2Proof.Machine.execAccelerometerShock milliG roll pitch s
  | .movingExpiry => Sys2Proof.Machine.execMovingExpiry s
  | .castN lowNanos => Sys2Proof.Machine.execCastN lowNanos s
  | .castFreeze => Sys2Proof.Machine.execCastFreeze s
  | .castRelease => Sys2Proof.Machine.execCastRelease s
  | .castAddr v => Sys2Proof.Machine.execCastAddr v s
  | .castData => Sys2Proof.Machine.execCastData s
  | .extest cells => Sys2Proof.Machine.execExtest cells s
  | .idcode => Sys2Proof.Machine.execIdcode s
  | .samplePreload cells => Sys2Proof.Machine.execSamplePreload cells s
  | .bypass code => Sys2Proof.Machine.execBypass code s
  | .tapReset => Sys2Proof.Machine.execTapReset s
  | .monCntSelWrite k v => Sys2Proof.Machine.execMonCntSelWrite k v s
  | .clearAll => Sys2Proof.Machine.execClearAll s
  | .countEn on => Sys2Proof.Machine.execCountEn on s
  | .histFreeze on => Sys2Proof.Machine.execHistFreeze on s
  | .compat v => Sys2Proof.Machine.execCompat v s
  | .monBwWindowWrite v => Sys2Proof.Machine.execMonBwWindowWrite v s
  | .bwWindowEnd => Sys2Proof.Machine.execBwWindowEnd s
  | .monHistCfgWrite h v => Sys2Proof.Machine.execMonHistCfgWrite h v s
  | .traceRecord => Sys2Proof.Machine.execTraceRecord s
  | .latchClosed f => Sys2Proof.Machine.execLatchClosed f s
  | .mergeLinePin input line high => Sys2Proof.Machine.execMergeLinePin input line high s
  | .cascadeTakeoverFlag port h => Sys2Proof.Machine.execCascadeTakeoverFlag port h s
  | .dmaTimeout ring seq written => Sys2Proof.Machine.execDmaTimeout ring seq written s
  | .aonPowerLoss => Sys2Proof.Machine.execAonPowerLoss s
  | .freshDraw => Sys2Proof.Machine.execFreshDraw s
  | .digestBlockTimeout chan block => Sys2Proof.Machine.execDigestBlockTimeout chan block s
  | .restartCondition f => Sys2Proof.Machine.execRestartCondition f s
  | .msixUnmask fn vector => Sys2Proof.Machine.execMsixUnmask fn vector s

end Sys2Proof.Machine
end

