-- ==== Sys2Proof/Safety.lean ====
section
/-! DEFINITION. What counts as a safe state and a safe run, in the terms the claims use. -/

namespace Sys2Proof.Machine

/-- The static verdict lines show exactly what the state gives them: nothing in ISOLATED, without core rails and in a Cast
freeze, and otherwise the lines of the enabled channels in TRIP or in an ALARM that asserts its line (R205, R327, R332,
R379). -/
def State.linesShown (s : State) : Prop := s.fld VRD_STATUS VRD_STATUS_LINES = s.lineLevels

/-- Both byte memories are in their canonical form. -/
def State.memoriesOk (s : State) : Prop := Memory.wf s.mem.dram = true ∧ Memory.wf s.mem.bank = true

/-- What rings, completion records, interrupts and the MON block do not reach is the same, and what has left the module has
left it: the frame of everything that only completes, counts or signals. -/
structure SameInside (s t : State) : Prop where
  pending : t.pending = s.pending
  nv : t.nv = s.nv
  aon : t.aon = s.aon
  sec : t.sec = s.sec
  mem : t.mem = s.mem
  arr : t.arr = s.arr
  kv : t.kv = s.kv
  vcd : t.vcd = s.vcd
  stn : t.stn = s.stn
  vrd : t.vrd = s.vrd
  merge : t.merge = s.merge
  pair : t.pair = s.pair
  olp : t.olp = s.olp
  pwr : t.pwr = s.pwr
  reg : ∀ o, (o < 0x40000 ∨ 0x50000 ≤ o) → t.reg o = s.reg o
  out : s.out <:+ t.out
  ue : t.hif.ueTimes = s.hif.ueTimes

/-- The same for what may also move hints and their guard bands, and the line pins: power management and VRD_STATUS apart. -/
structure SameUnits (s t : State) : Prop where
  pending : t.pending = s.pending
  nv : t.nv = s.nv
  aon : t.aon = s.aon
  sec : t.sec = s.sec
  mem : t.mem = s.mem
  arr : t.arr = s.arr
  kv : t.kv = s.kv
  vcd : t.vcd = s.vcd
  stn : t.stn = s.stn
  vrd : t.vrd = s.vrd
  merge : t.merge = s.merge
  pair : t.pair = s.pair
  olp : t.olp = s.olp
  reg : ∀ o, (o < 0x30000 ∨ 0x50000 ≤ o) → o ≠ VRD_STATUS → t.reg o = s.reg o
  out : s.out <:+ t.out
  ue : t.hif.ueTimes = s.hif.ueTimes

/-- The core rails are up and no Cast freeze holds: the module acts on commands of its switched domains. -/
def State.acts (s : State) : Prop := s.aon.core = true ∧ s.aon.cast.frozen = false

/-- The AON rails are in regulation and no Cast freeze holds: the always-on domain acts on commands. -/
def State.live (s : State) : Prop := s.aon.rails = true ∧ s.aon.cast.frozen = false

/-- Descriptor `f` of a class and operation stands at the head of ring `r`: its header passed, no ABORT reached it, the order
rules let it be checked (R245, R246, R248), the module acts, its role does not keep the class out (R328), and the link carries
the ring's records (R237). -/
structure State.DescAt (s : State) (r cls op : Nat) (f : Fetched) : Prop where
  acts : s.acts
  link : s.linkUp = true
  heard : (s.ring r).mute = false
  head : s.headOf r cls = some f
  op : dF f.desc 8 1 = op
  serves : s.isolates cls = false

/-- A ring without what its records and its queue move. -/
def Ring.still (g : Ring) : Ring :=
  { g with queue := [], words := [], fails := [], records := 0, holding := false, due := false, early := [] }

/-- Nothing is in flight: no descriptor is admitted, and no ring is being closed. -/
def State.idle (s : State) : Prop := s.hif.works = [] ∧ ∀ p ∈ s.hif.rings, p.2.closing = false

/-- Nothing is in flight, and the ring's queue holds one descriptor: its record is the ring's next. -/
def State.alone (s : State) (r : Nat) (f : Fetched) : Prop := s.idle ∧ (s.ring r).queue = [f]

/-- No claim is being launched. -/
def State.noLaunch (s : State) : Prop := ∀ w ∈ s.hif.works, w.stage ≠ .launching

/-- The module serves nothing: no admitted work, no Sentinel context, no current context on any partition, no registered
sequence, no pair role and no handover under way; and its random source is healthy. -/
structure State.quiet (s : State) : Prop where
  works : s.hif.works = []
  sent : s.sentCtx = none
  parts : ∀ p, (s.part p).current = none
  seqs : ∀ c, s.ctxSeqs c = []
  role : s.role = roleSolo
  leaving : s.pair.leaving = none
  held : s.pair.held = []
  rng : s.rngOk = true

/-- The completion record of a descriptor has left as the two posted writes of R242: SW_TAG, DESC_SEQ and class words, then
STATUS, CLASS, FLAGS and PHASE, at the record's place in the completion ring. -/
def State.recordSent (s t : State) (r : Nat) (tag : W32) (seq words status cls flags : Nat) : Prop :=
  let g := s.ring r
  let addr := g.cqBase.toNat + 32 * (g.records.toNat % 2 ^ g.log2)
  Out.hostWrite (s.servingFn r) addr (recordHead tag seq words) ∈ t.out ∧
    Out.hostWrite (s.servingFn r) (addr + 28) (recordTail status cls flags (recordPhase g.log2 g.records.toNat)) ∈ t.out

/-- The record of a descriptor of the ring's queue. -/
def State.answered (s t : State) (r : Nat) (f : Fetched) (status flags words : Nat) : Prop :=
  s.recordSent t r (BitVec.ofNat 32 (dF f.desc 4 4)) f.seq words status (dF f.desc 0 1) flags

/-- The commands that a Cast freeze does not keep from having an effect (R379): the Cast logic's and the TAP's own, what ends
the freeze, pins whose level is only noted, and the verdict merge, which stands outside the module. -/
def outlivesFreeze : Instr → Bool
  | .inputBelowReset | .inputOverVoltage | .aonPowerLoss | .tjTrip _ | .startPermit _ | .startPermitWithdrawn | .trayLatchN
  | .latchClosed _ | .reserveOk _ | .perstN _ | .castN _ | .castFreeze | .castRelease | .castAddr _ | .castData | .extest _
  | .idcode | .samplePreload _ | .bypass _ | .tapReset | .mergeFrame _ _ | .mergeAgeOut | .mergeEpochReset
  | .mergeLinePin _ _ _ => true
  | _ => false

/-! ## Frames -/

/-- The areas of a state: what it holds beside its registers, by the structures of Machine/State.lean. Memory is three
areas: DRAM bytes with the keys that wrote them, bank bytes, and the directory of the memory-side cache. What the MON block
counts and samples is no area: any command may move it. -/
inductive Area where
  | nv | aon | hif | sec | dram | bank | cache | arr | kv | vcd | stn | vrd | merge | pair | olp | pwr | out
  deriving DecidableEq, Repr

/-- Two states agree in an area. -/
def Area.same (s t : State) : Area → Prop
  | .nv => t.nv = s.nv
  | .aon => t.aon = s.aon
  | .hif => t.hif = s.hif
  | .sec => t.sec = s.sec
  | .dram => t.mem.dram = s.mem.dram ∧ t.mem.dramKey = s.mem.dramKey
  | .bank => t.mem.bank = s.mem.bank
  | .cache => t.mem.lines = s.mem.lines
  | .arr => t.arr = s.arr
  | .kv => t.kv = s.kv
  | .vcd => t.vcd = s.vcd
  | .stn => t.stn = s.stn
  | .vrd => t.vrd = s.vrd
  | .merge => t.merge = s.merge
  | .pair => t.pair = s.pair
  | .olp => t.olp = s.olp
  | .pwr => t.pwr = s.pwr
  | .out => t.out = s.out

/-- The frame of a command: from `s` to `t` only the areas named move, and only the registers whose offsets lie in the ranges
named; beside them VRD_STATUS, which shows the line pins after every command, and the registers of the MON block, which count
what happens elsewhere. The queue of commands never moves. -/
def State.moves (s t : State) (areas : List Area) (regs : List (Nat × Nat)) : Prop :=
  t.pending = s.pending ∧ (∀ a, a ∉ areas → a.same s t) ∧
    ∀ o, o ≠ VRD_STATUS → (o < 0x40000 ∨ 0x50000 ≤ o) → (∀ g ∈ regs, o < g.1 ∨ g.2 < o) → t.reg o = s.reg o

/-- The range of one register, and those of the register blocks of the BAR0 map (Module and Die Organisation). -/
def oneReg (o : Nat) : Nat × Nat := (o, o)
def glbRegs : Nat × Nat := (0x0, 0xFFFF)
def hifRegs : Nat × Nat := (0x10000, 0x1FFFF)
def secRegs : Nat × Nat := (0x20000, 0x2FFFF)
def pwrRegs : Nat × Nat := (0x30000, 0x3FFFF)
def olpRegs : Nat × Nat := (0x50000, 0x5FFFF)
def vrdRegs : Nat × Nat := (0x60000, 0x6FFFF)
def stnRegs : Nat × Nat := (0x70000, 0x7FFFF)
def vcdRegs : Nat × Nat := (0x80000, 0x8FFFF)
def kvpRegs : Nat × Nat := (0x90000, 0x9FFFF)
def memRegs : Nat × Nat := (0xA0000, 0xABFFF)
def mgtRegs : Nat × Nat := (0xB0000, 0xBFFFF)
def tileRegs : Nat × Nat := (0x1000000, 0x1FFFFFF)
def hubRegs : Nat × Nat := (0x2000000, 0x27FFFFF)

/-- What a completion record may move: the rings, the hints and their guard bands, and what the module sends. -/
def recordAreas : List Area := [.hif, .pwr, .out]
def recordRegs : List (Nat × Nat) := [pwrRegs]

/-- What an access to module DRAM may move beside its bytes: the cache directory, and a channel that it wakes. -/
def touchRegs : List (Nat × Nat) := [oneReg GLB_PWR_DOMAIN_STATUS2, memRegs]

/-- What a write of module DRAM may move: its bytes, the cache directory, the objects held decoded (R79), and what the send
windows carry to another module. -/
def writeAreas : List Area := [.sec, .dram, .cache, .olp, .out]
def writeRegs : List (Nat × Nat) := touchRegs ++ [olpRegs]

/-! ## Start, registers and pins -/

/-- What step 2 to 4 of the start sequence leave, by what they find (R274, R281, R346, R347; Start-up, Firmware Update and
Cabinet Management, Tables 2 and 3). -/
def State.startedBy (t : State) (f : StartFacts) : Prop :=
  t.aon.core = true ∧ t.isOn .hcx = true ∧
    if Config.fuseValid ≠ 0x1F then t.phase = phFailed ∧ t.fld MGT_STATE MGT_STATE_START_FAIL = sfFuseInvalid
    else if f.katOk = false ∨ f.rngOk = false then t.phase = phFailed ∧ t.fld MGT_STATE MGT_STATE_START_FAIL = sfSecSelftest
    else if f.certOk = false then t.phase = phFailed ∧ t.fld MGT_STATE MGT_STATE_START_FAIL = sfCertMismatch
    else if f.microcodeOk = false then t.phase = phRecovery ∧ t.fld MGT_STATE MGT_STATE_START_FAIL = sfImageBad
    else t.phase = phStarting ∧ t.fld MGT_STATE MGT_STATE_START_FAIL = 0 ∧ t.aon.secDone = true ∧ t.rngOk = true

/-- The module waits for nothing but a START_PERMIT it may act on (R345, R390, R400), the permit, its edge and the latch
apart. -/
def State.waitsForPermit (s : State) : Prop :=
  s.aon.restartHeld = false ∧ s.aon.holdupOk = true ∧ s.aon.input = true ∧ s.aon.slotInvalid = false ∧
    s.aon.level = .pedestal ∧ (s.phase = phWaitPermit ∨ s.phase = phFailed)

/-- Every switched domain is OFF and no descriptor is in flight. -/
def State.allOff (t : State) : Prop :=
  t.aon.core = false ∧ (∀ d, domValid d = true → t.isOn d = false) ∧ t.hif.works = []

/-- A register without an effect of its own beyond its access codes: a plain register (R6). -/
def plainReg (b : Block) (off : Nat) : Bool :=
  match b with
  | .glb => off != GLB_SETUP_LOCK
  | .hif => decide (off < 0x18000) && off != HIF_MGMT_SQ && off != HIF_MGMT_CQ
  | .stn => off != STN_CTRL
  | .mem _ => off % 0x1000 != 0x20
  | .tile t => off != BANK_PWR_POLICY t
  | .pwr => off != PWR_POLICY
  | .mon => false
  | .pft => false
  | .vrd => false
  | _ => true

/-- The physical function reaches the registers of PD_HCX: the module lives, PD_HCX is ON and the link is up. -/
def State.reaches (s : State) : Prop := s.live ∧ s.isOn .hcx = true ∧ s.linkUp = true

/-- The same for a command that needs the core rails beside. -/
def State.reachesCore (s : State) : Prop := s.acts ∧ s.isOn .hcx = true ∧ s.linkUp = true

/-- Frames of registers within the MON block: every register but those named reads as before. -/
def State.keepsRegs (s t : State) (rs : List Nat) : Prop := ∀ o, o ≠ VRD_STATUS → o ∉ rs → t.reg o = s.reg o

/-! ## Work -/

/-- Everything the completion of claimed work may move: its record, the memories its results reach, the tiles, banks and hubs
it gives back, and the sequences it held. -/
def endAreas : List Area := [.hif, .sec, .dram, .bank, .cache, .arr, .kv, .olp, .out]
def endRegs : List (Nat × Nat) := [glbRegs, olpRegs, memRegs, tileRegs, hubRegs]

/-- The link is up and the ring's records are written (R237). -/
def State.hears (s : State) (r : Nat) : Prop := s.linkUp = true ∧ (s.ring r).mute = false

/-- The claim of a work names units that the module has. -/
def Work.placed (w : Work) : Prop := (∀ t ∈ w.tiles, t < 64) ∧ (∀ c ∈ w.hubs, c < 8) ∧ ∀ g ∈ w.banks, g < 512

/-- Descriptor `seq` of ring `r` is a kernel that runs on its claimed tiles (R64). -/
structure State.kernelRuns (s : State) (r seq : Nat) (w : Work) (k : KernelWork) : Prop where
  acts : s.acts
  here : s.work? r seq = some w
  kern : w.kern = some k
  stage : w.stage = .running
  placed : w.placed

/-- A work has completed with a status: its record has left, and it is no longer in flight. -/
def State.ended (s t : State) (w : Work) (status : Nat) : Prop :=
  t.work? w.ring w.seq = none ∧ ∃ words flags, s.recordSent t w.ring w.tag w.seq words status w.cls flags

/-- The tiles that a work claimed are free. -/
def State.tilesFreed (s t : State) (w : Work) : Prop :=
  ∀ i ∈ w.tiles, (s.tile i).claim = some (w.ring, w.seq) →
    (t.tile i).claim = none ∧ t.bit (TILE_STATUS i) TILE_STATUS_CLAIMED = false

/-- A descriptor is admitted and is the one in flight: it carries its ring's descriptor and the next age (R246). -/
def State.admitted (s t : State) (w : Work) (r : Nat) (f : Fetched) : Prop :=
  t.hif.works = [w] ∧ w.is r f.seq = true ∧ w.cls = dF f.desc 0 1 ∧ w.desc = f.desc ∧ w.age = s.hif.nextAge

/-- What the operations on sequences may move: their records, the tables and frames they write, and look-aside buffers. -/
def seqAreas : List Area := [.nv, .hif, .sec, .dram, .cache, .arr, .kv, .pwr, .olp, .out]
def seqRegs : List (Nat × Nat) := [glbRegs, hifRegs, secRegs, pwrRegs, olpRegs, kvpRegs, memRegs, hubRegs]

/-- A SWAP_IN's image starts with a header of this sequence and with the page index that was kept (steps 1 and 2 of R185). -/
def State.imageFits (s : State) (q maxLen : Nat) (b : List Byte) : Prop :=
  let x := s.seq q
  let f := fun i n => leNat ((b.drop i).take n)
  let n := indexBytes (x.layers * f 20 4)
  256 ≤ b.length ∧ (f 0 4 = 0x5753514B ∧ f 4 2 = 1 ∧ f 6 2 = q ∧ f 8 1 = x.ctx ∧ f 40 8 = Config.serial.toNat ∧ f 10 2 = x.layers ∧
    f 12 1 = x.kvHeads ∧ f 13 1 = x.headDim / 32 ∧ f 24 4 = x.swapSerial ∧ f 32 8 ≤ maxLen) ∧
  Config.shake256 (Config.gcmDecrypt (s.imageKey x.ctx ((b.drop 48).take 32)) imageIv ((b.take (256 + n)).drop 256)) =
    x.indexDigest

/-- What the Stream Sentinel's windows, trackers and descriptors may move: its state, its banks, records and digests, and what
a READ_STATE writes. -/
def stnAreas : List Area := [.nv, .aon, .bank, .arr, .stn, .olp, .out]
def stnMoves : List (Nat × Nat) := [stnRegs, hifRegs, olpRegs, tileRegs, hubRegs]

/-- What a codec picture may move. -/
def picAreas : List Area := [.hif, .sec, .dram, .cache, .vcd, .olp, .out]
def picRegs : List (Nat × Nat) := [vcdRegs, olpRegs] ++ touchRegs

/-! ## The host link, its rings and its transfers -/

/-- Context `c` belongs to a new tenancy: its nonce is draw number `n`, and it holds no region, key, object or permit (R273,
R275). -/
def State.freshCtx (t : State) (c n : Nat) : Prop :=
  (t.ctx c).nonce = n ∧ (t.ctx c).prots = [] ∧ (t.ctx c).keys = [] ∧ (t.ctx c).cache = [] ∧ (t.ctx c).debugPermit = false ∧
    (t.ctx c).scrubbing = false

/-- What scrubs of contexts that hold nothing on the tiles may move. -/
def scrubAreas : List Area := [.nv, .hif, .sec, .kv, .vcd, .pwr, .out]

/-- A function's place in BAR2 for the tail doorbell (`base` 0) or the head doorbell (`base` 0x400) of ring `r`: the management
ring's for the PF, and the window of a context that the function serves (Table 3). -/
def State.bellAt (s : State) (fn off r base : Nat) : Prop :=
  (fn = 0 ∧ off = 0x200000 + base ∧ r = mgmtRing) ∨
    ∃ c i, bar2Window fn off = some (c, base + 8 * i) ∧ i < 128 ∧ s.servesWindow fn c = true ∧ r = 128 * c + i

/-- An error of ring `r` is set: `b` in its context's register, or `m` in HIF_ERR_STATUS for the management ring. -/
def State.ringErr (t : State) (r : Nat) (b m : Bits) : Prop :=
  match ringCtx r with
  | some c => t.bit (HIF_CTX_ERR_STATUS c) b = true
  | none => t.bit HIF_ERR_STATUS m = true

/-- What a transfer may move. -/
def dmaAreas : List Area := [.nv, .aon, .dram, .bank, .cache, .sec, .arr, .olp] ++ recordAreas
def dmaRegs : List (Nat × Nat) := [hifRegs, olpRegs, tileRegs] ++ touchRegs

/-! ## Olper links, pairs and the Verdict Port -/

/-- A frame on a port that is UP passes the checks of its header and is the next one (R313, R316, R317). -/
def State.takes (s : State) (p : Nat) (h : OlpHdr) : Prop :=
  p < 3 ∧ s.portState p = portUp ∧ h.crcOk = true ∧ h.tagOk = true ∧ h.ctr = (s.port p).rxCtr

/-- A port has trained its lanes and waits for its peer, with draw number `n` as its nonce (steps 3 and 4 of Table 1). -/
def State.trained (t : State) (p : Nat) (lanes : BitVec 8) (n : Nat) : Prop :=
  t.portState p = portAuth ∧ t.fld (OLP_PORT_STATUS p) OLP_PORT_STATUS_LANES = laneCount lanes ∧
    t.fld (OLP_PORT_STATUS p) OLP_PORT_STATUS_LANE_MASK = lanes.toNat ∧ (t.port p).nonce = n ∧ (t.port p).stuck = false ∧
    (t.port p).peer = none

/-- A STANDBY module that may take over (R325, R326). -/
def State.mayTake (s : State) : Prop := s.role = roleStandby ∧ s.pair.refused = false ∧ s.pair.seen < epochTop

/-- It has taken ACTIVE with epoch `e`: its CLAIM frame is due, and it sends TAKEOVER. -/
def State.tookActive (t : State) (e : Nat) : Prop :=
  t.role = roleActive ∧ t.fld OLP_CLAIM OLP_CLAIM_EPOCH = e ∧ t.vrd.claimDue = true ∧ t.pair.takeover = true

/-- What a change of role may move in a module without admitted work. -/
def roleAreas : List Area := [.nv, .aon, .bank, .arr, .stn, .vrd, .pair, .olp] ++ recordAreas
def roleRegs : List (Nat × Nat) := [olpRegs, vrdRegs, stnRegs, tileRegs, hubRegs, oneReg MGT_SETTINGS]

/-- The state right after one step, where the step has one. -/
def stepsTo (s t : State) : Prop := step s = .next t

end Sys2Proof.Machine
end

