-- ==== Sys2Proof/WellFormed.lean ====
section
/-! DEFINITION. Which commands are well formed: every number names something that the module has (Module and Die
Organisation, R14 to R28; Host Interface, R239; Olper Links, R311). A command that is not well formed can come from no
party of the manual; `exec` still gives it a meaning, which changes nothing where the number names nothing. -/

namespace Sys2Proof

/-- Does the domain exist (R22)? -/
def domainExists : Domain → Bool
  | .tile t => decide (t < 64)
  | .hub c => decide (c < 8)
  | .mem m => decide (m < 12)
  | .codec v => decide (v < 8)
  | .port p => decide (p < 3)
  | .hcx => true

/-- Is every operand of a command in the range of what it names? -/
def Instr.wellFormed : Instr → Bool
  | .registerWrite fn off bits _ => decide (fn ≤ 33) && decide (off < 0x4501000) && decide (bits ∈ [8, 16, 32, 64])
  | .glbSetupLockSet fn _ => decide (fn ≤ 33)
  | .aonStart _ _ => true
  | .holdupCharged _ => true
  | .inputBelowReset => true
  | .inputOverVoltage => true
  | .inputRestored _ _ => true
  | .startPermit _ => true
  | .startPermitWithdrawn => true
  | .ddrTraining _ _ _ => true
  | .startReady _ => true
  | .domainOff d => domainExists d
  | .domainOn d => domainExists d
  | .kernel ring _ => decide (ring ≤ 4096)
  | .claimGrant part => decide (part < 8)
  | .staggerWave cluster => decide (cluster < 8)
  | .barrierArrive ring _ tile bar _ => decide (ring ≤ 4096) && decide (tile < 64) && decide (bar < 16)
  | .kernelFinish ring _ _ => decide (ring ≤ 4096)
  | .kernelTimeout ring _ => decide (ring ≤ 4096)
  | .sequencerTrap ring _ tile _ => decide (ring ≤ 4096) && decide (tile < 64)
  | .icacheFill tile _ => decide (tile < 64)
  | .peRequest tile _ q _ => decide (tile < 64) && decide (q < 8)
  | .fallbackHoldExpiry cluster => decide (cluster < 8)
  | .peFillReturn tile q _ => decide (tile < 64) && decide (q < 8)
  | .bankAccessRequest bank _ _ _ group => decide (bank < 512) && decide (group < 8)
  | .bankOwnerWrite bank owner => decide (bank < 512) && owner.all fun c => decide (c < 32)
  | .handoverDrain bank => decide (bank < 512)
  | .bankWake bank => decide (bank < 512)
  | .bankClear bank => decide (bank < 512)
  | .bankIdleRet bank => decide (bank < 512)
  | .freeOffSet tile => decide (tile < 64)
  | .freeOffClear tile => decide (tile < 64)
  | .setEngineCommand tile _ => decide (tile < 64)
  | .setOperationDone cluster => decide (cluster < 8)
  | .sort ring => decide (ring ≤ 4096)
  | .topk ring => decide (ring ≤ 4096)
  | .merge ring => decide (ring ≤ 4096)
  | .intersect ring => decide (ring ≤ 4096)
  | .segreduce ring => decide (ring ≤ 4096)
  | .attend ring => decide (ring ≤ 4096)
  | .verify ring => decide (ring ≤ 4096)
  | .accept ring => decide (ring ≤ 4096)
  | .attnCommit ring _ _ => decide (ring ≤ 4096)
  | .attnTimeout ring _ => decide (ring ≤ 4096)
  | .pftW0Write fn frame _ => decide (fn ≤ 32) && decide (frame < 32768)
  | .pftCheckDone => true
  | .seqRegister ring => decide (ring ≤ 4096)
  | .seqExtend ring => decide (ring ≤ 4096)
  | .seqFork ring => decide (ring ≤ 4096)
  | .seqRelease ring => decide (ring ≤ 4096)
  | .seqPreempt ring => decide (ring ≤ 4096)
  | .seqSwapOut ring => decide (ring ≤ 4096)
  | .seqSwapIn ring _ => decide (ring ≤ 4096)
  | .seqRemap ring => decide (ring ≤ 4096)
  | .seqStart ring _ _ => decide (ring ≤ 4096)
  | .holdEnd seqId _ => decide (seqId < 4096)
  | .seqFrameTimeout ring _ => decide (ring ≤ 4096)
  | .swapImageFlushed ring _ _ => decide (ring ≤ 4096)
  | .stnCtrlEnable v => v.getLsbD 31
  | .stnCtrlDisable v => !v.getLsbD 31
  | .sentinelRunning => true
  | .sentinelDoorbell fn _ bits _ => decide (fn ≤ 32) && decide (bits ∈ [8, 16, 32, 64])
  | .windowFetchDone chan _ => decide (chan < 4096)
  | .modelDone chan _ => decide (chan < 4096)
  | .modelFault chan _ _ => decide (chan < 4096)
  | .staleTimeout chan => decide (chan < 4096)
  | .sentConfigure ring => decide (ring ≤ 4096)
  | .sentEnable ring => decide (ring ≤ 4096)
  | .sentDisable ring => decide (ring ≤ 4096)
  | .sentReset ring => decide (ring ≤ 4096)
  | .sentAck ring => decide (ring ≤ 4096)
  | .sentLoadModel ring _ => decide (ring ≤ 4096)
  | .sentUnloadModel ring => decide (ring ≤ 4096)
  | .sentReadState ring => decide (ring ≤ 4096)
  | .codecRegister ring => decide (ring ≤ 4096)
  | .codecDecode ring => decide (ring ≤ 4096)
  | .codecEncode ring => decide (ring ≤ 4096)
  | .codecFlush ring => decide (ring ≤ 4096)
  | .codecUnregister ring => decide (ring ≤ 4096)
  | .pictureStart _ => true
  | .pictureDone _ => true
  | .pictureTimeout => true
  | .pcieLinkUp width speed => decide (width ∈ [1, 2, 4, 8, 16]) && decide (1 ≤ speed ∧ speed ≤ 5)
  | .pcieLinkDown => true
  | .perstN _ => true
  | .vfFlr v => decide (1 ≤ v ∧ v ≤ 32)
  | .pfFlr => true
  | .servingFunctionChange numVfs _ => decide (numVfs ≤ 32)
  | .submissionTailDoorbell fn _ bits _ => decide (fn ≤ 32) && decide (bits ∈ [8, 16, 32, 64])
  | .completionHeadDoorbell fn _ bits _ => decide (fn ≤ 32) && decide (bits ∈ [8, 16, 32, 64])
  | .descriptorFetch ring count _ => decide (ring ≤ 4096) && decide (0 < count)
  | .holdoffExpiry ring => decide (ring ≤ 4096)
  | .dmaCopy ring => decide (ring ≤ 4096)
  | .dmaFill ring => decide (ring ≤ 4096)
  | .dmaDone ring _ _ _ _ => decide (ring ≤ 4096)
  | .fence ring => decide (ring ≤ 4096)
  | .abort ring _ => decide (ring ≤ 4096)
  | .ringCreate ring => decide (ring ≤ 4096)
  | .ringDelete ring => decide (ring ≤ 4096)
  | .mgmtRingEnable _ => true
  | .ctxRingEnable fn ctx _ => decide (fn ≤ 32) && decide (ctx < 32)
  | .versionSelectWrite fn ctx _ => decide (fn ≤ 32) && decide (ctx < 32)
  | .patrolRead chan _ => decide (chan < 12)
  | .partDefine ring => decide (ring ≤ 4096)
  | .partSchedule ring => decide (ring ≤ 4096)
  | .ctxGrant ring => decide (ring ≤ 4096)
  | .ctxScrub ring => decide (ring ≤ 4096)
  | .provReport ring => decide (ring ≤ 4096)
  | .provCert ring => decide (ring ≤ 4096)
  | .keyInstall ring => decide (ring ≤ 4096)
  | .keyRemove ring => decide (ring ≤ 4096)
  | .weightImport ring => decide (ring ≤ 4096)
  | .ctxDebug ring => decide (ring ≤ 4096)
  | .sliceExpiry part => decide (part < 8)
  | .tenantSwitch part _ => decide (part < 8)
  | .contextBecomesCurrent part => decide (part < 8)
  | .rngFail => true
  | .powerSample _ => true
  | .peakProjection _ => true
  | .supplyWarn _ => true
  | .holdRelease _ _ => true
  | .tjHighStep cluster _ => decide (cluster ≤ 8)
  | .tjTrip sensor => decide (sensor < 85)
  | .inletShutdown => true
  | .airflowEstimate _ => true
  | .airStopCountdown => true
  | .voltageLoopUpdate cluster _ _ => decide (cluster < 8)
  | .droopDetect cluster _ _ => decide (cluster < 8)
  | .modeChangeCluster cluster => decide (cluster < 8)
  | .hint ring => decide (ring ≤ 4096)
  | .hintExpiry ring _ => decide (ring ≤ 4096)
  | .energyAccumulate _ _ => true
  | .powerMode ring => decide (ring ≤ 4096)
  | .energySnapshot ring => decide (ring ≤ 4096)
  | .portTraining port _ _ => decide (port < 3)
  | .trainingRetry port _ => decide (port < 3)
  | .hello port _ => decide (port < 3)
  | .proof port _ => decide (port < 3)
  | .lightRegained port _ => decide (port < 3)
  | .idle port _ => decide (port < 3)
  | .replayTimeout port => decide (port < 3)
  | .laneDrop port lane => decide (port < 3) && decide (lane < 8)
  | .data port _ win _ _ => decide (port = 1 ∨ port = 2) && decide (win < 16)
  | .barrier port _ ring _ _ _ => decide (port = 1 ∨ port = 2) && decide (ring < 65536)
  | .digest port _ chan block _ _ => decide (port = 0) && decide (chan < 4096) && decide (block < 2 ^ 18)
  | .heartbeatSend => true
  | .heartbeat _ _ => true
  | .partnerLost => true
  | .standbyWaitTimeout => true
  | .swapTimeout => true
  | .revertTimer => true
  | .leavingTimeout => true
  | .swapDue => true
  | .swapDeferred => true
  | .pairConfig ring => decide (ring ≤ 4096)
  | .roleSwap ring => decide (ring ≤ 4096)
  | .isolate ring => decide (ring ≤ 4096)
  | .rejoin ring => decide (ring ≤ 4096)
  | .cascadeConfig ring => decide (ring ≤ 4096)
  | .cascadeDegraded port => decide (port = 1 ∨ port = 2)
  | .windowOpen ring => decide (ring ≤ 4096)
  | .windowClose ring => decide (ring ≤ 4096)
  | .linkRetrain ring => decide (ring ≤ 4096)
  | .verdictFrameSend => true
  | .claimFrameIdle => true
  | .mergeFrame input bytes => decide (input < 2) && decide (bytes.length ≤ 64)
  | .mergeAgeOut => true
  | .mergeEpochReset => true
  | .trayLatchN => true
  | .entdaa addr => decide (addr < 128)
  | .pldmSensorRead sensor => decide (sensor < 256)
  | .platformEventMessage => true
  | .getState => true
  | .setCap watts _ => decide (watts < 65536)
  | .mctpArm _ _ => true
  | .mctpDisarm _ _ => true
  | .setLock lock => decide (lock ≤ 1)
  | .getEvents _ _ => true
  | .link _ slot _ => decide (slot < 64)
  | .linkSend => true
  | .managerTimeout => true
  | .status _ _ => true
  | .statusBroadcast => true
  | .command _ _ _ => true
  | .response _ _ _ _ => true
  | .imgOffer _ _ _ _ => true
  | .imgData _ _ _ _ _ _ => true
  | .imgAck _ _ _ => true
  | .imgEnd _ _ _ => true
  | .chunkResend _ => true
  | .offerPartialDiscard => true
  | .recoveryImageSend slot => decide (slot < 48)
  | .imageInject ring _ => decide (ring ≤ 4096)
  | .arm ring _ => decide (ring ≤ 4096)
  | .disarm ring => decide (ring ≤ 4096)
  | .ownerLock ring => decide (ring ≤ 4096)
  | .svnCommit ring => decide (ring ≤ 4096)
  | .eventRead ring => decide (ring ≤ 4096)
  | .armExpiry => true
  | .actStrobe _ _ => true
  | .reserveOk _ => true
  | .accelerometerShock _ _ _ => true
  | .movingExpiry => true
  | .castN _ => true
  | .castFreeze => true
  | .castRelease => true
  | .castAddr _ => true
  | .castData => true
  | .extest _ => true
  | .idcode => true
  | .samplePreload _ => true
  | .bypass code => decide (code ∉ [0x00#8, 0x01#8, 0x02#8, 0x20#8, 0x21#8, 0x22#8, 0x23#8])
  | .tapReset => true
  | .monCntSelWrite i _ => decide (i < 16)
  | .clearAll => true
  | .countEn _ => true
  | .histFreeze _ => true
  | .compat _ => true
  | .monBwWindowWrite _ => true
  | .bwWindowEnd => true
  | .monHistCfgWrite h _ => decide (h < 8)
  | .traceRecord => true
  | .latchClosed _ => true
  | .mergeLinePin input line _ => decide (input < 2) && decide (line < 8)
  | .cascadeTakeoverFlag port _ => decide (port = 1 ∨ port = 2)
  | .dmaTimeout ring _ _ => decide (ring ≤ 4096)
  | .aonPowerLoss => true
  | .freshDraw => true
  | .digestBlockTimeout chan block => decide (chan < 4096) && decide (block < 2 ^ 18)
  | .restartCondition _ => true
  | .msixUnmask fn vector => decide (fn ≤ 32) && decide (vector < 2048)

end Sys2Proof
end

