-- ==== Sys2Proof/Certificates/Slice0/Obligations.lean ====
section
/-! DEFINITION. The statements for the provers. A statement that a command answers a next state names the conditions on the
state and the operands under which it has its own effect, the effect, and what it leaves alone (State.moves). -/

open Sys2Proof Sys2Proof.Machine

/-! ## The block as a whole -/

/-- A step takes the command at the front of the queue and runs it with the rest of the queue. -/
def Obligations.StepRunsFront : Prop :=
  ∀ (c : Instr) (rest : List Instr) (s : State),
    step { s with pending := c :: rest } = exec c { s with pending := rest }

/-- On an empty queue a microsecond passes (the model's choice, notes/assumptions/3.md): MGT_UPTIME advances by one while the
always-on domain lives, and nothing outside the MON block, the trace queue and what the module sends moves. -/
def Obligations.IdleStepTicks : Prop :=
  ∀ s : State, s.pending = [] → ∃ t, step s = .next t ∧
    (s.live → t.reg MGT_UPTIME = s.reg MGT_UPTIME + 1) ∧
    (s.aon.rails = false ∨ s.aon.cast.frozen = true → t = s) ∧ s.moves t [.out] [oneReg MGT_UPTIME]

/-- What a module reset leaves by the register tables and chapters: the module without power, every switched domain OFF, no
work, no ring, no registered sequence or stream, no Sentinel channel, and registers at their Reset columns. -/
def Obligations.ResetState : Prop :=
  State.reset.pending = [] ∧ State.reset.aon.rails = false ∧ State.reset.allOff ∧ State.reset.hif.rings = [] ∧
    (∀ o, State.reset.reg o = regReset o) ∧ (∀ q, (State.reset.seq q).state = .unregistered) ∧
    (∀ g, g < 512 → State.reset.bankPwr g = pwrOff ∧ State.reset.bankClean g = true) ∧
    (∀ n, (State.reset.chan n).enabled = false) ∧ State.reset.vcd.streams = [] ∧
    State.reset.fld OLP_ROLE OLP_ROLE_ROLE = roleSolo

/-- Both byte memories keep their canonical form through every step. -/
def Obligations.StepKeepsMemories : Prop :=
  ∀ s t : State, s.memoriesOk → stepsTo s t → t.memoriesOk

/-- The static verdict lines show exactly what channels, role, core rails and a Cast freeze give them, after every step from
a state in which they do. -/
def Obligations.StepKeepsLines : Prop :=
  ∀ s t : State, s.linesShown → stepsTo s t → t.linesShown

/-- Both invariants hold right after reset. -/
def Obligations.ResetMeetsInvariants : Prop := State.reset.memoriesOk ∧ State.reset.linesShown

/-- No command touches the queue of commands that wait. -/
def Obligations.CommandsKeepQueue : Prop :=
  ∀ (c : Instr) (s t : State), exec c s = .next t → t.pending = s.pending

/-- In a Cast freeze a command changes nothing, unless it belongs to the Cast logic, the TAP, the merge outside the module,
the pins whose level is only noted, or what ends the freeze. -/
def Obligations.FreezeHoldsState : Prop :=
  ∀ (c : Instr) (s : State), s.aon.cast.frozen = true → outlivesFreeze c = false → exec c s = .next s

/-! ## Registers -/

/-- A write of a plain register by the physical function: each field by its access code. -/
def Obligations.RegisterWriteFields : Prop :=
  ∀ (s : State) (off x : Nat) (r : RegRow) (b : Block) (v : W64), s.reaches → off < 0x4000000 →
    regFind off = some r → regCover off = some (off, r) → blockAt off = some (b, x) → accessFits off r.width = true →
    s.blockOn b = true → plainReg b off = true →
    ∃ t, exec (.registerWrite 0 off r.width (.write v)) s = .next t ∧
      (∀ f ∈ r.flds,
        (f.acc = .rw → t.fld off f.bits = getBits (narrowTo r v) f.bits) ∧
        (f.acc = .ro ∨ f.acc = .wo → t.fld off f.bits = s.fld off f.bits) ∧
        (f.acc = .w1c → off ≠ GLB_ERR_STATUS →
          t.fld off f.bits = s.fld off f.bits &&& (f.bits.top - getBits (narrowTo r v) f.bits)) ∧
        (f.acc = .rwl → s.setupLocked = false → t.fld off f.bits = getBits (narrowTo r v) f.bits) ∧
        (f.acc = .rwl → s.setupLocked = true →
          t.fld off f.bits = s.fld off f.bits ∧ t.bit GLB_ERR_STATUS GLB_ERR_STATUS_LOCKED_WRITE = true)) ∧
      s.moves t [] [oneReg off, oneReg GLB_ERR_STATUS, oneReg GLB_ERR_ADDR]

/-- An access of the physical function that lands on no register, has the wrong width or alignment, or reaches a domain that
is OFF: its error bit sets, GLB_ERR_ADDR keeps the offset of the first error, a read returns zero, and a write has no effect. -/
def Obligations.RegisterAccessErrors : Prop :=
  ∀ (s : State) (off bits : Nat) (acc : RegAccess) (e : Bits), s.reaches → off < 0x4000000 →
    ((e = GLB_ERR_STATUS_UNMAPPED_ACCESS ∧ regCover off = none) ∨
     (e = GLB_ERR_STATUS_NARROW_ACCESS ∧ accessFits off bits = false) ∨
     (e = GLB_ERR_STATUS_OFF_DOMAIN_ACCESS ∧ accessFits off bits = true ∧
        ∃ r b x, regCover off = some (off, r) ∧ blockAt off = some (b, x) ∧ s.blockOn b = false)) →
    ∃ t, exec (.registerWrite 0 off bits acc) s = .next t ∧ t.bit GLB_ERR_STATUS e = true ∧
      t.fld GLB_ERR_ADDR GLB_ERR_ADDR_OFFSET =
        (if s.reg GLB_ERR_STATUS = 0 then off else s.fld GLB_ERR_ADDR GLB_ERR_ADDR_OFFSET) ∧
      (acc = .read → Out.regData 0 off 0 ∈ t.out) ∧
      s.moves t (match acc with | .read => [.out] | .write _ => []) [oneReg GLB_ERR_STATUS, oneReg GLB_ERR_ADDR]

/-- A write of 1 to SET by the physical function sets LOCK; a write of 0 leaves it, and LOCK stays set whatever a later write
holds. -/
def Obligations.SetupLockSets : Prop :=
  ∀ (s : State) (v : W32), s.reaches →
    ∃ t, exec (.glbSetupLockSet 0 v) s = .next t ∧
      t.setupLocked = (s.setupLocked || v.getLsbD 1) ∧ s.moves t [] [oneReg GLB_SETUP_LOCK]

/-! ## Power, start and the input -/

/-- The AON start from step 1: the rails, the slot and the fuses' registers, and the phase by what the boot ROM, the loader
and the hold-up check find. -/
def Obligations.AonStartPhases : Prop :=
  ∀ (a : AonFacts) (f : StartFacts) (s : State) (c : Instr), s.aon.cast.frozen = false → s.aonIdle = true →
    c = .aonStart a f ∨ c = .inputRestored a f →
    ∃ t, exec c s = .next t ∧ t.aon.rails = true ∧ t.aon.input = true ∧
      t.fld MGT_STATE MGT_STATE_SLOT = a.slotPins.toNat ∧ t.reg GLB_SERIAL = Config.serial ∧
      (a.loaderOk = false → t.phase = phFailed ∧ t.fld MGT_STATE MGT_STATE_START_FAIL = sfLoaderBad) ∧
      (a.loaderOk = true → s.imageOk (s.imageFacts a.image) = false → t.phase = phRecovery ∧ t.aon.level = .loader ∧
        t.fld MGT_STATE MGT_STATE_START_FAIL = sfImageBad ∧ t.fld MGT_UPDATE MGT_UPDATE_STATE = 6) ∧
      (a.loaderOk = true → s.imageOk (s.imageFacts a.image) = true → a.holdupOk = false → t.phase = phWaitPermit ∧
        t.aon.level = .pedestal ∧ t.fld MGT_STATE MGT_STATE_START_FAIL = sfHoldupLow ∧
        t.nv.boots = min 65535 (s.nv.boots + 1)) ∧
      (a.loaderOk = true → s.imageOk (s.imageFacts a.image) = true → a.holdupOk = true → s.aon.permit = false → t.phase = phWaitPermit ∧
        t.aon.level = .pedestal ∧ t.fld MGT_STATE MGT_STATE_START_FAIL = 0 ∧ t.nv.boots = min 65535 (s.nv.boots + 1))

/-- The hold-up bank charging, and the input returning while the AON rails hold, lead to WAIT_PERMIT with START_FAIL by the
hold-up check, and start nothing without START_PERMIT. The input leaving its range removes every switched rail and resets
every switched domain; the event is logged. -/
def Obligations.InputComesAndGoes : Prop :=
  (∀ (a : AonFacts) (f : StartFacts) (s : State), s.live → s.aon.permit = false →
       (s.phase = phWaitPermit → s.fld MGT_STATE MGT_STATE_START_FAIL = sfHoldupLow →
         ∃ t, exec (.holdupCharged f) s = .next t ∧ t.aon.holdupOk = true ∧ t.phase = phWaitPermit ∧
           t.fld MGT_STATE MGT_STATE_START_FAIL = 0 ∧ s.moves t [.aon] [oneReg MGT_STATE]) ∧
       (s.aon.input = false → s.aon.level = .pedestal →
         ∃ t, exec (.inputRestored a f) s = .next t ∧ t.aon.input = true ∧ t.aon.holdupOk = a.holdupOk ∧
           t.phase = phWaitPermit ∧ t.fld MGT_STATE MGT_STATE_START_FAIL = (if a.holdupOk then 0 else sfHoldupLow) ∧
           s.moves t [.aon, .nv] [oneReg MGT_STATE])) ∧
  (∀ (s : State) (c : Instr) (ev : Nat), s.live → s.aon.input = true →
       (c = .inputBelowReset ∧ ev = evSupply) ∨ (c = .inputOverVoltage ∧ ev = evOverVoltage) →
       ∃ t, exec c s = .next t ∧ t.allOff ∧ t.aon.input = false ∧ t.aon.holdupOk = false ∧ t.aon.rails = true ∧
         t.aon.overVoltage = decide (ev = evOverVoltage) ∧ t.nv.image = s.nv.image ∧ t.nv.boots = s.nv.boots ∧
         (∃ e ∈ t.nv.log, e.code = ev) ∧ (s.aon.level = .pedestal → t.phase = phAonStart))

/-- A loss of AON power is a module reset: every register is at its reset value, and the non-volatile state stays. A die
sensor at its trip limit: every switched domain goes OFF, PWR_TRIP names the sensor, the trip is reported, and the module
acts only on a fresh START_PERMIT once it has cooled. -/
def Obligations.PowerLossAndTrip : Prop :=
  (∀ s : State, s.aon.rails = true →
       ∃ t, exec .aonPowerLoss s = .next t ∧ t.allOff ∧ t.aon.rails = false ∧ t.aon.cast.frozen = false ∧
         (∀ o, t.reg o = regReset o) ∧ t.mem = {} ∧ t.hif.rings = [] ∧ t.kv = {} ∧ t.stn = {} ∧ t.vcd = {} ∧
         t.nv.image = s.nv.image ∧ t.nv.copy0 = s.nv.copy0 ∧ t.nv.copy1 = s.nv.copy1 ∧ t.nv.minSvn = s.nv.minSvn ∧
         t.nv.boots = s.nv.boots ∧ t.nv.log = s.nv.log ∧ t.merge = s.merge) ∧
  (∀ (s : State) (sensor : Nat), s.live → sensor < 85 →
       ∃ t, exec (.tjTrip sensor) s = .next t ∧ t.allOff ∧ t.bit PWR_TRIP PWR_TRIP_TRIPPED = true ∧
         t.fld PWR_TRIP PWR_TRIP_SENSOR = sensor ∧ t.aon.fresh = false ∧ t.aon.restartHeld = true ∧
         (evTjTrip, sensor) ∈ t.aon.events ∧ (s.aon.level = .pedestal → t.phase = phWaitPermit))

/-- What the module waits for comes: the switched rails rise, PD_HCX is ON, and the start sequence goes on to training, or
fails with its code. The model's choices in it (notes/assumptions/22.md): a restart condition after a fall
of the input. -/
def Obligations.StartPermitActs : Prop :=
  ∀ (f : StartFacts) (s : State), s.live →
    (s.waitsForPermit → s.aon.latch = true → s.aon.permit = false →
      ∃ t, exec (.startPermit f) s = .next t ∧ t.startedBy f ∧ t.aon.permit = true) ∧
    (s.waitsForPermit → s.aon.fresh = true → s.aon.permit = true →
      ∃ t, exec (.latchClosed f) s = .next t ∧ t.startedBy f ∧ t.aon.latch = true) ∧
    ({ s with aon := { s.aon with restartHeld := false } }.waitsForPermit → s.aon.restartHeld = true → s.aon.latch = true →
      s.aon.fresh = true → s.aon.permit = true →
      ∃ t, exec (.restartCondition f) s = .next t ∧ t.startedBy f ∧ t.aon.restartHeld = false)

/-- Training brings the twelve channels up; a failed one ends the start with DDR_TRAIN, with no channel brought up. The
self-test and the settings end the start: phase READY, the Verdict Port open and HIF_STATUS.READY as the link is up; a
failed self-test or a narrow link ends it in phase FAILED. The model's choices in it (notes/assumptions/30.md): no channel
after a failed training. -/
def Obligations.StartSequenceEnds : Prop :=
  (∀ (s : State) (ok : BitVec 12) (temp : Int) (ms : BitVec 16), s.acts → s.phase = phStarting → s.isOn .hcx = true →
       s.aon.trained = 0 →
       let image := s.fld MGT_IMAGE MGT_IMAGE_IMAGE_ID
       let full := s.nv.trainedFor ≠ some image ∨ 40 < (temp - s.nv.trainedTemp).natAbs
       ∃ t, exec (.ddrTraining ok temp ms) s = .next t ∧ t.aon.trained = ok ∧
         (∀ m, m < 12 → t.bit (MEM_STATUS m) MEM_STATUS_TRAINED = ok.getLsbD m ∧
           t.bit (MEM_STATUS m) MEM_STATUS_TRAIN_FAIL = !ok.getLsbD m ∧ t.fld (MEM_STATUS m) MEM_STATUS_TRAIN_MS = ms.toNat ∧
           (t.bit (MEM_STATUS m) MEM_STATUS_FULL_TRAIN = true ↔ full) ∧
           t.isOn (.mem m) = (ok == 0xFFF || s.isOn (.mem m))) ∧
         (ok = 0xFFF → t.phase = phStarting ∧ t.nv.trainedFor = some image ∧ (full → t.nv.trainedTemp = temp)) ∧
         (ok ≠ 0xFFF → t.phase = phFailed ∧ t.fld MGT_STATE MGT_STATE_START_FAIL = sfDdrTrain) ∧
         s.moves t [.nv, .aon] [oneReg MGT_STATE, oneReg GLB_PWR_DOMAIN_STATUS2, memRegs]) ∧
  (∀ (s : State) (ok : Bool), s.acts → s.phase = phStarting → s.aon.secDone = true → s.aon.trained = 0xFFF →
       s.role = roleSolo ∨ s.role = roleIsolated →
       ∃ t, exec (.startReady ok) s = .next t ∧
         (ok = false → t.phase = phFailed ∧ t.fld MGT_STATE MGT_STATE_START_FAIL = sfSelftest) ∧
         (ok = true → t.vrd.open_ = true ∧ t.mem = s.mem ∧ t.sec = s.sec ∧ t.kv = s.kv) ∧
         (ok = true → s.bit HIF_STATUS HIF_STATUS_NARROW = false → t.phase = phReady ∧ t.ready = s.linkUp ∧
           (evReady, 0) ∈ t.aon.events) ∧
         (ok = true → s.bit HIF_STATUS HIF_STATUS_NARROW = true → t.phase = phFailed ∧
           t.fld MGT_STATE MGT_STATE_START_FAIL = sfLinkNarrow))

/-- A request to switch a domain OFF that holds no admitted work and on which no domain that is ON depends clears its status
bit and no other domain's; a refused request leaves it ON and is logged. A request to switch a domain ON whose dependencies
are ON sets its status bit; a refused request leaves it OFF and is logged. A memory channel that has not trained is inside
its OFF-to-ON transition until DDR_TRAINING ends it. -/
def Obligations.DomainSwitches : Prop :=
  (∀ (s : State) (d : Domain), s.live → domValid d = true → s.aon.level = .pedestal → s.isOn d = true →
       ∃ t, exec (.domainOff d) s = .next t ∧
         (s.mayPowerOff d = true → t.isOn d = false) ∧
         (s.mayPowerOff d = false → t.isOn d = true ∧ (∃ e ∈ t.nv.log, e.code = evDomainRefused) ∧ s.moves t [.nv] []) ∧
         (∀ e, domValid e = true → e ≠ d → t.isOn e = s.isOn e)) ∧
  (∀ (s : State) (d : Domain), s.live → s.noLaunch → domValid d = true → s.aon.level = .pedestal → s.isOn d = false →
       ∃ t, exec (.domainOn d) s = .next t ∧
         (s.untrained d = true → t.isOn d = false ∧ s.moves t [] []) ∧
         (s.untrained d = false → s.mayPowerOn d = true → t.isOn d = true) ∧
         (s.untrained d = false → s.mayPowerOn d = false → t.isOn d = false ∧ ∃ e ∈ t.nv.log, e.code = evDomainRefused) ∧
         (∀ e, domValid e = true → e ≠ d → t.isOn e = s.isOn e) ∧
         s.moves t (if s.mayPowerOn d then [.olp] else [.nv]) [glbRegs, memRegs, olpRegs])

/-! ## Leaving service -/

/-- A module that serves no pair and has no work in flight shuts down at once: every switched domain is OFF, PWR_SHUTDOWN
shows the cause, and the module waits for its restart condition and a fresh START_PERMIT: an inlet above 65 °C shuts it down
after 10 s, an airflow that stays away at the end of its countdown. While the countdown runs, LEFT shows the 10 ms still to
go, and a withdrawn permit outside the start only shows on its pin. An opened tray latch takes a module that serves no
pair out of service at once: the role is ISOLATED and the Olper ports are OFF. Without core rails the latch is only noted.
500 µs after LEAVING without a TAKEOVER the module stops transmitting: ACTIVE is given up for STANDBY after a link loss or
UE_FAILOVER. -/
def Obligations.ServiceLeft : Prop :=
  ((∀ (s : State) (c : Instr) (cause : Nat), s.live → s.aon.core = true → s.servesPair = false → s.hif.works = [] →
          s.pair.leaving = none → s.bit PWR_SHUTDOWN PWR_SHUTDOWN_SHUTTING = false →
          (c = .startPermitWithdrawn ∧ s.phase = phStarting ∧ cause = 0) ∨
          (c = .inletShutdown ∧ s.pwr.inletHot = true ∧ s.pwr.inletOkAt + 10000000 ≤ s.now ∧ cause = 1) ∨
          (c = .airStopCountdown ∧ s.bit PWR_SHUTDOWN PWR_SHUTDOWN_PENDING = true ∧ s.pwr.stopAt ≤ s.now ∧ cause = 2) →
          ∃ t, exec c s = .next t ∧ t.allOff ∧ t.phase = phShutdown ∧ t.fld PWR_SHUTDOWN PWR_SHUTDOWN_CAUSE = cause ∧
            t.bit PWR_SHUTDOWN PWR_SHUTDOWN_SHUTTING = true ∧ t.bit PWR_SHUTDOWN PWR_SHUTDOWN_PENDING = false ∧
            t.aon.fresh = false ∧ t.aon.restartHeld = true ∧ t.nv.boots = s.nv.boots) ∧
     (∀ s : State, s.live →
          (s.now < s.pwr.stopAt → s.pwr.stopAt ≤ s.now + 655350000 → s.bit PWR_SHUTDOWN PWR_SHUTDOWN_PENDING = true →
            (∃ t, exec .airStopCountdown s = .next t ∧ s.moves t [] []) ∧
            ∃ left : Nat, getBits (s.regRead PWR_SHUTDOWN) PWR_SHUTDOWN_LEFT = left ∧
              s.pwr.stopAt ≤ s.now + 10000 * left ∧ s.now + 10000 * left < s.pwr.stopAt + 10000) ∧
          (s.phase ≠ phStarting →
            ∃ t, exec .startPermitWithdrawn s = .next t ∧ t.aon = { s.aon with permit := false } ∧ s.moves t [.aon] []))) ∧
  ((∀ s : State, s.live →
          (s.aon.core = false → ∃ t, exec .trayLatchN s = .next t ∧ t.aon = { s.aon with latch := false } ∧ s.moves t [.aon] []) ∧
          (s.aon.core = true → s.servesPair = false → s.hif.works = [] → s.pair.leaving = none → s.pair.held = [] →
            ∃ t, exec .trayLatchN s = .next t ∧ t.aon.latch = false ∧ t.role = roleIsolated ∧ t.pair.leaving = none ∧
              t.fld VRD_STATUS VRD_STATUS_LINES = 0 ∧ ∀ p, p < 3 → t.isOn (.port p) = false)) ∧
     (∀ (s : State) (why : LeaveFor), s.acts → s.pair.leaving = some why → why = .pcie ∨ why = .ue →
          s.pair.leaveAt + 500 ≤ s.now → s.hif.works = [] → s.pair.held = [] → s.pair.swap = none → s.servesPair = true →
          ∃ t, exec .leavingTimeout s = .next t ∧ t.pair.leaving = none ∧ t.role = roleStandby ∧ t.txOn = false ∧
            t.fld OLP_SWITCH_LAST OLP_SWITCH_LAST_CAUSE = (if why = .pcie then causePcie else causeUe) ∧
            t.mem = s.mem ∧ t.sec = s.sec ∧ t.kv = s.kv))

/-! ## Cast capture and the TAP -/

/-- CAST_N held low long enough, and CAST_FREEZE on the TAP, freeze the module: the freeze is counted, the verdict lines are
de-asserted, and nothing else moves. A freeze ends only with a module reset: CAST_RELEASE, the input leaving its range and a
Tj trip end it, with every register but PWR_TRIP at its reset value and the rails as they were. -/
def Obligations.CastFreeze : Prop :=
  (∀ (s : State) (c : Instr) (n : Nat), s.live → (c = .castN n ∧ 1040 ≤ n) ∨ c = .castFreeze →
       ∃ t, exec c s = .next t ∧ t.aon.cast.frozen = true ∧ t.aon.cast.freezes = s.aon.cast.freezes + 1 ∧
         t.fld VRD_STATUS VRD_STATUS_LINES = 0 ∧ t.txOn = false ∧ (c = .castFreeze → t.aon.cast.instr = tiFreeze) ∧
         t.aon.level = s.aon.level ∧ t.aon.core = s.aon.core ∧ s.moves t [.aon] []) ∧
  (∀ (s : State) (c : Instr) (sensor : Nat), s.aon.rails = true → s.aon.cast.frozen = true → sensor < 85 →
       c = .castRelease ∨ c = .inputBelowReset ∨ c = .inputOverVoltage ∨ c = .tjTrip sensor →
       ∃ t, exec c s = .next t ∧ t.aon.cast.frozen = false ∧ t.aon.cast.freezes = s.aon.cast.freezes ∧ t.aon.rails = true ∧
         t.allOff ∧ t.aon.level = .off ∧ (∀ o, o ≠ PWR_TRIP → t.reg o = regReset o) ∧ t.mem = {} ∧ t.hif.rings = [] ∧
         (c = .tjTrip sensor → t.bit PWR_TRIP PWR_TRIP_TRIPPED = true ∧ t.fld PWR_TRIP PWR_TRIP_SENSOR = sensor) ∧
         (c = .castRelease → t.reg PWR_TRIP = regReset PWR_TRIP ∧ t.aon.cast.instr = tiRelease ∧ t.aon.input = s.aon.input) ∧
         (c = .inputBelowReset ∨ c = .inputOverVoltage → t.aon.input = false ∧ t.aon.overVoltage = decide (c = .inputOverVoltage)) ∧
         t.nv.image = s.nv.image ∧ t.nv.log = s.nv.log)

/-- The TAP's instructions of the standard: each reaches Update-IR and shifts out its data register. CAST_ADDR takes the
address and shifts out the previous one; each CAST_DATA of a frozen module shifts out 72 bits and advances the address by 8
within its space; what Cast must not show is the fixed pattern with bit 0 set. Outside a freeze both data registers capture
zero. -/
def Obligations.TapPort : Prop :=
  (∀ (s : State) (cells : BitVec 32) (code : BitVec 8), s.aon.rails = true →
       (∃ t, exec .idcode s = .next t ∧ t.aon.cast.instr = tiIdcode ∧ t.out = .tdo 32 idcodeWord :: s.out ∧
         s.moves t [.aon, .out] []) ∧
       (∃ t, exec .tapReset s = .next t ∧ t.aon.cast = { s.aon.cast with instr := tiIdcode, driven := false, tckAt := some s.now } ∧
         s.moves t [.aon] []) ∧
       (selectsBypass code = true → ∃ t, exec (.bypass code) s = .next t ∧ t.aon.cast.instr = tiBypass ∧
         t.out = .tdo 1 0 :: s.out ∧ s.moves t [.aon, .out] []) ∧
       (∃ t, exec (.samplePreload cells) s = .next t ∧ t.aon.cast =
           { s.aon.cast with instr := tiSample, driven := false, tckAt := some s.now, cells := cells } ∧
         (∃ v, t.out = .tdo 32 v :: s.out ∧
           v / 2 ^ 21 % 2 = (if s.aon.permit then 1 else 0) ∧ v / 2 ^ 23 % 2 = (if s.aon.reserveOk then 1 else 0) ∧
           v / 2 ^ 24 % 2 = (if s.aon.latch then 0 else 1)) ∧ s.moves t [.aon, .out] []) ∧
       (s.extestActs = true → ∃ t, exec (.extest cells) s = .next t ∧ t.aon.cast.instr = tiExtest ∧ t.aon.cast.driven = true ∧
         t.aon.cast.cells = (if s.cellsMayEnable then cells else cells &&& ~~~(0x2100#32)) ∧ s.moves t [.aon, .out] []) ∧
       (s.extestActs = false → ∃ t, exec (.extest cells) s = .next t ∧ t.aon.cast.driven = false ∧
         t.aon.cast.cells = s.aon.cast.cells ∧ t.out = .tdo 1 0 :: s.out ∧ s.moves t [.aon, .out] [])) ∧
  (∀ (s : State) (v : BitVec 48), s.aon.rails = true →
       (∃ t, exec (.castAddr v) s = .next t ∧ t.aon.cast.addr = v ∧ t.aon.cast.instr = tiAddr ∧
         t.out = .tdo 48 (if s.aon.cast.frozen then s.aon.cast.addr.toNat else 0) :: s.out ∧ s.moves t [.aon, .out] []) ∧
       (s.aon.cast.frozen = false → ∃ t, exec .castData s = .next t ∧ t.out = .tdo 72 0 :: s.out ∧
         t.aon.cast.addr = s.aon.cast.addr ∧ s.moves t [.aon, .out] []) ∧
       (s.aon.cast.frozen = true → ∃ t w, exec .castData s = .next t ∧ t.out = .tdo 72 w :: s.out ∧ w < 2 ^ 72 ∧
         t.aon.cast.addr.toNat = s.aon.cast.addr.toNat / 2 ^ 44 * 2 ^ 44 + (s.aon.cast.addr.toNat % 2 ^ 44 + 8) % 2 ^ 44 ∧
         (Config.debugClosed = true ∨ 6 ≤ s.aon.cast.addr.toNat / 2 ^ 44 → w / 2 ^ 8 = castPattern.toNat ∧ w % 2 = 1) ∧
         s.moves t [.aon, .out] []))

/-! ## The MON block -/

/-- A selection that passes the checks clears its counter and starts counting anew; one that fails sets BAD_SELECT and
changes neither. The controls of MON_CTRL: CLEAR_ALL clears every counter and bandwidth register, COUNT_EN and HIST_FREEZE
take the value written, and COMPAT takes the bits whose selection has CTX_EN; a bit refused sets COMPAT_REFUSED; the write
itself counts as payload from the host. A bandwidth window that is over gives each port its LAST and PEAK. A histogram
unit takes its configuration, unless it is enabled. An event of a type that SOURCES takes is queued, or dropped at a full
queue of 64; the oldest record of the queue is written to the host ring as 32 bytes, or dropped where STOP_FULL finds the
ring full. The model's choices in it (notes/assumptions/30.md): context filters, the queue of the trace. -/
def Obligations.MonBlock : Prop :=
  ((∀ (s : State) (i : Nat) (v : W32), s.reachesCore → i < 16 →
          ∃ t, exec (.monCntSelWrite i v) s = .next t ∧
            (selectOk (v.zeroExtend 64) = true → t.reg (MON_CNT i) = 0 ∧ t.reg (MON_CNT_SEL i) = selectWord (v.zeroExtend 64) ∧
              (s.tlpIn 0 4).keepsRegs t [MON_CNT i, MON_CNT_SEL i, MON_CTRL]) ∧
            (selectOk (v.zeroExtend 64) = false → t.bit MON_ERR_STATUS MON_ERR_STATUS_BAD_SELECT = true ∧
              (s.tlpIn 0 4).keepsRegs t [MON_ERR_STATUS]) ∧ s.moves t [] []) ∧
     (∀ (s : State) (on : Bool) (v : BitVec 16), s.reachesCore → s.setupLocked = false →
          s.bit MON_CTRL MON_CTRL_CLEAR_ALL = false →
          (∃ t, exec .clearAll s = .next t ∧ (∀ i, i < 16 → t.reg (MON_CNT i) = 0) ∧ (∀ k, k < 20 → t.reg (MON_BW k) = 0) ∧
            t.bit MON_CTRL MON_CTRL_COUNT_EN = s.bit MON_CTRL MON_CTRL_COUNT_EN ∧ s.moves t [] []) ∧
          (∃ t, exec (.countEn on) s = .next t ∧ t.bit MON_CTRL MON_CTRL_COUNT_EN = on ∧
            t.bit MON_CTRL MON_CTRL_HIST_FREEZE = s.bit MON_CTRL MON_CTRL_HIST_FREEZE ∧
            (s.tlpIn 0 4).keepsRegs t [MON_CTRL, MON_ERR_STATUS] ∧ s.moves t [] []) ∧
          (∃ t, exec (.histFreeze on) s = .next t ∧ t.bit MON_CTRL MON_CTRL_HIST_FREEZE = on ∧
            t.bit MON_CTRL MON_CTRL_COUNT_EN = s.bit MON_CTRL MON_CTRL_COUNT_EN ∧
            (s.tlpIn 0 4).keepsRegs t [MON_CTRL, MON_ERR_STATUS] ∧ s.moves t [] []) ∧
          (∃ t, exec (.compat v) s = .next t ∧
            (∀ i, i < 16 → t.maskBit MON_CTRL MON_CTRL_COMPAT i = (v.getLsbD i && s.bit (MON_CNT_SEL i) MON_CNT_SEL_CTX_EN)) ∧
            ((∃ i, i < 16 ∧ v.getLsbD i = true ∧ s.bit (MON_CNT_SEL i) MON_CNT_SEL_CTX_EN = false) →
              t.bit MON_ERR_STATUS MON_ERR_STATUS_COMPAT_REFUSED = true) ∧
            (s.tlpIn 0 4).keepsRegs t [MON_CTRL, MON_ERR_STATUS] ∧ s.moves t [] []))) ∧
  (∀ (s : State) (w : W32) (h : Nat) (v : W64) (e : TraceEv) (es : List TraceEv), s.reachesCore →
       (∃ t, exec (.monBwWindowWrite w) s = .next t ∧
         t.fld MON_BW_CTRL MON_BW_CTRL_WINDOW = getBits (w.zeroExtend 64) MON_BW_CTRL_WINDOW ∧ t.mon.bw = [] ∧
         (s.tlpIn 0 4).keepsRegs t [MON_BW_CTRL] ∧ s.moves t [] []) ∧
       (s.mon.bwAt + s.windowUs ≤ s.now → ∃ t, exec .bwWindowEnd s = .next t ∧ t.mon.bw = [] ∧
         (∀ k, k < 20 → t.fld (MON_BW k) MON_BW_LAST = min 0xFFFFFFFF (tabGetD s.mon.bw k 0) ∧
           t.fld (MON_BW k) MON_BW_PEAK = max (min 0xFFFFFFFF (tabGetD s.mon.bw k 0)) (s.fld (MON_BW k) MON_BW_PEAK)) ∧
         s.moves t [] []) ∧
       (h < 8 → s.bit (MON_HIST_CFG h) MON_HIST_CFG_ENABLE = false → ∃ t, exec (.monHistCfgWrite h v) s = .next t ∧
         t.reg (MON_HIST_CFG h) = histWord v ∧
         (getBits v MON_HIST_CFG_ENABLE = 1 → t.reg (MON_HIST_COUNT h) = regReset (MON_HIST_COUNT h) ∧
           ∀ b, b < 16 → t.reg (MON_HIST_BIN h b) = regReset (MON_HIST_BIN h b)) ∧ s.moves t [] []) ∧
       (h < 8 → s.bit (MON_HIST_CFG h) MON_HIST_CFG_ENABLE = true →
         putBits (histWord v) MON_HIST_CFG_ENABLE 1 ≠ s.reg (MON_HIST_CFG h) →
         ∃ t, exec (.monHistCfgWrite h v) s = .next t ∧ t.bit MON_ERR_STATUS MON_ERR_STATUS_CONFIG_BUSY = true ∧
           (s.tlpIn 0 8).keepsRegs t [MON_ERR_STATUS] ∧ s.moves t [] []) ∧
       (s.mon.trace = e :: es →
         let n := s.fld MON_TRACE_HEAD MON_TRACE_HEAD_WRITTEN
         let log2 := s.fld MON_TRACE_CTRL MON_TRACE_CTRL_LOG2_RECORDS
         let full := s.bit MON_TRACE_CTRL MON_TRACE_CTRL_STOP_FULL = true ∧
           (n + 2 ^ 32 - s.fld MON_TRACE_TAIL MON_TRACE_TAIL_READ) % 2 ^ 32 = 2 ^ log2
         ∃ t, exec .traceRecord s = .next t ∧ t.mon.trace = es ∧
           (full → t.bit MON_ERR_STATUS MON_ERR_STATUS_TRACE_DROP = true ∧
             t.fld MON_TRACE_HEAD MON_TRACE_HEAD_WRITTEN = n ∧ t.out = s.out) ∧
           (¬ full → t.fld MON_TRACE_HEAD MON_TRACE_HEAD_WRITTEN = (n + 1) % 2 ^ 32 ∧
             Out.hostWrite 0 ((s.reg MON_TRACE_BASE).toNat + 32 * (n % 2 ^ log2)) (traceBytes e (400 * s.now) n log2) ∈ t.out) ∧
           s.moves t [.out] []) ∧
       (s.bit MON_TRACE_CTRL MON_TRACE_CTRL_ENABLE = true → s.maskBit MON_TRACE_CTRL MON_TRACE_CTRL_SOURCES e.kind = true →
         (s.mon.trace.length < 64 → s.trace e = { s with mon := { s.mon with trace := s.mon.trace ++ [e] } }) ∧
         (64 ≤ s.mon.trace.length → (s.trace e).mon.trace = s.mon.trace ∧
           (s.trace e).bit MON_ERR_STATUS MON_ERR_STATUS_TRACE_DROP = true ∧
           s.keepsRegs (s.trace e) [MON_TRACE_DROPPED, MON_ERR_STATUS])))

/-! ## Numbers -/

/-- R33: a value converted to an integer format is rounded to the nearest integer, ties to the even one, and then saturated to
the format's range; a NaN gives 0 with INVALID, an infinity the extreme of its sign with FP_OVERFLOW and (R49, Table 7) INVALID. -/
def Obligations.IntegerConversion : Prop :=
  ∀ (f : Fmt) (lo hi : Int) (sat : Bool) (x : Sys2Proof.Machine.Num),
    (f, lo, hi) ∈ [(Fmt.int8, -128, 127), (.uint8, 0, 255), (.int4, -8, 7), (.uint4, 0, 15), (.int32, -2147483648, 2147483647)] →
    let r := toElem f sat x
    let gives := fun (v : Int) (fl : AFlags) => f.value r.1 = .ofInt v ∧ r.2 = fl
    (x = .nan → gives 0 flInvalid) ∧
    (∀ neg, x = .inf neg → gives (if neg then lo else hi) (flFpOverflow ||| flInvalid)) ∧
    (∀ neg mag e, x = .fin neg mag e →
      let scale : Int := 2 ^ (-e).toNat
      let n := signedAt neg mag e (min e 0)
      ∃ v : Int, 2 * (v * scale - n).natAbs ≤ scale ∧ (2 * (v * scale - n).natAbs = scale → v % 2 = 0) ∧
        (v < lo → gives lo flFpOverflow) ∧ (hi < v → gives hi flFpOverflow) ∧ (lo ≤ v → v ≤ hi → gives v 0))

/-! ## Kernels -/

/-- A KERNEL descriptor whose reads are good: the first check that fails gives its record's status; a launch that passes
every check is admitted, holds the sequences of its KVPAGE streams, and waits for its claim. The first waiting claim that
can be granted gets all its tiles, whose domains are ON; while one of its banks is on its way to ON it is launching. The
model's choices in it (notes/assumptions/23.md, notes/assumptions/24.md): formats at check 9, entries outside the
limits. -/
def Obligations.KernelAdmits : Prop :=
  (∀ (s : State) (r c : Nat) (obj : ObjFacts) (f : Fetched), s.DescAt r clKernel (dF f.desc 8 1) f → s.idle → ringCtx r = some c →
       s.mem.bad = [] →
       let d := f.desc
       let o := s.objFacts c d obj
       let entry := objEntry d o
       let raw := slotsOf (kArgCount d) (s.dramRead c (kArgAddr d) (16 * kArgCount d))
       let as := raw.map slotOf
       let lb := match entry with | some x => if x.conv then s.layerBytes c as else [] | none => []
       let early := firstFail (s.kernelChecks c f o (s.objHit c (kObjAddr d) (kObjLen d)).isSome as)
       let late := firstFail (s.kernelLate c f o raw as lb)
       (∀ st, early = some st → ∃ t, exec (.kernel r obj) s = .next t ∧ s.answered t r f st 0 0 ∧
         s.moves t recordAreas [secRegs]) ∧
       (early = none → (∀ e, entry = some e → ∀ q ∈ entryKv e, (s.seq q.seqId).holds < 255) →
         (∀ st, late = some st → ∃ t, exec (.kernel r obj) s = .next t ∧ s.answered t r f st 0 0 ∧
           s.moves t (.cache :: recordAreas) touchRegs) ∧
         (late = none → s.roleGated c = true → ∃ t, exec (.kernel r obj) s = .next t ∧ s.answered t r f stFailedOver 0 0 ∧
           s.moves t (.sec :: .cache :: recordAreas) touchRegs) ∧
         (late = none → s.roleGated c = false → ∃ t w, exec (.kernel r obj) s = .next t ∧ s.admitted t w r f ∧
           w.stage = .claimWait ∧ w.phase = .waiting ∧ w.kern.map KernelWork.entry = entry ∧
           (∀ e, entry = some e → ∀ q ∈ entryKv e, (t.seq q.seqId).holds = (s.seq q.seqId).holds + 1) ∧
           s.moves t (.sec :: .cache :: .kv :: recordAreas) touchRegs))) ∧
  (∀ (s : State) (p c : Nat) (w : Work) (tiles : List Nat), s.acts → s.noLaunch → (s.part p).current = some c →
       (s.part p).switching = false → s.gateClosed = false → s.barred p = false →
       s.firstGrant p c [] (s.waitingClaims c) = some (w, tiles) →
       (∃ g ∈ banksOf tiles w.shape.bankMask, s.bankPwr g ≠ pwrOn) →
       ∃ t, exec (.claimGrant p) s = .next t ∧
         (∃ v ∈ t.hif.works, v.is w.ring w.seq = true ∧ v.stage = .launching ∧ v.tiles = tiles) ∧
         (∀ i ∈ tiles, (t.tile i).claim = some (w.ring, w.seq) ∧ t.isOn (.tile i) = true ∧
           t.bit (TILE_STATUS i) TILE_STATUS_CLAIMED = true) ∧
         s.moves t [.hif, .arr, .bank] [glbRegs, tileRegs, hubRegs])

/-- A running kernel: a cluster's next wave starts with its engines busy; a sequencer waits at a barrier until every tile
of the kernel has arrived, with the engines of ME_MASK that have work, and the last arrival releases it; a missing line of
the object becomes resident. A running kernel ends: by its last engine with DONE and its cycles, or with the status of a
convolution's read or region that fails; by its timeout, TIMEOUT_MS after the first release, with TIMEOUT and the error
bit on every tile; by a trap with BAD_DESCRIPTOR and the cause on the trapping tile; its record leaves and its tiles are
free. The model's choices in it (notes/assumptions/24.md): engines with work at the first release, the cause that a trap
leaves, a convolution's accesses at its finish. -/
def Obligations.KernelRuns : Prop :=
  (∀ (s : State) (r seq tile bar line cl : Nat) (w : Work) (k : KernelWork) (queued : BitVec 4), s.kernelRuns r seq w k →
       (∀ v vs, (s.hub cl).waves = v :: vs → (∀ e ∈ v, e.1 < 64 ∧ e.2 < 4) →
         ∃ t, exec (.staggerWave cl) s = .next t ∧ (t.hub cl).waves = vs ∧
           (∀ e ∈ v, s.bit (TILE_STATUS e.1) TILE_STATUS_RUNNING = true →
             t.maskBit (TILE_STATUS e.1) TILE_STATUS_ME_BUSY e.2 = true) ∧ s.moves t [.arr] [tileRegs]) ∧
       (k.entry.barriers[bar]? = some .kernel → bar < 16 → tile ∈ w.tiles → k.barriers = [] →
         ∃ t v l, exec (.barrierArrive r seq tile bar queued) s = .next t ∧ t.work? r seq = some v ∧ v.kern = some l ∧
           ((∃ i ∈ w.tiles, i ≠ tile) → l.barriers = [{ bar := bar, arrived := [(tile, queued.toNat &&& w.shape.meMask)] }] ∧
             t.bit (TILE_STATUS tile) TILE_STATUS_AT_BARRIER = true ∧ s.moves t [.hif, .arr] [tileRegs, hubRegs]) ∧
           ((∀ i ∈ w.tiles, i = tile) → l.barriers = [] ∧ tabGetD l.barrierGen bar 0 = tabGetD k.barrierGen bar 0 + 1 ∧
             t.bit (TILE_STATUS tile) TILE_STATUS_AT_BARRIER = false ∧
             s.moves t (.hif :: .arr :: writeAreas) ([tileRegs, hubRegs] ++ writeRegs))) ∧
       (s.tileWork tile = some w → tile < 64 → line ∉ (s.tile tile).lines → line * 4096 < kObjLen w.desc →
         ∃ t, exec (.icacheFill tile line) s = .next t ∧ (t.tile tile).lines = (line :: (s.tile tile).lines).take 16 ∧
           t.fld (TILE_ICACHE_MISS tile) TILE_ICACHE_MISS_MISSES =
             min TILE_ICACHE_MISS_MISSES.top (s.fld (TILE_ICACHE_MISS tile) TILE_ICACHE_MISS_MISSES + 1) ∧
           s.moves t [.arr, .cache] (tileRegs :: touchRegs))) ∧
  (∀ (s : State) (r seq tile : Nat) (w : Work) (k : KernelWork) (fin : KernelFin) (cause : BitVec 8), s.kernelRuns r seq w k →
       s.hears r →
       (s.convReadFails w k = none → s.convRefused w k = none →
         ∃ t words flags, exec (.kernelFinish r seq fin) s = .next t ∧ t.work? r seq = none ∧
         s.recordSent t r w.tag seq words stDone w.cls flags ∧ words % 2 ^ 32 = min 0xFFFFFFFF fin.cycles ∧
         (k.layer = [] → flags = (fin.flags &&& 0x7F).toNat) ∧ s.tilesFreed t w ∧ s.moves t endAreas endRegs) ∧
       ((s.convReadFails w k).isSome = true → s.fld HIF_CTRL HIF_CTRL_UE_LIMIT = 0 →
         ∃ t, exec (.kernelFinish r seq fin) s = .next t ∧ s.ended t w stMemoryUncorrectable ∧ s.tilesFreed t w ∧
           s.moves t (.nv :: .aon :: endAreas) endRegs) ∧
       (s.convReadFails w k = none → (s.convRefused w k).isSome = true →
         ∃ t, exec (.kernelFinish r seq fin) s = .next t ∧ s.ended t w stAccessDenied ∧ s.tilesFreed t w ∧
           s.moves t endAreas (secRegs :: endRegs)) ∧
       (w.late s.now (dF w.desc 28 4) = true → ∃ t, exec (.kernelTimeout r seq) s = .next t ∧ s.ended t w stTimeout ∧ s.tilesFreed t w ∧
         (∀ i ∈ w.tiles, t.bit (TILE_ERR_STATUS i) TILE_ERR_STATUS_TIMEOUT = true) ∧ s.moves t endAreas endRegs) ∧
       (tile ∈ w.tiles → 1 ≤ cause.toNat → cause.toNat ≤ 3 →
         ∃ t, exec (.sequencerTrap r seq tile cause) s = .next t ∧ s.ended t w stBadDescriptor ∧ s.tilesFreed t w ∧
           t.bit (TILE_ERR_STATUS tile) TILE_ERR_STATUS_SEQ_TRAP = true ∧
           t.fld (TILE_TRAP_CAUSE tile) TILE_TRAP_CAUSE_CAUSE = cause.toNat ∧ s.moves t endAreas endRegs))

/-! ## Pointing Engines -/

/-- Requests of a queue that a running kernel's tile declares in its present step: a read takes a place among the
outstanding requests and its slots, a missing element of the index buffer is read, a pushed entry of a SPILL becomes an
outstanding write; the limit, a full queue and an outstanding write of the granule hold a read back; the padding index is
counted, an index out of range or a refused address ends the kernel, and a row pointer in disorder is recorded. The oldest
request of a queue is answered: the granule is in the slot and the entry is filled, a write reaches DRAM, and an
uncorrectable read ends the kernel. A hub leaves fall-back mode with its counts cleared. The model's choices in it
(notes/assumptions/24.md, notes/assumptions/25.md): BELL's range, the slot's read, when a write is accepted. -/
def Obligations.PeQueueAccess : Prop :=
  (∀ (s : State) (tile q : Nat) (w : Work) (k : KernelWork) (x : PeQueue), s.kernelRuns w.ring w.seq w k → w.attn = none →
       s.tileWork tile = some w → tile < 64 → q < 8 → tabGet? (s.tile tile).queues q = some x → x.decl.kv = none →
       s.fld (PE_STATUS tile) PE_STATUS_OUTSTANDING = (s.tile tile).inFlight.length →
       let ask := Instr.peRequest tile (s.tile tile).step q .next
       let held := s.peFull tile
       let issued := fun (t : State) (e : PeOut) => (t.tile tile).inFlight = (s.tile tile).inFlight ++ [e] ∧ e.q = q ∧
         e.left = none ∧ e.before = none ∧
         t.fld (PE_STATUS tile) PE_STATUS_OUTSTANDING = s.fld (PE_STATUS tile) PE_STATUS_OUTSTANDING + 1 ∧ s.moves t [.arr] [tileRegs]
       let waits := ∃ t, exec ask s = .next t ∧ s.moves t [] []
       let stalls := ∃ t, exec ask s = .next t ∧ t.fld (PE_OUTSTANDING_STALL tile) PE_OUTSTANDING_STALL_CLOCKS =
         min PE_OUTSTANDING_STALL_CLOCKS.top (s.fld (PE_OUTSTANDING_STALL tile) PE_OUTSTANDING_STALL_CLOCKS + 1) ∧
         s.moves t [] [oneReg (PE_OUTSTANDING_STALL tile)]
       let denied := ∃ t, exec ask s = .next t ∧ s.ended t w stAccessDenied ∧ s.tilesFreed t w ∧
         t.bit (PE_ERR_STATUS tile) PE_ERR_STATUS_ADDR_RANGE = true ∧ s.moves t endAreas (secRegs :: endRegs)
       (∀ b n row, queueWrites x.decl = false → x.next = .granule b n row →
         let a := granuleAt x.decl b
         let m := s.unmarked tile x (min (reliefRatio x.decl.relief - a.2) n)
         (m = 0 → waits) ∧
         (0 < m → x.room < m → ∃ t, exec ask s = .next t ∧ t.fld (PE_RUNAHEAD_STALL tile) PE_RUNAHEAD_STALL_CLOCKS =
           min PE_RUNAHEAD_STALL_CLOCKS.top (s.fld (PE_RUNAHEAD_STALL tile) PE_RUNAHEAD_STALL_CLOCKS + 1) ∧
           s.moves t [] [oneReg (PE_RUNAHEAD_STALL tile)]) ∧
         (0 < m → m ≤ x.room → held = true → stalls) ∧
         (0 < m → m ≤ x.room → held = false → s.storing tile a.1 = true → waits) ∧
         (0 < m → m ≤ x.room → held = false → s.storing tile a.1 = false → (s.peRefused w a.1 64 false).isSome = true →
           s.hears w.ring → denied) ∧
         (0 < m → m ≤ x.room → held = false → s.storing tile a.1 = false → s.peRefused w a.1 64 false = none →
           ∃ t e y, exec ask s = .next t ∧ issued t e ∧ e.addr = a.1 ∧ e.use = .fill ∧ e.idx = x.issued ∧ e.row = row ∧
             e.first = a.2 ∧ e.n = m ∧ tabGet? (t.tile tile).queues q = some y ∧ y.issued = x.issued + m)) ∧
       (∀ p n, x.next = .index p n → held = false →
         let list := if p then x.decl.pointers else x.decl.index
         let a := (list + 4 * n) / 64 * 64
         (∀ e ∈ (s.tile tile).inFlight, e.q ≠ q) → s.storing tile a = false → s.peRefused w a 64 false = none →
           ∃ t e, exec ask s = .next t ∧ issued t e ∧ e.addr = a ∧ e.use ≠ .fill ∧ e.use.reads = true ∧
             tabGet? (t.tile tile).queues q = some x) ∧
       (∀ b n row, x.decl.kind = 8 → x.decl.relief = 0 → x.next = .granule b n row → x.issued < x.common →
         s.unmarked tile x 1 ≠ 0 →
         let slot := slotAddr tile x.decl x.issued
         let a := (granuleAt x.decl b).1
         s.bankFails [(slot, 64)] = none →
         (held = true → stalls) ∧
         (held = false → (s.peRefused w a 64 true).isSome = true → s.hears w.ring → denied) ∧
         (held = false → s.peRefused w a 64 true = none →
           ∃ t e y, exec ask s = .next t ∧ issued t e ∧ e.addr = a ∧ e.use = .store (s.bankRead slot 64) ∧
             tabGet? (t.tile tile).queues q = some y ∧ y.issued = x.issued + 1)) ∧
       (∀ row, x.next = .pad row → x.decl.stageBank < 8 → x.decl.stageAt + 64 * 2 ^ x.decl.depthLog2 ≤ 0x100000 →
         (if queueWrites x.decl then x.issued < x.common else 0 < x.room ∧ s.unmarked tile x 1 ≠ 0) →
         ∃ t, exec ask s = .next t ∧ t.fld (PE_PAD_COUNT tile) PE_PAD_COUNT_GRANULES = min PE_PAD_COUNT_GRANULES.top
           (s.fld (PE_PAD_COUNT tile) PE_PAD_COUNT_GRANULES + 1) ∧ s.moves t [.arr, .bank] [tileRegs]) ∧
       (∀ i, x.next = .range i → s.hears w.ring → ∃ t, exec ask s = .next t ∧ s.ended t w stAccessDenied ∧ s.tilesFreed t w ∧
         t.bit (PE_ERR_STATUS tile) PE_ERR_STATUS_INDEX_RANGE = true ∧ s.moves t endAreas endRegs) ∧
       (queueWrites x.decl = false → x.next = .skip true → ∃ t, exec ask s = .next t ∧
         t.bit (PE_ERR_STATUS tile) PE_ERR_STATUS_ROW_PTR_ORDER = true ∧ s.moves t [.arr] [tileRegs])) ∧
  (∀ (s : State) (tile q cl : Nat) (w : Work) (k : KernelWork) (x : PeQueue) (e : PeOut), s.kernelRuns w.ring w.seq w k →
       w.attn = none → s.tileWork tile = some w → tile < 64 → q < 8 → tabGet? (s.tile tile).queues q = some x →
       (s.tile tile).inFlight.find? (fun y => y.q == q && y.left.isNone) = some e →
       let slot := slotAddr tile x.decl e.idx
       (e.use = .fill → e.n = 1 → e.before = none → x.decl.relief = 0 → x.decl.stageAt + 64 * 2 ^ x.decl.depthLog2 ≤ 0x100000 →
         x.decl.stageBank < 8 → s.badLine e.addr 64 = none → s.bankFree (bankOf slot) = true → s.bankHandover (bankOf slot) = false →
         ∃ t y, exec (.peFillReturn tile q .clean) s = .next t ∧ tabGet? (t.tile tile).queues q = some y ∧
           y.filled = x.filled ++ [(e.idx, e.row)] ∧ e ∉ (t.tile tile).inFlight ∧
           t.bankRead slot 64 = s.dramRead w.ctx e.addr 64 ∧ s.moves t [.arr, .bank, .cache] (tileRegs :: touchRegs)) ∧
       (∀ bs, e.use = .store bs → oldestStore (s.tile tile).inFlight e.addr = some e →
         ∃ t, exec (.peFillReturn tile q .clean) s = .next t ∧ t.mem.dram = memWrite s.mem.dram e.addr bs ∧
           (t.tile tile).inFlight.length + 1 = (s.tile tile).inFlight.length ∧
           s.moves t (.arr :: writeAreas) (tileRegs :: writeRegs)) ∧
       (e.use.reads = true → s.fld HIF_CTRL HIF_CTRL_UE_LIMIT = 0 → s.hears w.ring →
         ∃ t, exec (.peFillReturn tile q .uncorrectable) s = .next t ∧ s.ended t w stMemoryUncorrectable ∧ s.tilesFreed t w ∧
           t.bit (PE_ERR_STATUS tile) PE_ERR_STATUS_MEM_UNCORR = true ∧
           t.fld (MEM_UE_COUNT (dramChannel e.addr)) MEM_UE_COUNT_DEMAND = min MEM_UE_COUNT_DEMAND.top
             (s.fld (MEM_UE_COUNT (dramChannel e.addr)) MEM_UE_COUNT_DEMAND + 1) ∧
           s.moves t (.nv :: .aon :: endAreas) endRegs) ∧
       (cl < 8 → s.inFallback cl = true → ∃ t, exec (.fallbackHoldExpiry cl) s = .next t ∧ t.inFallback cl = false ∧
         (t.hub cl).misses = 0 ∧ (t.hub cl).faults = 0 ∧ s.moves t [.arr] [oneReg (WALK_STATUS cl)]))

/-! ## Banks -/

/-- Owners and power states of a bank that nothing waits to launch on: an owner write starts a handover, which waits for
accesses, a wake and a clear, and ends with the new owner; the requests that had passed its check are served before; a clear
leaves zeros and CLEAN; an idle bank goes to RET;
FREE_OFF turns ownerless banks OFF. Retention and FREE_OFF. -/
def Obligations.BankPower : Prop :=
  (∀ (s : State) (g c : Nat), s.acts → s.noLaunch → g < 512 → c < 32 →
       let busy := (s.bankSt g).quiet = false
       let done := fun t : State => t.ownsBank c g = true ∧ t.bankHandover g = false ∧ t.bankPwr g = pwrOn
       let moved := fun t : State => s.moves t [.arr, .bank] [glbRegs, tileRegs, hubRegs]
       (s.bankHandover g = false → s.bankWork g = none →
         (∀ o, o = none ∨ o = some c → ∃ t, exec (.bankOwnerWrite g o) s = .next t ∧ moved t ∧
           (busy → t.bankHandover g = true ∧ t.bankOwnerSeen g = o ∧ t.bankValid g = s.bankValid g ∧ t.bankCtx g = s.bankCtx g) ∧
           (¬ busy → o = none → t.bankValid g = false ∧ t.bankHandover g = false ∧ t.bankPwr g =
             (if s.bankPwr g = pwrOff ∨ s.bit (BANK_PWR_POLICY (g / 8)) BANK_PWR_POLICY_FREE_OFF = true then pwrOff else pwrRet)) ∧
           (¬ busy → o = some c → s.bankPwr g ≠ pwrOn → t.bankHandover g = true ∧ t.bankOwnerSeen g = some c ∧
             t.bit (bankState g) BANK_STATE_WAKING = true ∧ t.isOn (.tile (g / 8)) = true) ∧
           (¬ busy → o = some c → s.bankPwr g = pwrOn → s.bankClearing g = false →
             (s.needsClear g c = false → done t) ∧
             (s.needsClear g c = true → t.bankHandover g = true ∧ t.bankClearing g = true ∧
               t.fld (bankState g) BANK_STATE_CLEAR_LEFT = 16384)))) ∧
       (∀ w, s.bankHandover g = false → s.bankWork g = some w → w.placed → s.hears w.ring →
         ∃ t, exec (.bankOwnerWrite g (some c)) s = .next t ∧ s.ended t w stAborted ∧ s.moves t endAreas endRegs) ∧
       (s.bankHandover g = true → s.bit (bankState g) BANK_STATE_WAKING = false → s.bankClearing g = false →
         (¬ busy → ∃ t, exec (.handoverDrain g) s = .next t ∧ moved t ∧
           (s.bankOwnerSeen g = none → t.bankValid g = false ∧ t.bankHandover g = false) ∧
           (s.bankOwnerSeen g = some c → s.bankPwr g = pwrOn → s.needsClear g c = false → done t)) ∧
         (∀ v : BankWait, (s.bankSt g).waiting = [v] → v.passed = true → v.req.write = none → v.rest = none →
           bankOf v.req.addr = g → s.bankPwr g = pwrOn → (s.bankSt g).outstanding = 0 → (s.bankSt g).rmwAt = none →
           s.reqFails g v.req = false → (∀ p ∈ (s.tile (g / 8)).queues, p.1 < 8) →
           ∃ t, exec (.handoverDrain g) s = .next t ∧ Out.bankData g v.req.who (s.bankRead v.req.addr v.req.len) ∈ t.out ∧
             (t.bankSt g).waiting = [] ∧ (s.bankOwnerSeen g = none → t.bankValid g = false ∧ t.bankHandover g = false) ∧
             (s.bankOwnerSeen g = some c → s.needsClear g c = false → done t) ∧
             s.moves t [.arr, .bank, .out] [glbRegs, tileRegs, hubRegs])) ∧
       (s.bit (bankState g) BANK_STATE_WAKING = true → s.isOn (.tile (g / 8)) = true → s.bankHandover g = false ∨ (s.bankOwnerSeen g).isSome = true →
         ∃ t, exec (.bankWake g) s = .next t ∧ t.bankPwr g = pwrOn ∧ t.bit (bankState g) BANK_STATE_WAKING = false ∧
           (s.bankPwr g = pwrOff → t.bankClearing g = true) ∧ s.moves t [.arr] [tileRegs]) ∧
       (s.bankClearing g = true → ∃ t, exec (.bankClear g) s = .next t ∧ moved t ∧ t.bankClean g = true ∧
         t.bankClearing g = false ∧
         ∀ a, memGet t.mem.bank a = if a / 0x100000 = g then 0 else memGet s.mem.bank a)) ∧
  (∀ (s : State) (g tile : Nat), s.acts → g < 512 → tile < 64 →
       (s.bankPwr g = pwrOn → s.bankValid g = true → s.bankHandover g = false → s.bankClearing g = false → s.bankWork g = none →
         g ∉ s.heldBanks → s.bankOfSentinel g = false → (s.bankSt g).quiet = true →
         s.fld (BANK_PWR_POLICY (g / 8)) BANK_PWR_POLICY_IDLE_RET_US ≠ 0 →
         (s.bankSt g).lastAccess + s.fld (BANK_PWR_POLICY (g / 8)) BANK_PWR_POLICY_IDLE_RET_US ≤ s.now →
         ∃ t, exec (.bankIdleRet g) s = .next t ∧ t.bankPwr g = pwrRet ∧ s.moves t [] [oneReg (bankState g)]) ∧
       (s.reachesCore → s.isOn (.tile tile) = true → s.setupLocked = false → ∃ t, exec (.freeOffSet tile) s = .next t ∧
         t.bit (BANK_PWR_POLICY tile) BANK_PWR_POLICY_FREE_OFF = true ∧
         (∀ b, b < 8 → t.bankPwr (8 * tile + b) =
           if s.bankValid (8 * tile + b) = false ∧ s.bankHandover (8 * tile + b) = false ∧ s.bankPwr (8 * tile + b) = pwrRet then
             pwrOff else s.bankPwr (8 * tile + b)) ∧ s.moves t [.bank] [tileRegs]) ∧
       (s.reachesCore → s.isOn (.tile tile) = true → s.setupLocked = false → ∃ t, exec (.freeOffClear tile) s = .next t ∧
         t.bit (BANK_PWR_POLICY tile) BANK_PWR_POLICY_FREE_OFF = false ∧ s.moves t [] [oneReg (BANK_PWR_POLICY tile)]) ∧
       (s.reachesCore → s.isOn (.tile tile) = true → s.setupLocked = true →
         ∀ i, i = Instr.freeOffSet tile ∨ i = Instr.freeOffClear tile →
         ∃ t, exec i s = .next t ∧ t.bit GLB_ERR_STATUS GLB_ERR_STATUS_LOCKED_WRITE = true ∧
           (s.reg GLB_ERR_STATUS = 0 → t.fld GLB_ERR_ADDR GLB_ERR_ADDR_OFFSET = BANK_PWR_POLICY tile) ∧
           s.moves t [] [oneReg GLB_ERR_STATUS, oneReg GLB_ERR_ADDR]))

/-- One request at a bank in a clock of its port: a read that passes the ownership check returns the bytes of its word,
with a corrected error counted, and what lies in the next word waits as a request of the same age; a write takes effect,
clears CLEAN and names its owner; a read that meets an uncorrectable group, and a denied access, end the kernel that made
them. The model's choices in it (notes/assumptions/25.md): the numbered clocks of the port. -/
def Obligations.BankAccess : Prop :=
  ∀ (s : State) (g clock group : Nat) (q : BankReq), s.acts → s.noLaunch → g < 512 → q.addr < 0x20000000 → bankOf q.addr = g →
    1 ≤ q.len → q.len ≤ 64 → (s.bankSt g).clock < clock → (s.bankSt g).waiting = [] → (s.bankSt g).rmwAt = none →
    s.bankHandover g = false → q.who ≠ .eccWriteBack → s.reqGated g q.who = false →
    s.queueHolds (g / 8) q.who q.addr q.write.isSome = false → (∀ p ∈ (s.tile (g / 8)).queues, p.1 < 8) →
    let n := reqSpan q
    let ask := fun ecc => Instr.bankAccessRequest g clock [q] ecc group
    let v : BankWait := { req := q, since := clock, passed := true }
    (q.write = none → s.bankFate g q = .pass → s.bankServes g = true → s.reqFails g q = false →
      ∀ ecc, ecc = .clean ∨ ecc = .corrected → ∃ t, exec (ask ecc) s = .next t ∧
        Out.bankData g q.who (s.bankRead q.addr n) ∈ t.out ∧ t.fld (BANK_ECC (g / 8) (g % 8)) BANK_ECC_CORRECTED =
          min BANK_ECC_CORRECTED.top (s.fld (BANK_ECC (g / 8) (g % 8)) BANK_ECC_CORRECTED +
            if ecc = .corrected ∧ reqReads q (8 * reqWord q + group) = true then 1 else 0) ∧
        (ecc = .clean → (t.bankSt g).waiting = v.rest.toList) ∧ s.moves t [.arr, .out] [tileRegs]) ∧
    (∀ bs, q.write = some bs → bs.length = q.len → s.bankFate g q = .pass → s.bankServes g = true → s.reqFails g q = false →
      ∃ t, exec (ask .clean) s = .next t ∧ t.mem.bank = memWrite s.mem.bank q.addr (bs.take n) ∧
        t.bankClean g = false ∧ t.fld (bankOwner g) BANK_OWNER_LAST_CTX = s.bankCtx g ∧
        (t.bankSt g).waiting = v.rest.toList ∧ s.moves t [.bank, .arr] [tileRegs]) ∧
    (∀ w, q.write = none → s.bankFate g q = .pass → s.bankServes g = true → reqReads q (8 * reqWord q + group) = true →
      s.reqWork g q.who = some w → w.cls = clKernel → w.kern.isSome = true → w.attn = none → w.placed → s.hears w.ring →
      ∃ t, exec (ask .uncorrectable) s = .next t ∧ s.ended t w stMemoryUncorrectable ∧
        t.bit (TILE_ERR_STATUS (g / 8)) TILE_ERR_STATUS_MEM_UNCORR = true ∧ s.moves t endAreas endRegs) ∧
    (∀ w, (q.write = none ∨ ∃ bs, q.write = some bs ∧ bs.length = q.len) → s.bankFate g q = .deny →
      s.reqWork g q.who = some w → w.cls = clKernel → w.kern.isSome = true → w.placed → s.hears w.ring →
      ∃ t, exec (ask .clean) s = .next t ∧ s.ended t w stAccessDenied ∧
        t.bit (TILE_ERR_STATUS (g / 8)) TILE_ERR_STATUS_BANK_DENIED = true ∧
        (s.bit (TILE_ERR_STATUS (g / 8)) TILE_ERR_STATUS_BANK_DENIED = false →
          t.fld (TILE_ERR_INFO (g / 8)) TILE_ERR_INFO_BANK_ADDR = q.addr) ∧ s.moves t endAreas endRegs)

/-! ## Set Engines and SORT -/

/-- A sequencer's Set Engine command starts at once, waits in the queue of sixteen, or stalls; an operand outside the kernel's
banks ends the kernel. A finished operation counts, with the clocks that it lost, leaves its results, and lets the next command
start; an uncorrectable operand ends the kernel. -/
def Obligations.SetEngineRuns : Prop :=
  ∀ (s : State) (tile : Nat) (x : SetCmd) (w : Work) (k : KernelWork), s.kernelRuns w.ring w.seq w k → tile < 64 →
    s.tileWork tile = some w →
    let c := tile / 8
    let mine := w.banks.filter fun g => g / 64 == c
    let regions := [(x.srcA, setBytesA x.op x.nA), (x.srcB, max (setBytesB x.op x.nB) (setScratch x.op x.nA x.k)),
      (x.dst, setBytesDst x.op x.nA x.nB x.k)]
    let q : SetQueued := { cmd := x, owner := (w.ring, w.seq), tile := some tile }
    let h := s.hub c
    (c ∈ w.hubs → setCmdOk x = true → (∀ p ∈ regions, inBanks mine p.1 p.2 = true) →
      ∃ t, exec (.setEngineCommand tile x) s = .next t ∧
        (16 ≤ h.setQueue.length → t.arr = s.arr ∧ t.fld (TILE_STALL_QUEUE tile) TILE_STALL_QUEUE_CLOCKS =
          min TILE_STALL_QUEUE_CLOCKS.top (s.fld (TILE_STALL_QUEUE tile) TILE_STALL_QUEUE_CLOCKS + 1)) ∧
        (h.setQueue.length < 16 → h.setRunning = none → (t.hub c).setRunning = some q ∧
          t.bit (SET_STATUS c) SET_STATUS_BUSY = true) ∧
        (h.setQueue.length < 16 → h.setRunning.isSome = true → (t.hub c).setQueue = h.setQueue ++ [q] ∧
          t.fld (SET_STATUS c) SET_STATUS_QUEUED = h.setQueue.length + 1) ∧
        s.moves t [.arr] [oneReg (TILE_STALL_QUEUE tile), oneReg (SET_STATUS c)]) ∧
    (c ∈ w.hubs → setCmdOk x = true → (∃ p ∈ regions, inBanks mine p.1 p.2 = false) → s.hears w.ring →
      ∃ t, exec (.setEngineCommand tile x) s = .next t ∧ s.ended t w stAccessDenied ∧ s.tilesFreed t w ∧
        t.bit (TILE_ERR_STATUS tile) TILE_ERR_STATUS_BANK_DENIED = true ∧ s.moves t endAreas endRegs) ∧
    (h.setRunning = some q → s.bankFails (physPieces x.srcA (setBytesA x.op x.nA) ++ physPieces x.srcB (setBytesB x.op x.nB)) = none →
      let o := runSet x.op x.keyType x.flags.toNat x.redOp x.nA x.nB x.k x.thresh (s.physRead x.srcA (setBytesA x.op x.nA))
        (s.physRead x.srcB (setBytesB x.op x.nB))
      x.dst + o.bytes.length ≤ 0x20000000 → x.srcB + setScratch x.op x.nA x.k ≤ 0x20000000 →
      ∃ t, exec (.setOperationDone c) s = .next t ∧ (t.hub c).setRunning = h.setQueue.head? ∧
        (t.hub c).setQueue = h.setQueue.tail ∧ memRead t.mem.bank x.dst o.bytes.length = o.bytes ∧
        t.fld (SET_LAST c) SET_LAST_OUT_COUNT = o.count % (SET_LAST_OUT_COUNT.top + 1) ∧
        t.fld (SET_LAST c) SET_LAST_CYCLES = (o.cycles + h.setLost) % (SET_LAST_CYCLES.top + 1) ∧
        s.moves t [.bank, .arr] [tileRegs, hubRegs]) ∧
    (h.setRunning = some q →
      (s.bankFails (physPieces x.srcA (setBytesA x.op x.nA) ++ physPieces x.srcB (setBytesB x.op x.nB))).isSome = true →
      x.srcA + setBytesA x.op x.nA ≤ 0x20000000 → x.srcB + setBytesB x.op x.nB ≤ 0x20000000 → s.hears w.ring →
      ∃ t, exec (.setOperationDone c) s = .next t ∧ s.ended t w stMemoryUncorrectable ∧ s.tilesFreed t w ∧
        t.bit (TILE_ERR_STATUS tile) TILE_ERR_STATUS_MEM_UNCORR = true ∧ s.moves t endAreas endRegs)

/-- SORT, TOPK, MERGE, INTERSECT and SEGREDUCE descriptors: the first check that fails gives the status, a closed role
gate gives FAILED_OVER, and what passes is admitted and waits for its claim. A SORT's operation ends: it is counted, its
claim is released, and its record says DONE, or MEMORY_UNCORRECTABLE where an operand cannot be read. The model's choices
in it (notes/assumptions/24.md): the staging of DRAM operands. -/
def Obligations.SortRuns : Prop :=
  (∀ (s : State) (r c op : Nat) (i : Instr) (f : Fetched), s.DescAt r clSort op f → s.idle → ringCtx r = some c →
       (op, i) ∈ [(1, Instr.sort r), (2, .topk r), (3, .merge r), (4, .intersect r), (5, .segreduce r)] →
       (∀ st, firstFail (s.sortChecks c op f.desc) = some st → ∃ t, exec i s = .next t ∧ s.answered t r f st 0 0 ∧
         s.moves t recordAreas [secRegs]) ∧
       (firstFail (s.sortChecks c op f.desc) = none → s.roleGated c = true → ∃ t, exec i s = .next t ∧
         s.answered t r f stFailedOver 0 0 ∧ s.moves t recordAreas []) ∧
       (firstFail (s.sortChecks c op f.desc) = none → s.roleGated c = false → ∃ t w, exec i s = .next t ∧ s.admitted t w r f ∧
         w.op = op ∧ w.stage = .claimWait ∧ w.phase = .waiting ∧ s.moves t recordAreas [])) ∧
  (∀ (s : State) (cl : Nat) (q : SetQueued) (w : Work), s.acts → cl < 8 → (s.hub cl).setRunning = some q → q.tile = none →
       s.work? q.owner.1 q.owner.2 = some w → w.placed → s.hears w.ring →
       addrSpace w.desc 48 ≠ 0 ∨ (∀ v ∈ s.hif.works, v.kern = none) →
       let x := sortCmd w.desc
       let a := s.sortRead w cl 32 (setBytesA x.op x.nA)
       let b := s.sortRead w cl 40 (setBytesB x.op x.nB)
       let o := runSet x.op x.keyType x.flags.toNat x.redOp x.nA x.nB x.k x.thresh a b
       let bad := s.bankFails (s.sortPieces w cl 32 (setBytesA x.op x.nA) ++ s.sortPieces w cl 40 (setBytesB x.op x.nB))
       sortCountsOk w.desc x.op = true → sortOffset w.desc 48 + o.bytes.length ≤ 0x4000000 →
       (bad = none → ∃ t, exec (.setOperationDone cl) s = .next t ∧ s.ended t w stDone ∧ s.tilesFreed t w ∧
         t.fld (SET_OPS cl) SET_OPS_COUNT = min SET_OPS_COUNT.top (s.fld (SET_OPS cl) SET_OPS_COUNT + 1) ∧
         s.moves t endAreas endRegs) ∧
       (bad.isSome = true → ∃ t, exec (.setOperationDone cl) s = .next t ∧ s.ended t w stMemoryUncorrectable ∧
         s.tilesFreed t w ∧ s.moves t endAreas endRegs))

/-! ## Attention -/

/-- ATTEND and VERIFY descriptors whose reads are good: checks 1 to 11 in order, then the role gate, then the hold of the
sequence and the wait for the claim. ACCEPT with nothing in flight runs at once: the accepted path of the candidate tree,
the bonus token and the new length are in the record, and the sequence has that length; a page it must move to that is not
mapped refuses it. The model's choices in it (notes/assumptions/25.md): ACCEPT reads every source before it moves
anything. -/
def Obligations.AttentionAdmits : Prop :=
  (∀ (s : State) (r c op : Nat) (i : Instr) (f : Fetched), s.DescAt r clAttn op f → s.idle → ringCtx r = some c →
       s.mem.bad = [] → (op, i) ∈ [(1, Instr.attend r), (2, .verify r)] →
       let checks := s.attnEarly c op f ++ s.attnSeq c op f.desc ++ s.attnLate c op f.desc
       (∀ st, firstFail checks = some st → ∃ t, exec i s = .next t ∧ s.answered t r f st 0 0 ∧ s.moves t recordAreas [secRegs]) ∧
       (firstFail checks = none → s.roleGated c = true → ∃ t, exec i s = .next t ∧ s.answered t r f stFailedOver 0 0 ∧
         s.moves t recordAreas []) ∧
       (firstFail checks = none → s.roleGated c = false → (s.seq (aSeq f.desc)).holds < 255 →
         ∃ t w, exec i s = .next t ∧ s.admitted t w r f ∧ w.op = op ∧ w.stage = .claimWait ∧ w.phase = .waiting ∧
           (t.seq (aSeq f.desc)).holds = (s.seq (aSeq f.desc)).holds + 1 ∧ s.moves t (.kv :: recordAreas) [])) ∧
  (∀ (s : State) (r c : Nat) (f : Fetched), s.DescAt r clAttn 3 f → s.alone r f → ringCtx r = some c →
       s.mem.bad = [] →
       let d := f.desc
       let n := aQlen d
       let p := acceptPath ((s.dramRead c (addrOf d 56) 16).take n) (tokensOf n (s.dramRead c (addrOf d 40) (4 * n)))
         (tokensOf (n + 1) (s.dramRead c (addrOf d 48) (4 * (n + 1)))) 8 none
       let moves := ((List.range p.1.length).zip p.1).filter fun m => m.1 != m.2
       let checks := s.attnEarly c 3 f ++ s.attnSeq c 3 d ++ s.attnLate c 3 d
       let moved := fun t : State => s.moves t ([.sec, .dram, .cache, .kv, .olp] ++ recordAreas) (secRegs :: kvpRegs :: writeRegs)
       (∀ st, firstFail checks = some st → ∃ t, exec (.accept r) s = .next t ∧ s.answered t r f st 0 0 ∧ moved t) ∧
       (firstFail checks = none → s.roleGated c = false → (s.seq (aSeq d)).holds < 255 →
         (moves = [] ∨ ∀ e ∈ s.acceptFrames d, ∃ g, e = some g ∧ g.refs ≤ 1) →
         ∃ t, exec (.accept r) s = .next t ∧ s.answered t r f stDone 0 (acceptWords p.1 p.2 (aQpos d + p.1.length)) ∧
           (t.seq (aSeq d)).length = aQpos d + p.1.length ∧ (t.seq (aSeq d)).holds = (s.seq (aSeq d)).holds ∧ moved t) ∧
       (firstFail checks = none → s.roleGated c = false → (s.seq (aSeq d)).holds < 255 → moves ≠ [] → none ∈ s.acceptFrames d →
         ∃ t, exec (.accept r) s = .next t ∧ s.answered t r f stAccessDenied 0 0 ∧
           (t.seq (aSeq d)).length = (s.seq (aSeq d)).length ∧ moved t))

/-- A running ATTEND or VERIFY ends: at its commit, once its tiles have fetched every block, its output is in memory and its
record says DONE; a page that is unmapped or of a refused format stops it, and so does an operand that cannot be read; its
timeout ends it TIMEOUT_MS after its release. Its tiles are free. -/
def Obligations.AttentionEnds : Prop :=
  ∀ (s : State) (r seq cycles : Nat) (w : Work) (a : AttnWork), s.acts → s.work? r seq = some w → w.attn = some a →
    w.stage = .running → w.placed → s.hears r →
    let d := w.desc
    let aux := s.attnRead w 56 (aAuxLen d w.op)
    let q := s.attnRead w 40 (aQbytes d)
    let idle := addrSpace d 48 ≠ 0 ∨ (s.objectBusy (addrOf d 48) (aObytes d) = false ∧
      s.objectBusy (addrOf d 48 + aStatsAt d) (aStatsLen d) = false)
    let fetched := s.finishTiles w q aux (enumFrom' 0 w.tiles)
    (s.mem.bad = [] → s.attnReadFails w = none → idle → ∀ v, fetched.2 = some v →
      (∀ i ∈ w.tiles, ∀ e ∈ (s.tile i).inFlight, e.use.reads = true) →
      ∃ t, exec (.attnCommit r seq cycles) s = .next t ∧ s.ended t w stDone ∧ s.tilesFreed t w ∧
        (addrSpace d 48 = 0 → aStats d = false →
          t.mem.dram = memWrite s.mem.dram (addrOf d 48) (fetched.1.attnRun v q aux).out) ∧
        s.moves t endAreas endRegs) ∧
    (s.mem.bad = [] → s.attnReadFails w = none → fetched.2 = none →
      ∃ t st, exec (.attnCommit r seq cycles) s = .next t ∧ s.tilesFreed t w ∧ st ∈ [stFormatUnsupported, stAccessDenied] ∧
        s.ended t w st ∧ s.moves t endAreas endRegs) ∧
    ((s.attnReadFails w).isSome = true → s.fld HIF_CTRL HIF_CTRL_UE_LIMIT = 0 →
      ∃ t, exec (.attnCommit r seq cycles) s = .next t ∧ s.ended t w stMemoryUncorrectable ∧ s.tilesFreed t w ∧
        s.moves t (.nv :: .aon :: endAreas) endRegs) ∧
    (w.late s.now (dF d 22 2) = true →
      ∃ t, exec (.attnTimeout r seq) s = .next t ∧ s.ended t w stTimeout ∧ s.tilesFreed t w ∧ s.moves t endAreas endRegs)

/-! ## Sequences and the Page Frame Table -/

/-- A SEQ descriptor that fails a check of Table 5 is answered with its status and changes no sequence. SEQ descriptors that
pass their checks with nothing in flight: REGISTER takes the lowest free number; EXTEND adds to the length, FORK makes a
sequence of the same length, and REMAP exchanges a page's frame, when their frames are FREE; RELEASE ends the registration;
PREEMPT and SWAP_OUT start a swap-out, which writes its image once no hold is left. -/
def Obligations.SeqOperations : Prop :=
  (∀ (s : State) (r c op st : Nat) (image : HostRd) (i : Instr) (f : Fetched), s.DescAt r clSeq op f → s.idle → ringCtx r = some c →
       (op, i) ∈ [(1, Instr.seqRegister r), (2, .seqExtend r), (3, .seqFork r), (4, .seqRelease r), (5, .seqPreempt r),
         (6, .seqSwapOut r), (7, .seqSwapIn r image), (8, .seqRemap r)] →
       firstFail (s.seqChecks c f) = some st →
       ∃ t, exec i s = .next t ∧ s.answered t r f st 0 0 ∧ s.moves t recordAreas [secRegs]) ∧
  (∀ (s : State) (r c : Nat) (f : Fetched), s.acts → s.alone r f → ringCtx r = some c → firstFail (s.seqChecks c f) = none →
       s.mem.bad = [] →
       let d := f.desc
       let q := qSeq d
       let moved := fun t : State => s.moves t seqAreas seqRegs
       (s.DescAt r clSeq 1 f → ∃ t n, exec (.seqRegister r) s = .next t ∧ s.freeSeq = some n ∧
         s.answered t r f stDone 0 (seqWords n 0 0 0 0 0) ∧ (t.seq n).state = .active ∧ (t.seq n).ctx = c ∧ (t.seq n).length = 0 ∧
         (t.seq n).holds = 0 ∧ moved t) ∧
       (s.DescAt r clSeq 2 f → (s.allocAll c 1 (s.seqNeeds d [])).isSome = true →
         ∃ t words, exec (.seqExtend r) s = .next t ∧ s.answered t r f stDone 0 words ∧
           (t.seq q).length = (s.seq q).length + qCount d ∧ moved t) ∧
       (s.DescAt r clSeq 3 f → (s.allocAll c 2 (s.seqNeeds d [])).isSome = true →
         ∃ t words n, exec (.seqFork r) s = .next t ∧ s.answered t r f stDone 0 words ∧ s.freeSeq = some n ∧
           (t.seq n).state = .active ∧ (t.seq n).ctx = c ∧ (t.seq n).length = (s.seq q).length ∧ moved t) ∧
       (s.DescAt r clSeq 4 f → ∃ t, exec (.seqRelease r) s = .next t ∧
         s.answered t r f stDone 0 (seqWords q (s.soleFrames q) (s.seq q).length 0 0 0) ∧ (t.seq q).state = .unregistered ∧
         (t.seq q).pages = [] ∧ moved t) ∧
       (∀ i, (s.DescAt r clSeq 5 f ∧ i = Instr.seqPreempt r) ∨ (s.DescAt r clSeq 6 f ∧ i = .seqSwapOut r) →
         (s.rngOk = true → ∃ t w x, exec i s = .next t ∧ s.admitted t w r f ∧ w.seqw = some x ∧ x.seqId = q ∧
           (t.seq q).state = .swappingOut ∧ (t.seq q).swapSerial = (s.seq q).swapSerial + 1 ∧
           ((s.seq q).holds = 0 → x.phase = .flushing ∧ x.nonce = s.nv.draws ∧ t.nv.draws = s.nv.draws + 1) ∧
           ((s.seq q).holds ≠ 0 → x.phase = .waitHolds ∧ t.nv = s.nv) ∧ moved t) ∧
         (s.rngOk = false → ∃ t words, exec i s = .next t ∧ s.answered t r f stAccessDenied 0 words ∧
           t.bit SEC_ERR_STATUS SEC_ERR_STATUS_RNG_FAIL = true ∧ moved t)) ∧
       (s.DescAt r clSeq 8 f → (s.allocAll c 2 (s.seqNeeds d [])).isSome = true →
         ∃ t words n e, exec (.seqRemap r) s = .next t ∧ s.answered t r f stDone 0 words ∧
           bestFrame c (s.seqRegion d) s.kv.frames = some (n, e) ∧
           tabGet? (t.seq q).pages (512 * qLayer d + qPage d) = some n ∧ moved t))

/-- SWAP_IN with nothing in flight: a failed host read gives its status; an image that is not this sequence's is rejected;
one whose header, index and tag are right makes the sequence ACTIVE, once its frames are FREE. -/
def Obligations.SeqSwapsIn : Prop :=
  ∀ (s : State) (r c : Nat) (f : Fetched), s.DescAt r clSeq 7 f → s.alone r f → ringCtx r = some c →
    firstFail (s.seqChecks c f) = none →
    let d := f.desc
    let q := qSeq d
    let moved := fun t : State => s.moves t seqAreas seqRegs
    (∀ e, ∃ t words, exec (.seqSwapIn r (.error e)) s = .next t ∧ s.answered t r f (hostErrStatus e) 0 words ∧
      t.bit HIF_ERR_STATUS HIF_ERR_STATUS_HOST_READ_ERR = true ∧ (t.seq q).state = .swapped ∧ moved t) ∧
    (∀ b, ¬ s.imageFits q (qHostLen d) b → ∃ t words, exec (.seqSwapIn r (.data b)) s = .next t ∧
      s.answered t r f stAccessDenied 0 words ∧ t.bit KVP_ERR_STATUS KVP_ERR_STATUS_IMAGE_REJECTED = true ∧
      (t.seq q).state = .swapped ∧ moved t) ∧
    (∀ b, s.imageFits q (qHostLen d) b →
      let x := s.seq q
      let n := 256 + indexBytes (x.layers * leNat ((b.drop 20).take 4))
      let key := s.imageKey x.ctx ((b.drop 48).take 32)
      let needs := s.seqNeeds d (Config.gcmDecrypt key imageIv ((b.take n).drop 256))
      let len := (needs.map PageReq.bytes).sum
      n ≤ b.length → (s.allocAll c 2 needs).isSome = true →
      leNat ((b.drop (n + len)).take 16) =
        (Config.gcmTag key imageIv (b.take 256) ((b.take n).drop 256 ++ (b.drop n).take len)).toNat →
      ∃ t words, exec (.seqSwapIn r (.data b)) s = .next t ∧ s.answered t r f stDone 0 words ∧ (t.seq q).state = .active ∧
        (t.seq q).length = leNat ((b.drop 16).take 4) ∧ moved t)

/-- SEQ operations that wait: one whose turn has come starts, unless its registration has ended; a swap-out whose last
hold ends writes its image; a flushed image leaves the sequence SWAPPED, and a page that cannot be read stops the
operation; a wait for frames that has lasted TIMEOUT_MS ends with TIMEOUT and NO_VICTIM. A write of W0 by the physical
function starts a check, or is refused while one is under way; a check that passes defines the frame, and one that fails
sets PFT_WRITE_REFUSED and leaves the table. The model's choices in it (notes/assumptions/25.md): TIMEOUT_MS counts from
the wait's begin. -/
def Obligations.SeqWaitsAndTables : Prop :=
  (∀ (s : State) (r seq : Nat) (image : HostRd) (w : Work) (x : SeqWork), s.acts → s.work? r seq = some w → w.cls = clSeq →
       w.seqw = some x → s.hears r →
       let moved := fun t : State => s.moves t seqAreas seqRegs
       (x.phase = .waitStart → qOp w.desc = 4 → s.startable w x = true →
         (s.unbound x = true → ∃ t, exec (.seqStart r seq image) s = .next t ∧ s.ended t w stAccessDenied ∧ moved t) ∧
         (s.unbound x = false → firstFail (s.seqLate w.ctx w.desc) = none → s.seqWritesBusy w x [] = false →
           ∃ t, exec (.seqStart r seq image) s = .next t ∧ s.ended t w stDone ∧ (t.seq x.seqId).state = .unregistered ∧ moved t)) ∧
       (x.phase = .waitHolds → s.hif.works = [w] → (s.seq x.seqId).holds = 0 →
         ∃ t v y, exec (.holdEnd x.seqId image) s = .next t ∧ t.hif.works = [v] ∧ v.seqw = some y ∧ y.phase = .flushing ∧
           y.nonce = s.nv.draws ∧ t.nv.draws = s.nv.draws + 1 ∧ moved t) ∧
       (x.phase = .waitFrames → w.late s.now (dF w.desc 18 2) = true → ∃ t, exec (.seqFrameTimeout r seq) s = .next t ∧ s.ended t w stTimeout ∧
         t.bit KVP_ERR_STATUS KVP_ERR_STATUS_NO_VICTIM = true ∧ (qOp w.desc = 7 → (t.seq x.seqId).state = .swapped) ∧ moved t) ∧
       (x.phase = .flushing → (s.readFails w.ctx (s.swapReads (x.victim.getD x.seqId))).isSome = true →
         s.fld HIF_CTRL HIF_CTRL_UE_LIMIT = 0 → ∃ t, exec (.swapImageFlushed r seq image) s = .next t ∧
         s.ended t w stMemoryUncorrectable ∧ s.moves t (.aon :: seqAreas) seqRegs) ∧
       (x.phase = .flushing → x.victim = none → s.mem.bad = [] → ∃ t, exec (.swapImageFlushed r seq image) s = .next t ∧ s.ended t w stDone ∧
         (t.seq x.seqId).state = .swapped ∧ (t.seq x.seqId).pages = [] ∧ t.fld KVP_SWAP_OUT_BYTES KVP_SWAP_OUT_BYTES_BYTES =
           min KVP_SWAP_OUT_BYTES_BYTES.top (s.fld KVP_SWAP_OUT_BYTES KVP_SWAP_OUT_BYTES_BYTES + s.imageSize x.seqId) ∧ moved t) ∧
       (∀ v, x.phase = .flushing → x.victim = some v → v ≠ x.seqId → (s.seq v).state = .swappingOut → s.mem.bad = [] → ∃ t, exec (.swapImageFlushed r seq image) s = .next t ∧
         (t.seq v).state = .swapped ∧ t.fld KVP_LAST_PREEMPT KVP_LAST_PREEMPT_VICTIM = v % (KVP_LAST_PREEMPT_VICTIM.top + 1) ∧
         moved t)) ∧
  (∀ (s : State) (n : Nat) (v : W64), s.reachesCore → n < 32768 →
       (s.kv.checking = none → ∃ t, exec (.pftW0Write 0 n v) s = .next t ∧ t.kv = { s.kv with checking := some (n, v) } ∧
         s.moves t [.kv] []) ∧
       (s.kv.checking.isSome = true → ∃ t, exec (.pftW0Write 0 n v) s = .next t ∧ t.kv = s.kv ∧
         t.bit KVP_ERR_STATUS KVP_ERR_STATUS_PFT_WRITE_REFUSED = true ∧ s.moves t [] [kvpRegs]) ∧
       (s.kv.checking = some (n, v) → ∃ t, exec .pftCheckDone s = .next t ∧ t.kv.checking = none ∧
         (s.pftOk n ((s.frame n).written v) = true → t.frame n = (s.frame n).written v ∧ ∀ m, m ≠ n → t.frame m = s.frame m) ∧
         (s.pftOk n ((s.frame n).written v) = false → t.kv.frames = s.kv.frames ∧
           t.bit KVP_ERR_STATUS KVP_ERR_STATUS_PFT_WRITE_REFUSED = true) ∧ s.moves t [.kv] [kvpRegs]))

/-! ## Stream Sentinel -/

/-- A SENT descriptor that fails a check of Table 8 is answered with its status, and one whose precondition fails with
BAD_DESCRIPTOR and the first failing channel; neither changes the Sentinel. SENT descriptors that pass: the effect of each
operation on every channel named, and DONE with the number of channels; DISABLE, RESET and READ_STATE wait for the channels
whose window is on its tile. -/
def Obligations.SentOperations : Prop :=
  (∀ (s : State) (r op : Nat) (obj o : ObjFacts) (i : Instr) (f : Fetched), s.DescAt r clSent op f → s.idle → s.stn.op = none →
       s.mem.bad = [] →
       (op, i, o) ∈ [(1, Instr.sentConfigure r, noObj), (3, .sentDisable r, noObj), (4, .sentReset r, noObj), (5, .sentAck r, noObj),
         (6, .sentLoadModel r obj, obj), (7, .sentUnloadModel r, noObj), (8, .sentReadState r, noObj), (2, .sentEnable r, noObj)] →
       let checks := firstFail (s.sentChecks (ringCtx r) f.desc op o)
       (∀ st, checks = some st → ∃ t, exec i s = .next t ∧ s.answered t r f st 0 (0xFFF * 2 ^ 16) ∧ s.moves t recordAreas [secRegs]) ∧
       (∀ n, checks = none → s.sentBad ((ringCtx r).getD 0) f.desc op = some n → ∃ t, exec i s = .next t ∧
         s.answered t r f stBadDescriptor 0 (n * 2 ^ 16) ∧ s.moves t recordAreas [])) ∧
  (∀ (s : State) (r c op : Nat) (obj : ObjFacts) (f : Fetched), s.DescAt r clSent op f → s.idle → s.stn.op = none →
       s.mem.bad = [] → ringCtx r = some c → firstFail (s.sentChecks (some c) f.desc op (if op = 6 then obj else noObj)) = none →
       s.sentBad c f.desc op = none →
       let d := f.desc
       let slot := dF d 9 1
       let clear := ∀ w ∈ s.stn.windows, w.chan ∉ sentChans d
       let ran := fun (i : Instr) (areas : List Area) (regs : List (Nat × Nat)) (P : State → Prop) =>
         ∃ t, exec i s = .next t ∧ s.answered t r f stDone 0 (sentWords (sentCount d)) ∧ t.stn.op = none ∧ P t ∧
           s.moves t (areas ++ recordAreas) regs
       (op = 1 → ran (.sentConfigure r) [.cache, .stn] touchRegs fun t =>
         ∀ n ∈ sentChans d, (t.chan n).entry = s.dramRead c (sentAddr d + 320 * (n - sentFirst d)) 320) ∧
       (op = 2 → s.vrd.silent = false → ran (.sentEnable r) [.bank, .arr, .stn] [tileRegs, hubRegs] fun t =>
         ∀ n, t.chan n = if n ∈ sentChans d then { (s.chan n).init s.now with enabled := true } else s.chan n) ∧
       (op = 2 → s.vrd.silent = true → s.role = roleSolo → (∀ n ∈ sentChans d, n ∉ s.enabledChans) → ran (.sentEnable r) [.bank, .arr, .stn, .nv, .aon, .vrd, .pair]
         [tileRegs, hubRegs, olpRegs, vrdRegs, oneReg MGT_SETTINGS] fun t => t.vrd.silent = false ∧ ∀ n ∈ sentChans d, (t.chan n).enabled = true) ∧
       (op = 3 → clear → ran (.sentDisable r) stnAreas stnMoves fun t =>
         ∀ n ∈ sentChans d, (t.chan n).enabled = false ∧ (t.chan n).verdict = vNoData) ∧
       (op = 4 → clear → ran (.sentReset r) stnAreas stnMoves fun t => ∀ n ∈ sentChans d,
         (t.chan n).enabled = true ∧ (t.chan n).n = 0 ∧ (t.chan n).est = (s.chan n).w 24 ∧
           (t.chan n).verdict = if (s.chan n).warmup = 0 then vNormal else vLearning) ∧
       (op = 5 → ran (.sentAck r) [.stn] [] fun t => ∀ n ∈ sentChans d, (t.chan n).verdict =
         if (s.chan n).verdict = vTrip then (if (s.chan n).n < (s.chan n).warmup then vLearning else vNormal)
         else (s.chan n).verdict) ∧
       (op = 6 → ran (.sentLoadModel r obj) [.cache, .bank, .arr, .stn] (tileRegs :: touchRegs) fun t =>
         ∃ m, tabGet? t.stn.models slot = some m ∧ some m.decl = obj.model ∧ m.digest = obj.digest) ∧
       (op = 7 → ran (.sentUnloadModel r) [.stn] [] fun t => tabGet? t.stn.models slot = none) ∧
       (op = 8 → clear → ran (.sentReadState r) ([.stn] ++ writeAreas) writeRegs fun t =>
         ∀ n ∈ sentChans d, memRead t.mem.dram (s.readStateAt d n) (s.readStateLen n) = s.readStateBytes n) ∧
       (∀ i n, (op, i) ∈ [(3, Instr.sentDisable r), (4, .sentReset r), (8, .sentReadState r)] → n ∈ sentChans d →
         s.chanOnTile n = true → ∃ t e, exec i s = .next t ∧ t.stn.op = some e ∧ n ∈ e.waits ∧ t.hif.works ≠ []))

/-- STN_CTRL: a write of 1 to ENABLE for a cluster that is alone the partition of the context starts the Sentinel, which runs
once its partition is free of work; any other is refused; a write of 0 with no enabled channel stops it. The setup lock keeps
CLUSTER and CTX. -/
def Obligations.SentinelControl : Prop :=
  ∀ (s : State) (v : W32), s.reachesCore →
    let cl := v.toNat / 256 % 8
    let c := v.toNat % 32
    let at_ := fun t : State => t.fld STN_CTRL STN_CTRL_CLUSTER = cl ∧ t.fld STN_CTRL STN_CTRL_CTX = c
    (v.getLsbD 31 = true → s.setupLocked = false → s.bit STN_CTRL STN_CTRL_ENABLE = false →
      (s.aloneFor cl c = true → s.hif.works = [] → ∃ t, exec (.stnCtrlEnable v) s = .next t ∧
        t.bit STN_CTRL STN_CTRL_ENABLE = true ∧ at_ t ∧ t.stnRunning = (s.stnRunning || s.role != roleIsolated) ∧
        s.moves t [.arr, .bank] [glbRegs, stnRegs, tileRegs, hubRegs]) ∧
      (s.aloneFor cl c = false → ∃ t, exec (.stnCtrlEnable v) s = .next t ∧ t.bit STN_CTRL STN_CTRL_ENABLE = false ∧ at_ t ∧
        t.bit STN_ERR_STATUS STN_ERR_STATUS_SETUP_REFUSED = true ∧ s.moves t [] [stnRegs])) ∧
    (v.getLsbD 31 = false → s.bit STN_CTRL STN_CTRL_ENABLE = true → ∃ t, exec (.stnCtrlDisable v) s = .next t ∧
      (s.enabledChans = [] → t.bit STN_CTRL STN_CTRL_ENABLE = false ∧ t.stnRunning = false ∧ (s.setupLocked = false → at_ t)) ∧
      (s.enabledChans ≠ [] → t.bit STN_CTRL STN_CTRL_ENABLE = true ∧ t.stnRunning = s.stnRunning ∧
        t.bit STN_ERR_STATUS STN_ERR_STATUS_SETUP_REFUSED = true) ∧
      (s.setupLocked = true → t.fld STN_CTRL STN_CTRL_CLUSTER = s.fld STN_CTRL STN_CTRL_CLUSTER ∧
        t.fld STN_CTRL STN_CTRL_CTX = s.fld STN_CTRL STN_CTRL_CTX ∧ t.bit GLB_ERR_STATUS GLB_ERR_STATUS_LOCKED_WRITE = true) ∧
      s.moves t [] [stnRegs, oneReg GLB_ERR_STATUS, oneReg GLB_ERR_ADDR]) ∧
    (s.bit STN_CTRL STN_CTRL_ENABLE = true → s.sentBusy = false → s.role ≠ roleIsolated →
      ∃ t, exec .sentinelRunning s = .next t ∧ t.stnRunning = true ∧ s.moves t [] [oneReg STN_STATUS])

/-- A window's way: its doorbell queues it, is counted as an overrun with two before it, or is dropped; its data are read
from its slot of the ring, converted into its tile's staging slot, and it starts; data of another sequence number or a
failed read make it an invalid window. The window on a channel's tile ends: its score, a function of the model, the window
and the state block, reaches the tracker, unless a DISABLE or RESET discarded it; a model fault, and a word of the state
block that cannot be read, leave zero state and an invalid window. A channel without a window for STALE_US reads NO_DATA.
The model's choices in it (notes/assumptions/26.md): what a model computes and reads. -/
def Obligations.SentinelWindows : Prop :=
  (∀ (s : State) (fn c o p n seq : Nat) (v : W64) (w : StnWin) (b : List Byte) (e : HostErr), s.acts →
       (bar2Window fn o = some (c, p) → 0x1000 ≤ p → p ≤ 0x1FFF → s.servesWindow fn c = true →
         (∀ bits, p % 8 ≠ 0 ∨ bits ≠ 64 ∨ s.ready = false ∨ s.sentCtx ≠ some c →
           ∃ t, exec (.sentinelDoorbell fn o bits v) s = .next t ∧
             t.bit (HIF_CTX_ERR_STATUS c) HIF_CTX_ERR_STATUS_DOORBELL_DROPPED = true ∧ s.moves t [] [hifRegs])) ∧
       (bar2Window fn o = some (c, p) → 0x1000 ≤ p → p ≤ 0x1FFF → p % 8 = 0 → s.servesWindow fn c = true → s.sentCtx = some c →
         s.ready = true → n = v.toNat % 4096 → seq = v.toNat / 2 ^ 16 % 2 ^ 24 →
         let taken := v.toNat / 4096 % 16 = 0 ∧ v.toNat < 2 ^ 40 ∧ (s.chan n).enabled = true ∧ s.stnRunning = true
         ∃ t, exec (.sentinelDoorbell fn o 64 v) s = .next t ∧
           (taken → s.pendingWins n < 2 → t.stn.windows = s.stn.windows ++ [{ chan := n, s := seq, at_ := s.now }] ∧
             (t.chan n).since = s.now) ∧
           (taken → 2 ≤ s.pendingWins n → t.stn.windows = s.stn.windows ∧ (t.chan n).overruns = min 255 ((s.chan n).overruns + 1) ∧
             t.bit STN_ERR_STATUS STN_ERR_STATUS_OVERRUN = true) ∧
           (¬ taken → t.stn = s.stn ∧ t.bit STN_ERR_STATUS STN_ERR_STATUS_DOORBELL_DROPPED = true) ∧
           s.moves t [.stn] [stnRegs]) ∧
       (s.stn.windows = [w] → w.chan = n → w.fetched = false → w.started = false →
         let vals := convertWindow (s.chan n) b
         (bf b 0 4 = w.s → ∃ t, exec (.windowFetchDone n (.data b)) s = .next t ∧
           t.stn.windows = [{ w with
             fetched := true, run := true, slot := 0, started := true
             valid := decide (bf b 4 4 % 2 ^ (s.chan n).signals = 0) && vals.all Num.isFin }] ∧
           memRead t.mem.bank ((8 * s.chanTile n + 7) * 0x100000 + 0xC0000) (4 * vals.length) =
             (vals.flatMap fun x => leBytes 4 (encodeF32 x).toNat) ∧
           Out.hostRead (s.servingFn (128 * s.fld STN_CTRL STN_CTRL_CTX)) (windowAddr (s.chan n) w.s) (windowBytes (s.chan n)) ∈
             t.out ∧ s.moves t [.bank, .arr, .stn, .out] [tileRegs, hubRegs]) ∧
         (∀ rd, (rd = .data b ∧ bf b 0 4 ≠ w.s ∧ w.run = false) ∨ (rd = .error e ∧ w.run = false) →
           ∃ t, exec (.windowFetchDone n rd) s = .next t ∧ t.stn.windows = [] ∧
             t.fld STN_WINDOWS STN_WINDOWS_COUNT = min STN_WINDOWS_COUNT.top (s.fld STN_WINDOWS STN_WINDOWS_COUNT + 1) ∧
             (t.chan n).invalidRun = min 65535 ((s.chan n).invalidRun + 1) ∧
             (rd = .error e → t.bit STN_ERR_STATUS STN_ERR_STATUS_HOST_READ_ERR = true) ∧
             s.moves t (.hif :: stnAreas) stnMoves))) ∧
  (∀ (s : State) (n latency offset : Nat) (kind : FaultKind) (w : StnWin), s.acts →
       let x := s.chan n
       let y := (x.noteGap w.s).1
       let dig := match tabGet? s.stn.models x.model with | some m => m.digest | none => 0
       let block := bankPieces (s.stateAddr n) (1024 * x.stateKib)
       let old := s.bankRead (s.stateAddr n) (1024 * x.stateKib)
       let score := Config.modelScore dig x.signals (s.stagedWindow w) old
       let bytes := (List.range (1024 * x.stateKib)).map (Config.modelState dig x.signals (s.stagedWindow w) old)
       let faulted := fun t : State => t.stn.windows = [] ∧
         (t.chan n).verdict = y.onInvalid.verdict ∧ (t.chan n).stateErrs = min 255 (x.stateErrs + 1) ∧
         t.bit STN_ERR_STATUS STN_ERR_STATUS_MODEL_FAULT = true ∧
         t.mem.bank = memZero s.mem.bank (s.stateAddr n) (s.stateAddr n + 1024 * x.stateKib) ∧ s.moves t stnAreas stnMoves
       let r := if w.valid then (y.onValid score).1 else y.onInvalid
       (s.stn.windows = [w] → w.chan = n → w.started = true → s.stn.op = none →
         (s.bankFails block = none → s.bankFails [s.modelAt n] = none → ∃ t, exec (.modelDone n latency) s = .next t ∧
           t.stn.windows = [] ∧
           (w.dead = false → (t.chan n).verdict = r.verdict ∧ (t.chan n).est = r.est ∧ (t.chan n).n = r.n ∧
             (t.chan n).gaps = r.gaps ∧ t.fld STN_LAT_MAX STN_LAT_MAX_TIME =
               max (s.fld STN_LAT_MAX STN_LAT_MAX_TIME) (min latency 0xFFFFFFFF)) ∧
           (w.dead = true → t.stn.chans = s.stn.chans) ∧
           t.mem.bank = memWrite s.mem.bank (s.stateAddr n) bytes ∧ s.moves t stnAreas stnMoves) ∧
         (w.dead = false → (s.bankFails block).isSome = true → ∃ t, exec (.modelDone n latency) s = .next t ∧ faulted t ∧
           t.bit STN_ERR_STATUS STN_ERR_STATUS_STATE_UNCORR = true) ∧
         (w.dead = false → ∃ t, exec (.modelFault n kind offset) s = .next t ∧ faulted t ∧
           (kind = .stateUncorr → t.bit STN_ERR_STATUS STN_ERR_STATUS_STATE_UNCORR = true))) ∧
       (x.enabled = true → s.stnRunning = true → x.staleUs ≠ 0 → x.verdict ≤ vAlarm → x.since + x.staleUs ≤ s.now →
         ∃ t, exec (.staleTimeout n) s = .next t ∧ (t.chan n).verdict = vNoData ∧
           (∃ e ∈ t.stn.records, e.chan = n ∧ e.verdict = vNoData) ∧ s.moves t [.stn] []))

/-! ## Codec -/

/-- CODEC descriptors: the first check of Table 7 that fails gives the status, a closed role gate FAILED_OVER; REGISTER
takes the lowest free stream number; DECODE and ENCODE wait for the engines; FLUSH and UNREGISTER alone are done at once.
Pictures: a free engine starts the one that waits, with every core ON; a decode without a free slot ends with NO_SLOT; a
decoded picture is in its slot and an encoded one in its output buffer, within the coded picture buffer model; parameter
sets outside the registration refuse the picture; TIMEOUT_MS, an uncorrectable read and a stream that another party wrote
into end it. The model's choices in it (notes/assumptions/18.md): when tampering is noticed, a picture after a FLUSH, ties
of references. -/
def Obligations.CodecWork : Prop :=
  (∀ (s : State) (r c op : Nat) (i : Instr) (f : Fetched), s.DescAt r clCodec op f → s.alone r f → ringCtx r = some c →
       s.mem.bad = [] → (op, i) ∈ [(1, Instr.codecRegister r), (2, .codecDecode r), (3, .codecEncode r), (4, .codecFlush r), (5, .codecUnregister r)] →
       let d := f.desc
       let n := vStream d
       let b := s.dramRead c (vAddr d) (if op = 1 then 128 else 0)
       let freed := BitVec.ofNat 16 (dF d 12 2)
       let checks := firstFail (s.codecChecks c op f b)
       (∀ st, checks = some st → ∃ t, exec i s = .next t ∧ s.answered t r f st 0 (s.idleWords r d) ∧
         s.moves t recordAreas [secRegs]) ∧
       (checks = none → s.roleGated c = true → ∃ t, exec i s = .next t ∧ s.answered t r f stFailedOver 0 (s.idleWords r d) ∧
         s.moves t recordAreas []) ∧
       (checks = none → s.roleGated c = false →
         (op = 1 → ∃ t k, exec i s = .next t ∧ s.freeStream = some k ∧ s.answered t r f stDone 0 k ∧
           t.stream? k = some (streamOfBlock c b) ∧ t.isOn (.codec 0) = true ∧
           s.moves t ([.cache, .vcd] ++ recordAreas) touchRegs) ∧
         (op = 2 ∨ op = 3 → ∃ t w x y, exec i s = .next t ∧ s.admitted t w r f ∧ w.op = op ∧ w.phase = .waiting ∧
           s.stream? n = some x ∧ t.stream? n = some y ∧ y = { x with outs := x.outs &&& ~~~freed } ∧
           s.moves t (.vcd :: recordAreas) []) ∧
         (op = 4 → ∃ t x, exec i s = .next t ∧ s.stream? n = some x ∧ s.answered t r f stDone 0 (decodeWords 0x1F x.waits.toNat 0 0 0) ∧
           t.stream? n = some { x with outs := (x.outs &&& ~~~freed) ||| x.waits, waits := 0, refs := 0, awaitIrap := true } ∧
           s.moves t (.vcd :: recordAreas) []) ∧
         (op = 5 → ∃ t, exec i s = .next t ∧ s.answered t r f stDone 0 0 ∧ t.stream? n = none ∧
           s.moves t (.vcd :: recordAreas) []))) ∧
  (∀ (s : State) (shape : PicShape) (w : Work) (p : PicWork) (x : Stream) (res : PicResult), s.acts → s.hif.works = [w] →
       w.pic = some p → w.kern = none → s.stream? p.stream = some x → x.ctx = w.ctx → s.hears w.ring → w.op = 2 ∨ w.op = 3 →
       let d := w.desc
       let m := x.cpb (dF d 11 1) res.bits1 res.bits2
       let bytes := (m.bits + m.filler + 7) / 8
       let y := x.afterDecoded p res
       let good := s.mem.bad = [] ∧ res.uncorrectable = none
       let refused := x.accepts res.params = false ∨ (x.refused = true ∧ res.irap = false)
       let moved := fun t : State => s.moves t picAreas picRegs
       (w.phase = .waiting → s.gateClosed = false →
         (w.op = 3 ∨ x.freeSlot.isSome = true → ∃ t v, exec (.pictureStart shape) s = .next t ∧ t.hif.works = [v] ∧
           v.phase = .running ∧ v.pic = some { p with slot := x.freeSlot.getD 0, tampered := s.streamTampered x } ∧
           t.bit VCD_STATUS VCD_STATUS_ACTIVE = true ∧ t.vcd.onCores = some (p.stream, w.ctx) ∧
           t.fld VCD_STATUS VCD_STATUS_CORES_BUSY = x.coreMask shape ∧ (∀ k, k < 8 → t.isOn (.codec k) = true) ∧ moved t) ∧
         (w.op = 2 → x.freeSlot = none → ∃ t, exec (.pictureStart shape) s = .next t ∧ s.ended t w stBadDescriptor ∧
           t.bit VCD_ERR_STATUS VCD_ERR_STATUS_NO_SLOT = true ∧ moved t)) ∧
       (w.phase = .running →
         (w.pictureLate s.now = true → ∃ t, exec .pictureTimeout s = .next t ∧ s.ended t w stTimeout ∧
           t.bit VCD_STATUS VCD_STATUS_ACTIVE = false ∧ moved t) ∧
         (s.mem.bad = [] → res.uncorrectable.isSome = true → s.fld HIF_CTRL HIF_CTRL_UE_LIMIT = 0 →
           ∃ t, exec (.pictureDone res) s = .next t ∧ s.ended t w stMemoryUncorrectable ∧
             t.bit VCD_ERR_STATUS VCD_ERR_STATUS_MEM_UNCORR = true ∧ s.moves t (.nv :: .aon :: picAreas) picRegs) ∧
         (good → w.op = 2 → refused → ∃ t, exec (.pictureDone res) s = .next t ∧ s.ended t w stFormatUnsupported ∧
           t.stream? p.stream = some { x with refused := true } ∧ t.mem.dram = s.mem.dram ∧ moved t) ∧
         (good → w.op = 2 → ¬ refused → res.noOutput = true → ∃ t, exec (.pictureDone res) s = .next t ∧ s.ended t w stDone ∧
           t.mem.dram = s.mem.dram ∧ moved t) ∧
         (good → w.op = 2 → ¬ refused → res.noOutput = false → ∃ t, exec (.pictureDone res) s = .next t ∧
           t.stream? p.stream = some { y with pictures := min (2 ^ 32 - 1) (x.pictures + 1), shownUse := y.inUse } ∧
           s.ended t w (if concealed x p res = [] ∧ refHurt x res = false then stDone else stStreamConcealed) ∧
           t.mem.dram = (s.pictureWrites x p res).foldl (fun z e => memWrite z e.1 e.2) s.mem.dram ∧ moved t) ∧
         (good → w.op = 3 → p.tampered = true → ∃ t, exec (.pictureDone res) s = .next t ∧ s.ended t w stMemoryUncorrectable ∧
           t.bit VCD_ERR_STATUS VCD_ERR_STATUS_MEM_UNCORR = true ∧ moved t) ∧
         (good → w.op = 3 → p.tampered = false → m.skip = true → ∃ t z, exec (.pictureDone res) s = .next t ∧
           s.ended t w stPictureSkipped ∧ t.stream? p.stream = some z ∧ z.f = m.f ∧ z.coded = x.coded ∧ moved t) ∧
         (good → w.op = 3 → p.tampered = false → m.skip = false → bytes ≤ vOutLen d → ∃ t z, exec (.pictureDone res) s = .next t ∧
           s.ended t w stDone ∧ t.stream? p.stream = some z ∧ z.coded = x.coded + 1 ∧ z.f = m.f ∧
           t.vcd.lastUnit = some (x.unitOf p.stream (dF d 11 1) m.attempts (x.idrNext (dF d 10 1 % 2 == 1))
             (dF d 10 1 / 2 % 2 == 1) res.qpAvg) ∧
           t.mem.dram = memWrite s.mem.dram (vOut d) (res.stream.take bytes) ∧ moved t)))

/-- R229: an encoded picture whose access unit with its filler does not fit OUT_LEN completes with LENGTH_LIMIT, and the stream
and its CPB model are as they were. -/
def Obligations.EncodeLengthLimit : Prop :=
  ∀ (s : State) (w : Work) (p : PicWork) (x : Stream) (res : PicResult), s.acts → s.hif.works = [w] → w.pic = some p →
    w.kern = none → s.stream? p.stream = some x → s.hears w.ring → w.op = 3 → w.phase = .running →
    s.mem.bad = [] → res.uncorrectable = none → p.tampered = false →
    let m := x.cpb (dF w.desc 11 1) res.bits1 res.bits2
    m.skip = false → vOutLen w.desc < (m.bits + m.filler + 7) / 8 →
    ∃ t, exec (.pictureDone res) s = .next t ∧ s.ended t w stLengthLimit ∧ t.vcd = s.vcd ∧ t.mem.dram = s.mem.dram ∧
      s.moves t picAreas picRegs

/-! ## The host link and its rings -/

/-- The data link comes up with its width and speed, READY unless it is narrow; it goes down, by itself or by PERST_N, with
all rings gone and every context of a new tenancy; a function-level reset and a change of the number of VFs scrub the
contexts they concern, in a module that serves nothing. -/
def Obligations.LinkAndResets : Prop :=
  ∀ (s : State) (width speed v n : Nat) (enable : Bool), s.acts →
    let moved := fun (t : State) (more : List Area) => s.moves t (more ++ scrubAreas) [hifRegs, pwrRegs]
    let count := if enable then min n 32 else 0
    (s.isOn .hcx = true → s.linkUp = false → s.hif.perstLow = false → width ∈ [1, 2, 4, 8, 16] → 1 ≤ speed → speed ≤ 5 →
      ∃ t, exec (.pcieLinkUp width speed) s = .next t ∧ t.linkUp = true ∧ t.fld HIF_STATUS HIF_STATUS_WIDTH = width ∧
        t.fld HIF_STATUS HIF_STATUS_SPEED = speed ∧
        (width < 4 → t.bit HIF_STATUS HIF_STATUS_NARROW = true ∧ t.ready = s.ready ∧ (evLinkNarrow, width) ∈ t.aon.events) ∧
        (4 ≤ width → t.ready = decide (s.phase = phReady)) ∧ s.moves t [.nv, .aon] [oneReg HIF_STATUS]) ∧
    (s.linkUp = true → s.quiet → ∀ i, i = Instr.pcieLinkDown ∨ i = .perstN true → ∃ t, exec i s = .next t ∧
      t.linkUp = false ∧ t.ready = false ∧ t.hif.rings = [] ∧ t.bit HIF_ERR_STATUS HIF_ERR_STATUS_LINK_DOWN = true ∧
      (i = .perstN true → t.hif.perstLow = true) ∧ (∀ c, c < 32 → t.freshCtx c (s.nv.draws + 2 * c)) ∧ t.txOn = false ∧
      moved t [.pair, .vrd]) ∧
    (∀ low, low = false ∨ s.linkUp = false → s.hif.works = [] → ∃ t, exec (.perstN low) s = .next t ∧
      t.hif = { s.hif with perstLow := low } ∧ s.moves t [.hif, .pwr] [pwrRegs]) ∧
    (s.linkUp = true → s.quiet → s.idle →
      (1 ≤ v → v ≤ s.numVf → v ≤ 32 → ∃ t, exec (.vfFlr v) s = .next t ∧ t.freshCtx (v - 1) s.nv.draws ∧
        (∀ p ∈ t.hif.rings, ringCtx p.1 ≠ some (v - 1)) ∧ t.bit HIF_ERR_STATUS HIF_ERR_STATUS_VF_FLR = true ∧
        (∀ x ∈ t.hif.unmasked, x.1 ≠ v) ∧ (∀ x ∈ t.hif.cfg, x.1 / 0x1000 ≠ v) ∧ moved t []) ∧
      (∃ t, exec .pfFlr s = .next t ∧ (∀ c, c < 32 → t.freshCtx c (s.nv.draws + 2 * c)) ∧ t.numVf = 0 ∧
        t.reg HIF_MGMT_SQ = regReset HIF_MGMT_SQ ∧ t.ring mgmtRing = {} ∧ t.hif.unmasked = [] ∧ t.hif.msixPending = [] ∧ t.hif.cfg = [] ∧
        t.bit HIF_ERR_STATUS HIF_ERR_STATUS_PF_FLR = true ∧ moved t []) ∧
      (∃ t, exec (.servingFunctionChange n enable) s = .next t ∧ t.numVf = count ∧
        (∀ c, c < 32 → if decide (c < count) = decide (c < s.numVf) then t.ctx c = s.ctx c else
          ∃ k, t.freshCtx c (s.nv.draws + 2 * k)) ∧
        (∀ x ∈ t.hif.unmasked, x.1 ≤ count) ∧ moved t []))

/-- Doorbells: one within its range sets the ring's TAIL or completion HEAD; one out of range halts the ring; one that the
ring does not take, or that is no write of 64 bits, is dropped, with its error bit. A fetch, for a ring whose turn it is,
takes the descriptors that the ring's indexes and the 16 places before admission allow, and moves HEAD past them; a failed
read halts the ring and leaves one record of CLASS 0. The hold-off of an interrupt ends, and an unmasked vector's pending
message leaves while its function's MSI-X is enabled. The model's choices in it (notes/assumptions/19.md): the management
ring's turn. -/
def Obligations.DoorbellsAndFetch : Prop :=
  (∀ (s : State) (fn off r : Nat) (v : W64), s.acts →
       let g := s.ring r
       let halted := fun t : State => (t.ring r).halted = true ∧
         t.ringErr r HIF_CTX_ERR_STATUS_TAIL_RANGE HIF_ERR_STATUS_MGMT_HALTED ∧
         t.ringErr r HIF_CTX_ERR_STATUS_HALT HIF_ERR_STATUS_MGMT_HALTED ∧ s.moves t [.hif] [hifRegs]
       let dropped := fun t : State => t.ringErr r HIF_CTX_ERR_STATUS_DOORBELL_DROPPED HIF_ERR_STATUS_MGMT_DOORBELL ∧
         s.moves t [] [hifRegs]
       (∀ bits, bits ≠ 64 →
         (s.bellAt fn off r 0 → ∃ t, exec (.submissionTailDoorbell fn off bits v) s = .next t ∧ dropped t) ∧
         (s.bellAt fn off r 0x400 → ∃ t, exec (.completionHeadDoorbell fn off bits v) s = .next t ∧ dropped t)) ∧
       (s.bellAt fn off r 0 → ∃ t, exec (.submissionTailDoorbell fn off 64 v) s = .next t ∧
         (s.takesDoorbell r = false → dropped t) ∧
         (s.takesDoorbell r = true → inRange v g.head g.size = false → halted t) ∧
         (s.takesDoorbell r = true → inRange v g.head g.size = true →
           t.ring r = { g with tail := v.truncate 32, bellAt := some (g.bellAt.getD s.now) } ∧ s.moves t [.hif] [])) ∧
       (s.bellAt fn off r 0x400 →
         let fits := v.toNat < 2 ^ 32 ∧ (g.records - v.truncate 32).toNat ≤ g.size
         ∃ t, exec (.completionHeadDoorbell fn off 64 v) s = .next t ∧
           (s.takesDoorbell r = false → dropped t) ∧ (s.takesDoorbell r = true → ¬ fits → halted t) ∧
           (s.takesDoorbell r = true → fits → t.ring r = { g with cqHead := v.truncate 32 } ∧ s.moves t [.hif] []))) ∧
  (∀ (s : State) (r count fn vector : Nat) (b : List Byte) (e : HostErr), s.acts →
       let g := s.ring r
       let n := s.fetchable r (min count 16)
       let fs := (List.range n).map fun i => s.fetchedOf r ((g.head + BitVec.ofNat 32 i).toNat) (b.drop (64 * i))
       let w := (s.servingFn r, g.vector)
       (n ≠ 0 → s.fetchTurn r = true → s.idle → g.queue = [] → (∀ f ∈ fs, f.header = none ∧ f.aborted = false) →
         ∃ t, exec (.descriptorFetch r count (.data b)) s = .next t ∧ (t.ring r).queue = fs ∧
           (t.ring r).head = g.head + BitVec.ofNat 32 n ∧ s.moves t recordAreas []) ∧
       (n ≠ 0 → s.fetchTurn r = true → g.mute = false → ∃ t, exec (.descriptorFetch r count (.error e)) s = .next t ∧ (t.ring r).halted = true ∧
         t.bit HIF_ERR_STATUS HIF_ERR_STATUS_HOST_READ_ERR = true ∧
         t.ringErr r HIF_CTX_ERR_STATUS_FETCH_ERR HIF_ERR_STATUS_MGMT_HALTED ∧
         t.ringErr r HIF_CTX_ERR_STATUS_HALT HIF_ERR_STATUS_MGMT_HALTED ∧
         s.recordSent t r 0 g.head.toNat 0 (hostErrStatus e) 0 0 ∧ s.moves t recordAreas [hifRegs]) ∧
       (g.holding = true → ∃ t, exec (.holdoffExpiry r) s = .next t ∧ (t.ring r).due = false ∧ (t.ring r).holding = g.due ∧
         (g.due = true → s.msixOpen w.1 w.2 = true → s.linkUp = true → Out.msix w.1 w.2 ∈ t.out) ∧
         (g.due = true → s.msixOpen w.1 w.2 = false → w ∈ t.hif.msixPending) ∧ (g.due = false → t.out = s.out) ∧
         s.moves t [.hif, .out] []) ∧
       (fn ≤ 32 → vector < (if fn = 0 then 2048 else 64) → ∃ t, exec (.msixUnmask fn vector) s = .next t ∧
         (fn, vector) ∈ t.hif.unmasked ∧
         ((fn, vector) ∈ t.hif.msixPending ↔ (fn, vector) ∈ s.hif.msixPending ∧ s.msixOn fn = false) ∧
         ((fn, vector) ∈ s.hif.msixPending → s.msixOn fn = true → s.linkUp = true → t.out = .msix fn vector :: s.out) ∧
         ((fn, vector) ∉ s.hif.msixPending → t.out = s.out) ∧ s.moves t [.hif, .out] []))

/-- FENCE and ABORT with nothing admitted: a FENCE signals and completes at once, or ends ABORTED after a failure that it
checks; an ABORT finds its target in the queue, below TAIL and not yet fetched, where it is read from its slot, complete,
or no longer remembered; a target of another tag or that is an ABORT refuses it. With one transfer waiting, it ends that.
The model's choices in it (notes/assumptions/19.md): which failure a FENCE names, the window of state words. -/
def Obligations.FenceAndAbort : Prop :=
  ∀ (s : State) (r : Nat) (f : Fetched), s.acts → s.hears r →
    let d := f.desc
    let moved := fun t : State => s.moves t recordAreas []
    (s.DescAt r clFence (dF d 8 1) f → s.alone r f →
      (fenceOk d = false → ∃ t, exec (.fence r) s = .next t ∧ s.answered t r f stBadDescriptor 0 (0xFFFFFFFF * 2 ^ 32) ∧ moved t) ∧
      (fenceOk d = true → s.fenceFailed r f.seq d = none → ∃ t, exec (.fence r) s = .next t ∧
        s.answered t r f stDone 0 (0xFFFFFFFF * 2 ^ 32) ∧
        (dF d 9 1 / 2 % 2 = 1 → Out.hostWrite (s.servingFn r) (dF d 16 8) (leBytes 8 (dF d 24 8)) ∈ t.out) ∧ moved t) ∧
      (∀ x, fenceOk d = true → s.fenceFailed r f.seq d = some x → ∃ t, exec (.fence r) s = .next t ∧
        s.answered t r f stAborted 0 (x.1 * 2 ^ 32 + x.2 % 128 * 2 ^ 64) ∧ moved t)) ∧
    (s.abortIn r = some f →
      let a := abortRing r d
      let q := abortSeqNo d
      let g := s.ring a
      let ok := abortOk r d = true ∧ g.exists_ = true ∧ belowTail g q = true
      let unfetched := (g.tail - 1 - BitVec.ofNat 32 q).toNat < (g.tail - g.head).toNat
      let queued := g.queue.find? (fun y => y.seq == q)
      let tells := fun (st words : Nat) => ∀ rd, ∃ t, exec (.abort r rd) s = .next t ∧ s.answered t r f st 0 words ∧ moved t
      (s.idle →
        (¬ ok → tells stBadDescriptor 0) ∧
        (ok → unfetched →
          (∀ b, bf b 0 1 = clAbort ∨ bf b 4 4 ≠ abortTag d → ∃ t, exec (.abort r (.data b)) s = .next t ∧
            s.answered t r f stBadDescriptor 0 0 ∧ moved t) ∧
          (∀ b, bf b 0 1 ≠ clAbort → bf b 4 4 = abortTag d → ∃ t, exec (.abort r (.data b)) s = .next t ∧
            s.answered t r f stDone 0 (abortWords 0 (bf b 0 1)) ∧ q ∈ (t.ring a).early ∧ moved t) ∧
          (∀ e, ∃ t, exec (.abort r (.error e)) s = .next t ∧ s.answered t r f (hostErrStatus e) 0 0 ∧
            t.bit HIF_ERR_STATUS HIF_ERR_STATUS_HOST_READ_ERR = true ∧ s.moves t recordAreas [hifRegs])) ∧
        (∀ x, ok → ¬ unfetched → queued = some x →
          (dF x.desc 0 1 ≠ clAbort → dF x.desc 4 4 = abortTag d → tells stDone (abortWords 0 (dF x.desc 0 1))) ∧
          (dF x.desc 0 1 = clAbort ∨ dF x.desc 4 4 ≠ abortTag d → tells stBadDescriptor 0)) ∧
        (ok → ¬ unfetched → queued = none →
          (g.inWindow q = false ∨ g.words.find? (fun y => y.seq == q) = none →
            ∃ cls, cls < 256 ∧ tells stAbortTooLate (abortWords 4 cls)) ∧
          (∀ x, g.inWindow q = true → g.words.find? (fun y => y.seq == q) = some x →
            (x.cls ≠ clAbort → x.tag.toNat = abortTag d → tells stAbortTooLate (abortWords 4 x.cls)) ∧
            (x.cls = clAbort ∨ x.tag.toNat ≠ abortTag d → tells stBadDescriptor 0)))) ∧
      (∀ w rd, ok → ¬ unfetched → queued = none → g.inWindow q = true → s.hif.works = [w] → w.is a q = true → w.cls = clDma →
        w.phase = .waiting → w.tag.toNat = abortTag d → w.aborters = [] → a ≠ r → s.hears a →
        ∃ t, exec (.abort r rd) s = .next t ∧ s.ended t w stAborted ∧
          s.answered t r f stDone 0 (abortWords 1 clDma) ∧ moved t))

/-- Rings: RING_CREATE and RING_DELETE on ring 0 of a context, the enable of ring 0 and of the management ring by their
registers, and the choice of the format version while no ring of the context is enabled. -/
def Obligations.RingSetup : Prop :=
  (∀ (s : State) (r : Nat) (f : Fetched),
    let d := f.desc
    let moved := fun t : State => s.moves t recordAreas []
    (s.DescAt r clAdmin 1 f → s.idle → ∃ t, exec (.ringCreate r) s = .next t ∧ moved t ∧
      (onRing0 r = false → s.answered t r f stAccessDenied 0 0) ∧
      (onRing0 r = true → s.ringCreateOk (r / 128) d = false → s.answered t r f stBadDescriptor 0 0) ∧
      (onRing0 r = true → s.ringCreateOk (r / 128) d = true → s.answered t r f stDone 0 0 ∧
        t.ring (r + dF d 9 1) = createdRing d)) ∧
    (s.DescAt r clAdmin 2 f → s.alone r f → ∃ t, exec (.ringDelete r) s = .next t ∧ moved t ∧
      (onRing0 r = false → s.answered t r f stAccessDenied 0 0) ∧
      (let ok := inR 1 127 (dF d 9 1) = true ∧ dZero d 10 54 = true ∧ (s.ring (r + dF d 9 1)).exists_ = true
       (onRing0 r = true → ¬ ok → s.answered t r f stBadDescriptor 0 0) ∧
       (onRing0 r = true → ok → s.answered t r f stDone 0 0 ∧ t.ring (r + dF d 9 1) = {})))) ∧
  (∀ (s : State) (fn c r : Nat) (v : W64) (u : W32) (i : Instr), s.reachesCore →
    let g := s.ring r
    let sq := (ringRegs r).1
    let on := getBits v HIF_SQ_ENABLE = 1
    let log2 := getBits v HIF_SQ_LOG2_ENTRIES
    let base := getBits v HIF_SQ_BASE
    let refused := fun t : State => t.ring r = g ∧ t.ringErr r HIF_CTX_ERR_STATUS_RING_CONFIG HIF_ERR_STATUS_MGMT_CONFIG
    ((i = .mgmtRingEnable v ∧ r = mgmtRing) ∨ (i = .ctxRingEnable fn c v ∧ s.reachesCtx fn c = true ∧ r = 128 * c) →
      (g.enabled = false → ∃ t, exec i s = .next t ∧ s.moves t [.hif] [hifRegs] ∧ t.fld sq HIF_SQ_BASE = base ∧
        t.fld sq HIF_SQ_LOG2_ENTRIES = log2 ∧ (¬ on → t.hif = s.hif) ∧
        (on → 4 ≤ log2 → log2 ≤ 16 → s.ringScrubbing r = false → (t.ring r).exists_ = true ∧ (t.ring r).enabled = true ∧
          (t.ring r).log2 = log2 ∧ (t.ring r).sqBase = BitVec.ofNat 64 (base * 4096) ∧ (t.ring r).tail = 0 ∧ (t.ring r).head = 0 ∧
          (t.ring r).records = 0) ∧
        (on → log2 < 4 ∨ 16 < log2 ∨ s.ringScrubbing r = true → refused t)) ∧
      (g.enabled = true → s.idle → ∃ t, exec i s = .next t ∧ s.moves t recordAreas [hifRegs] ∧
        t.reg sq = s.reg sq ∧ (base ≠ s.fld sq HIF_SQ_BASE ∨ log2 ≠ s.fld sq HIF_SQ_LOG2_ENTRIES → refused t) ∧
        (base = s.fld sq HIF_SQ_BASE → log2 = s.fld sq HIF_SQ_LOG2_ENTRIES →
          (on → t.hif = s.hif) ∧ (¬ on → (t.ring r).enabled = false ∧ (t.ring r).queue = [])))) ∧
    (s.reachesCtx fn c = true → ∃ t, exec (.versionSelectWrite fn c u) s = .next t ∧ s.moves t [] [hifRegs] ∧
      let ok := (u.toNat % 16 = 1 ∨ u.toNat % 16 = 2) ∧ s.ringsOff c = true
      (ok → t.fld (HIF_VERSION_SELECT c) HIF_VERSION_SELECT_VERSION = u.toNat % 16) ∧
      (¬ ok → t.reg (HIF_VERSION_SELECT c) = s.reg (HIF_VERSION_SELECT c) ∧
        t.bit (HIF_CTX_ERR_STATUS c) HIF_CTX_ERR_STATUS_VERSION_WRITE = true)))

/-- Transfers and the patrol. A DMA descriptor is admitted or fails its checks; a running transfer whose banks are the
context's and serve it ends with its bytes in the destination and BYTES the whole length, or with the status of a failed
read; a bank of another owner denies it; it ends with TIMEOUT and what was written TIMEOUT_MS after its start. A patrol
read takes the next line of the sweep, is counted by what the error code shows, and the last line ends the pass. The
model's choices in it (notes/assumptions/25.md): uncorrectable lines, DMA on a bank not at rest. -/
def Obligations.Transfers : Prop :=
  (∀ (s : State) (r c op : Nat) (i : Instr) (f : Fetched), s.DescAt r clDma op f → s.idle → ringCtx r = some c →
    (op, i) ∈ [(1, Instr.dmaCopy r), (2, .dmaFill r)] →
    (∀ st, firstFail (s.dmaChecks c op f.desc) = some st → ∃ t, exec i s = .next t ∧ s.answered t r f st 0 0 ∧
      s.moves t recordAreas [secRegs]) ∧
    (firstFail (s.dmaChecks c op f.desc) = none → ∃ t w, exec i s = .next t ∧ s.admitted t w r f ∧ w.op = op ∧
      w.phase = (if s.gateClosed then .waiting else .running) ∧ s.moves t recordAreas [])) ∧
  (∀ (s : State) (r seq written : Nat) (w : Work) (rd : HostRd) (ecc : Ecc) (byte : Nat), s.acts → s.work? r seq = some w → w.cls = clDma →
    w.phase = .running → s.hears r → s.fld HIF_CTRL HIF_CTRL_UE_LIMIT = 0 →
    let d := w.desc
    let host := w.op = 1 ∧ mSrcSpace d = 2
    let bytes := s.dmaBytes w rd
    let bad := w.op = 1 ∧ (mSrcSpace d = 0 ∨ mSrcSpace d = 1) ∧ ecc = .uncorrectable
    let mine := ∀ g ∈ w.banks, s.bankOwnerSeen g = some w.ctx
    let serve := mine ∧ ∀ g ∈ w.banks, s.bankReadyFor w.ctx g = true
    let good := s.mem.bad = [] ∧ s.bankFails w.dmaSrcPieces = none ∧ s.bankPartFails w.dmaDstPieces = none
    let moved := fun t : State => s.moves t dmaAreas dmaRegs
    ((host → ∃ b, rd = .data b) → serve → good → ¬ bad → mDstSpace d ≠ 0 ∨ s.objectBusy (mDst d) (mLen d) = false → s.dmaWindows w = [] →
      ∃ t, exec (.dmaDone r seq rd ecc byte) s = .next t ∧ t.work? r seq = none ∧ s.recordSent t r w.tag seq (mLen d) stDone clDma 0 ∧
        (mDstSpace d = 0 → t.mem.dram = memWrite s.mem.dram (mDst d) bytes ∧ t.mem.bank = s.mem.bank) ∧
        (mDstSpace d = 1 → ∀ p, dmaPieces (mKey d) w.tiles (mDst d) (mLen d) = [p] →
          t.mem.bank = memWrite s.mem.bank p.1 (bytes.take p.2) ∧ t.mem.dram = s.mem.dram) ∧
        (mDstSpace d = 2 → bytes ≠ [] → Out.hostWrite (s.servingFn r) (mDst d) bytes ∈ t.out ∧ t.mem.dram = s.mem.dram ∧
          t.mem.bank = s.mem.bank) ∧ moved t) ∧
    (∀ e, host → rd = .error e → ∃ t, exec (.dmaDone r seq rd ecc byte) s = .next t ∧ s.ended t w (hostErrStatus e) ∧
      t.bit HIF_ERR_STATUS HIF_ERR_STATUS_HOST_READ_ERR = true ∧ moved t) ∧
    (¬ mine → (host → ∃ b, rd = .data b) → ∃ t, exec (.dmaDone r seq rd ecc byte) s = .next t ∧ s.ended t w stAccessDenied ∧
      moved t) ∧
    (serve → bad → ∃ t, exec (.dmaDone r seq rd ecc byte) s = .next t ∧ s.ended t w stMemoryUncorrectable ∧ moved t) ∧
    (w.late s.now (dF d 12 4) = true → ∃ t, exec (.dmaTimeout r seq written) s = .next t ∧ t.work? r seq = none ∧
      s.recordSent t r w.tag seq (min written (mLen d)) stTimeout clDma 0 ∧ moved t)) ∧
  (∀ (s : State) (m : Nat) (ecc : Ecc), s.acts → m < 12 → s.isOn (.mem m) = true →
    s.bit (MEM_PATROL m) MEM_PATROL_ENABLE = true →
    let k := tabGetD s.mem.sweep m 0
    let last := decide (channelLines ≤ k + 1)
    let found := if s.mem.bad.contains (dramOfLocal m (64 * k) / 64) then Ecc.uncorrectable else ecc
    let more := fun (n : Nat) (b : Bits) (yes : Bool) => min b.top (n + if yes then 1 else 0)
    ∃ t, exec (.patrolRead m ecc) s = .next t ∧
      tabGetD t.mem.sweep m 0 = (if last then 0 else k + 1) ∧
      t.fld (MEM_ECC_COUNT m) MEM_ECC_COUNT_CORRECTED =
        more (s.fld (MEM_ECC_COUNT m) MEM_ECC_COUNT_CORRECTED) MEM_ECC_COUNT_CORRECTED (found == .corrected) ∧
      t.fld (MEM_UE_COUNT m) MEM_UE_COUNT_PATROL =
        more (s.fld (MEM_UE_COUNT m) MEM_UE_COUNT_PATROL) MEM_UE_COUNT_PATROL (found == .uncorrectable) ∧
      t.fld (MEM_PATROL_DONE m) MEM_PATROL_DONE_PASSES =
        more (s.fld (MEM_PATROL_DONE m) MEM_PATROL_DONE_PASSES) MEM_PATROL_DONE_PASSES last ∧
      (found = .uncorrectable → t.bit (MEM_UE_ADDR m) MEM_UE_ADDR_VALID = true ∧ (evMemory, m) ∈ t.aon.events) ∧
      s.moves t [.nv, .aon] [memRegs])

/-! ## ADMIN operations -/

/-- An ADMIN operation on a ring that does not admit it completes with ACCESS_DENIED and does nothing else. -/
def Obligations.AdminOnItsRing : Prop :=
  ∀ (s : State) (r op : Nat) (rd : HostRd) (i : Instr) (f : Fetched), s.DescAt r clAdmin op f → s.idle →
    let mgmt := [(0x10, Instr.partDefine r), (0x11, .partSchedule r), (0x12, .ctxGrant r), (0x13, .ctxScrub r), (0x19, .ctxDebug r),
      (0x20, .powerMode r), (0x21, .energySnapshot r), (0x30, .imageInject r rd), (0x31, .arm r rd), (0x32, .disarm r),
      (0x33, .ownerLock r), (0x34, .svnCommit r), (0x35, .eventRead r), (0x40, .pairConfig r), (0x41, .roleSwap r),
      (0x42, .isolate r), (0x43, .rejoin r), (0x44, .cascadeConfig r), (0x45, .windowOpen r), (0x46, .windowClose r), (0x47, .linkRetrain r)]
    let own := [(1, Instr.ringCreate r), (2, .ringDelete r), (0x16, .keyInstall r), (0x17, .keyRemove r), (0x18, .weightImport r)]
    let both := [(0x14, Instr.provReport r), (0x15, .provCert r)]
    ((op, i) ∈ mgmt ∧ onMgmt r = false) ∨ ((op, i) ∈ own ∧ onRing0 r = false) ∨
        ((op, i) ∈ both ∧ onMgmt r = false ∧ onRing0 r = false) →
      ∃ t, exec i s = .next t ∧ s.answered t r f stAccessDenied 0 0 ∧ s.moves t recordAreas [pwrRegs]

/-! ## Contexts and partitions -/

/-- On the management ring: a partition takes its clusters, its schedule and its slice, a context its granted regions and
its debug permit; what is not allowed is refused with its error bit. A scrub ends the tenancy. The model's choices in it
(notes/assumptions/22.md): clusters still to be left. -/
def Obligations.PartitionsAndGrants : Prop :=
  ∀ (s : State) (f : Fetched), s.acts → s.idle →
    let r := mgmtRing
    let d := f.desc
    let p := dF d 9 1
    let c := dF d 9 1
    let is := fun (op : Nat) => s.DescAt r clAdmin op f
    let moved := fun t : State => s.moves t (.sec :: recordAreas) [secRegs, pwrRegs]
    let bad := fun t : State => s.answered t r f stBadDescriptor 0 0
    (is 0x10 → let ok := p < 8 ∧ dZero d 11 53 = true
      let m := BitVec.ofNat 8 (dF d 10 1)
      ∃ t, exec (.partDefine r) s = .next t ∧ moved t ∧ (¬ ok → bad t) ∧
        (ok → s.defineOk p m = false → bad t ∧ t.bit SEC_ERR_STATUS SEC_ERR_STATUS_SCHEDULE_REFUSED = true) ∧
        (ok → s.defineOk p m = true → s.answered t r f stDone 0 0 ∧ t.part p = (s.part p).redefine m ∧
          ∀ q, q ≠ p → t.part q = s.part q)) ∧
    (is 0x11 → let ok := p < 8 ∧ inR 1 255 (dF d 10 1) = true ∧ dZero d 11 1 = true ∧ dZero d 16 48 = true
      let m := BitVec.ofNat 32 (dF d 12 4)
      ∃ t, exec (.partSchedule r) s = .next t ∧ moved t ∧ (¬ ok → bad t) ∧
        (ok → s.scheduleOk p m = false → bad t ∧ t.bit SEC_ERR_STATUS SEC_ERR_STATUS_SCHEDULE_REFUSED = true) ∧
        (ok → s.scheduleOk p m = true → s.answered t r f stDone 0 0 ∧ (t.part p).ctxMask = m ∧ (t.part p).slice = dF d 10 1 ∧
          (t.part p).clusters = (s.part p).clusters ∧ (t.part p).current = (s.part p).current ∧
          ∀ q, q ≠ p → t.part q = s.part q)) ∧
    (is 0x12 →
      let i := dF d 10 1
      let g := (dF d 16 8, dF d 24 8)
      ∃ t, exec (.ctxGrant r) s = .next t ∧ moved t ∧ (grantFields d = false → bad t) ∧
        (grantFields d = true → s.grantOk c i g.1 g.2 = false → bad t ∧
          t.bit SEC_ERR_STATUS SEC_ERR_STATUS_GRANT_REFUSED = true) ∧
        (grantFields d = true → s.grantOk c i g.1 g.2 = true → s.answered t r f stDone 0 0 ∧
          tabGet? (t.ctx c).grants i = (if g.2 = 0 then none else some g) ∧ ∀ o, o ≠ c → t.ctx o = s.ctx o)) ∧
    (is 0x19 → let ok := c < 32 ∧ dF d 10 1 < 2 ∧ dZero d 11 53 = true
      let free := (s.ctx c).keys = [] ∧ (s.ctx c).prots = []
      ∃ t, exec (.ctxDebug r) s = .next t ∧ moved t ∧ (¬ ok → bad t) ∧
        (ok → ¬ free → s.answered t r f stAccessDenied 0 0) ∧
        (ok → free → s.answered t r f stDone 0 0 ∧ (t.ctx c).debugPermit = decide (dF d 10 1 = 1) ∧
          ∀ o, o ≠ c → t.ctx o = s.ctx o)) ∧
    (is 0x13 → s.quiet → s.alone r f → let ok := c < 32 ∧ dZero d 10 54 = true
      ∃ t, exec (.ctxScrub r) s = .next t ∧ s.moves t scrubAreas [hifRegs, pwrRegs] ∧ (¬ ok → bad t) ∧
        (ok → s.answered t r f stDone 0 (s.scrubWords c) ∧ t.freshCtx c s.nv.draws ∧
          (∀ x ∈ t.hif.rings, ringCtx x.1 ≠ some c) ∧ ∀ o, o ≠ c → t.ctx o = s.ctx o))

/-- Owner keys, imported weights and the Provenance report and certificate, on ring 0 of a context or, the last two, the
management ring, with DRAM that can be read. The model's choices in it (notes/assumptions/22.md): the statuses of an empty
slot. -/
def Obligations.KeysAndReports : Prop :=
  ∀ (s : State) (r : Nat) (f : Fetched), s.acts → s.idle → s.mem.bad = [] →
    let d := f.desc
    let c := r / 128
    let slot := dF d 9 1
    let src := dF d 16 8
    let is := fun (op : Nat) => s.DescAt r clAdmin op f
    let tells := fun (i : Instr) (st words : Nat) (areas : List Area) (regs : List (Nat × Nat)) (P : State → Prop) =>
      ∃ t, exec i s = .next t ∧ s.answered t r f st 0 words ∧ P t ∧ s.moves t (areas ++ recordAreas) regs
    let blob := s.openBlob c slot (s.dramRead c src 1648)
    let rng := fun t : State => t.bit SEC_ERR_STATUS SEC_ERR_STATUS_RNG_FAIL = true
    (is 0x16 → onRing0 r = true → slot < 4 → dZero d 10 6 = true → src < 2 ^ 40 → src % 64 = 0 → dZero d 24 40 = true →
      (s.dramOk c src 1648 = false → tells (.keyInstall r) stAccessDenied 0 [] [secRegs] fun t => t.sec = s.sec) ∧
      (s.dramOk c src 1648 = true → s.rngOk = false → tells (.keyInstall r) stAccessDenied 0 [] [secRegs] rng) ∧
      (s.dramOk c src 1648 = true → s.rngOk = true →
        (blob = none → tells (.keyInstall r) stAccessDenied 0 [.cache] (secRegs :: touchRegs) fun t =>
          t.bit SEC_ERR_STATUS SEC_ERR_STATUS_KEY_REJECTED = true) ∧
        (∀ k fl, blob = some (k, fl) →
          let permit := (s.ctx c).debugPermit && fl % 2 == 1
          tells (.keyInstall r) stDone (k.keyId.toNat + 2 ^ 32 * slot + (if permit then 2 ^ 40 else 0)) [.sec, .cache] touchRegs
            fun t => t.keyOf c slot = some k ∧ (t.ctx c).debugPermit = permit))) ∧
    (is 0x17 → onRing0 r = true → slot < 4 → dZero d 10 54 = true →
      (s.keyOf c slot = none → tells (.keyRemove r) stBadDescriptor 0 [] [] fun t => t.sec = s.sec) ∧
      (∀ k, s.keyOf c slot = some k → tells (.keyRemove r) stDone k.keyId.toNat [.sec] [] fun t => t.keyOf c slot = none)) ∧
    (is 0x18 → onRing0 r = true → importFields d = true → wChunks d = 1 → s.dramOk c (wSrc d) (wSrcLen d) = true →
      s.dramOkW c (wDst d) (wRegion d) = true → tabGet? (s.ctx c).prots (dF d 10 1) = none →
      (s.keyOf c slot = none → tells (.weightImport r) stAccessDenied 0 [] [] fun t => t.sec = s.sec) ∧
      (∀ k, s.keyOf c slot = some k → s.openChunk c k.key d 0 = none →
        tells (.weightImport r) stAccessDenied 0 [.sec, .dram, .cache, .olp] (secRegs :: writeRegs) fun t =>
          t.bit SEC_ERR_STATUS SEC_ERR_STATUS_IMPORT_TAG_FAIL = true ∧ tabGet? (t.ctx c).prots (dF d 10 1) = none) ∧
      (∀ k pt, s.keyOf c slot = some k → s.openChunk c k.key d 0 = some pt →
        tells (.weightImport r) stDone (importWords d 1) [.sec, .dram, .cache, .olp] writeRegs fun t =>
          t.mem.dram = memWrite (memWrite s.mem.dram (wDst d) pt) (wDst d + wLen d) (List.replicate (wRegion d - wLen d) 0) ∧
          tabGet? (t.ctx c).prots (dF d 10 1) = some { base := wDst d, len := wRegion d, slot := slot, keyId := k.keyId })) ∧
    (is 0x14 → onMgmt r = true ∨ onRing0 r = true → dZero d 9 7 = true → dF d 48 8 % 64 = 0 → dZero d 60 4 = true →
      let len := s.bodyLen + 49856
      let serial := min SEC_REPORTS_COUNT.top (s.fld SEC_REPORTS SEC_REPORTS_COUNT + 1)
      let body := s.reportBody serial (leBytes 32 (dF d 16 32))
      (dF d 56 4 < len → ∃ x, tells (.provReport r) stLengthLimit (len + 2 ^ 32 * s.bodyLen + 2 ^ 64 * x) [] [] fun t => t.nv = s.nv) ∧
      (len ≤ dF d 56 4 → s.rngOk = false → tells (.provReport r) stAccessDenied 0 [] [secRegs] rng) ∧
      (len ≤ dF d 56 4 → s.rngOk = true →
        tells (.provReport r) stDone (len + 2 ^ 32 * s.bodyLen + 2 ^ 64 * serial) [.nv] [oneReg SEC_REPORTS] fun t =>
          t.fld SEC_REPORTS SEC_REPORTS_COUNT = serial ∧ t.nv.draws = s.nv.draws + 1 ∧
          Out.hostWrite (s.servingFn r) (dF d 48 8)
            (body ++ leBytes 49856 (Config.slhSign body (Config.draw s.nv.draws)).toNat) ∈ t.out)) ∧
    (is 0x15 → onMgmt r = true ∨ onRing0 r = true → dZero d 9 39 = true → dZero d 60 4 = true →
      (dF d 56 4 < 31616 → tells (.provCert r) stLengthLimit 31616 [] [] fun _ => True) ∧
      (31616 ≤ dF d 56 4 → tells (.provCert r) stDone 31616 [] [] fun t =>
        Out.hostWrite (s.servingFn r) (dF d 48 8) deviceCert ∈ t.out))

/-- Time-sharing: at the end of its slice the current context drains; a switch clears its tiles and gives the partition to
the context whose turn is next, but for a bank whose clear runs already; an idle partition goes to a context with a
waiting claim. The random source fails and is healthy again. The model's choices in it (notes/assumptions/3.md,
notes/assumptions/22.md): the switch is one step, RNG_OK after a fresh draw. -/
def Obligations.TenantSwitches : Prop :=
  ∀ (s : State) (p a c time : Nat), s.acts → p < 8 →
    ((s.part p).current = some a → (s.nextCtx p a).isSome = true → (s.part p).sliceUsed s.now = true → ∃ t, exec (.sliceExpiry p) s = .next t ∧
      t.part p = { s.part p with draining := true } ∧ s.moves t [.sec] []) ∧
    ((s.part p).current = some a → s.mustSwitch p a = true → s.sentPart p = false → a < 32 → time < 2 ^ 24 →
      ∃ t, exec (.tenantSwitch p time) s = .next t ∧ (t.part p).current = s.nextCtx p a ∧ (t.part p).draining = false ∧
        (t.part p).clusters = (s.part p).clusters ∧
        (∀ cl ∈ s.partClusters p, ∀ i ∈ clusterTiles cl, t.tile i = {} ∧ ∀ g ∈ tileBanks i, s.ownsBank a g = true →
          t.bankValid g = false ∧ (s.bankClearing g = false → ∀ x, x / 0x100000 = g → memGet t.mem.bank x = 0)) ∧
        t.fld SEC_SWITCH_LAST SEC_SWITCH_PART = p ∧ t.fld SEC_SWITCH_LAST SEC_SWITCH_CTX = a ∧
        t.fld SEC_SWITCH_LAST SEC_SWITCH_TIME = time ∧
        s.moves t ([.sec, .bank, .cache, .arr] ++ recordAreas) [secRegs, pwrRegs, memRegs, tileRegs, hubRegs]) ∧
    ((s.part p).current = none → (s.part p).clusters ≠ 0 → (s.part p).contexts.find? s.hasWaiting = some c →
      ∃ t, exec (.contextBecomesCurrent p) s = .next t ∧ (t.part p).current = some c ∧
        (t.part p).draining = false ∧ s.moves t (.sec :: recordAreas) [pwrRegs]) ∧
    (∃ t, exec .rngFail s = .next t ∧ t.rngOk = false ∧ t.bit SEC_ERR_STATUS SEC_ERR_STATUS_RNG_FAIL = true ∧
      (evRng, 0) ∈ t.aon.events ∧ s.moves t [.nv, .aon] [secRegs]) ∧
    (s.bit SEC_STATUS SEC_STATUS_READY = true → ∃ t, exec .freshDraw s = .next t ∧ t.rngOk = true ∧
      (∀ x, x < 32 → if (s.ctx x).scrubbing then (t.ctx x).scrubbing = false ∧ s.nv.draws ≤ (t.ctx x).nonce else
        t.ctx x = s.ctx x) ∧ s.moves t [.nv, .sec] [secRegs])

/-! ## Power limits, hints and energy -/

/-- The limiter's inputs: a microsecond's measurements with their means, the projected peak energy, the brown-out hold and
its end after 1 ms, the ladder of TJ_HIGH in steps of 100 µs and 1 ms, the airflow estimate, the voltage loops and droop.
The model's choices in it (notes/assumptions/28.md): averages before a full window, the two airflow averages. -/
def Obligations.PowerLimits : Prop :=
  ∀ (s : State) (m : PowerMeas) (a : AirFacts) (worst v us c temp margin slack clocks : Nat), s.live →
    let moved := fun (t : State) (more : List Area) => s.moves t (more ++ recordAreas) [pwrRegs, glbRegs]
    (let l := ((m.voltage10mV, m.currentMA) :: s.pwr.samples).take 100000
     ∃ t, exec (.powerSample m) s = .next t ∧ t.pwr.samples = l ∧ t.fld PWR_INPUT PWR_INPUT_VOLTAGE = mean10 l (·.1) % 2 ^ 16 ∧
      t.fld PWR_INPUT PWR_INPUT_CURRENT = mean10 l (·.2) % 2 ^ 16 ∧ t.fld PWR_POWER PWR_POWER_P_1MS = meanPower l 1000 % 2 ^ 16 ∧
      t.fld PWR_POWER PWR_POWER_P_100MS = meanPower l 100000 % 2 ^ 16 ∧ t.fld PWR_TEMPS PWR_TEMPS_TJ_MAX = temp8 m.tjMax ∧
      t.fld PWR_LIMITS PWR_LIMITS_BUDGET = s.smallestBudget m.tInlet ∧
      (∀ r ∈ [1, 2, 4, 7], tabGetD t.pwr.rungs r 0 = s.budgetRung m r) ∧
      t.pwr.gateUs = s.pwr.gateUs + (if t.gateClosed then 1 else 0) ∧ moved t []) ∧
    (let energy := energyUJ s.pwr.samples 990
     ∃ t, exec (.peakProjection worst) s = .next t ∧ t.pwr.peakOver = decide (436500 < energy + worst) ∧
      (436500 < energy + worst → ∀ x, x < 8 → s.cluApplied x < tabGetD t.pwr.rungs rPeak 0 ∨ tabGetD t.pwr.rungs rPeak 0 = rungFloor) ∧
      moved t []) ∧
    (∃ t, exec (.supplyWarn v) s = .next t ∧ moved t [] ∧
      (4000 ≤ v → t.pwr = s.pwr) ∧
      (v < 4000 → t.bit PWR_STATUS PWR_STATUS_SUPPLY_HOLD = true ∧ t.gateClosed = true ∧
        t.bit PWR_STATUS PWR_STATUS_PAUSE = true ∧
        t.pwr.holdMin = if s.bit PWR_STATUS PWR_STATUS_SUPPLY_HOLD then min s.pwr.holdMin v else v)) ∧
    (s.now < s.pwr.lowAt + 1000 → ∃ t, exec (.holdRelease v us) s = .next t ∧ t.pwr = s.pwr ∧ s.moves t [] []) ∧
    (s.bit PWR_STATUS PWR_STATUS_SUPPLY_HOLD = true → 4100 ≤ v → s.pwr.lowAt + 1000 ≤ s.now →
      ∃ t, exec (.holdRelease v us) s = .next t ∧
      t.bit PWR_STATUS PWR_STATUS_SUPPLY_HOLD = false ∧
      t.fld PWR_SUPPLY_LAST PWR_SUPPLY_LAST_MIN_VOLTAGE = s.pwr.holdMin % 2 ^ 16 ∧
      t.fld PWR_SUPPLY_LAST PWR_SUPPLY_LAST_DURATION_US = min 0xFFFFFFFF us ∧ (∃ e ∈ t.nv.log, e.code = evSupplyHold) ∧
      (∃ e ∈ t.aon.events, e.1 = evSupplyHold) ∧ moved t [.nv, .aon]) ∧
    (s.aon.core = true → c ≤ 8 → s.sentCluster ≠ some c →
      let rung := fun t : State => tabGetD t.pwr.tjRungs c 0
      ∃ t, exec (.tjHighStep c temp) s = .next t ∧ (s.tjDue c temp = true → 95 ≤ temp → rung s < rung t ∨ rung t = rungFloor) ∧
        (s.tjDue c temp = true → temp ≤ 93 → rung t < rung s ∨ rung t = 0) ∧ (s.tjDue c temp = false → rung t = rung s) ∧
        (temp = 94 → rung t = rung s) ∧ moved t []) ∧
    (let y := (s.takeAir a).pwr
     let slow := y.afSlowMilli a
     let fast := y.afFast
     let sudden := y.af.isSome = true ∧ (2 * fast < slow ∨ fast < 300)
     ∃ t, exec (.airflowEstimate a) s = .next t ∧ moved t [.nv, .aon] ∧
      (y.af = none → airFault a = false → t.reg PWR_STATUS = s.reg PWR_STATUS ∧ t.reg PWR_AIRFLOW = s.reg PWR_AIRFLOW) ∧
      (y.af.isSome = true ∨ airFault a = true → t.bit PWR_STATUS PWR_STATUS_SENSOR_FAULT = airFault a ∧
        t.fld PWR_AIRFLOW PWR_AIRFLOW_AF_SLOW = slow % 2 ^ 16 ∧ t.fld PWR_AIRFLOW PWR_AIRFLOW_AF_FAST = fast % 2 ^ 16 ∧
        t.pwr.airKnown = true ∧ (700 ≤ slow → slow < 850 → s.pwr.airKnown = false → (evAirflow, 1) ∈ t.aon.events)) ∧
      (sudden → t.bit PWR_STATUS PWR_STATUS_AIR_STOP = true ∧ t.gateClosed = true ∧
        (s.bit PWR_STATUS PWR_STATUS_AIR_STOP = false → s.bit PWR_SHUTDOWN PWR_SHUTDOWN_SHUTTING = false →
          t.bit PWR_SHUTDOWN PWR_SHUTDOWN_PENDING = true ∧ t.fld PWR_SHUTDOWN PWR_SHUTDOWN_CAUSE = 2 ∧
          t.pwr.stopAt = s.now + 1000000 * s.fld PWR_POLICY PWR_POLICY_AIR_STOP_S)) ∧
      (∀ k, ¬ sudden → y.af.isSome = true → 700 ≤ fast → s.pwr.afOkAt = some k → k + 10000000 ≤ s.now →
        t.bit PWR_STATUS PWR_STATUS_AIR_STOP = false)) ∧
    (s.aon.core = true → c < 8 → let u := max 600 (s.fld (PWR_CLU c) PWR_CLU_VOLTAGE_MV)
      ∃ t, exec (.voltageLoopUpdate c margin slack) s = .next t ∧
        (let w := t.fld (PWR_CLU c) PWR_CLU_VOLTAGE_MV
         (margin < 20 → w = min 850 (u + 5)) ∧ (20 ≤ margin → margin < 25 → w = u) ∧
           (25 ≤ margin → w = u ∨ w = max 600 (u - 5))) ∧
        t.fld (PWR_CLU c) PWR_CLU_MARGIN_CLASS = marginClass margin ∧
        tabGetD t.pwr.headroom c nominalMhz = max 160 (min 384 (slack / 8 * 8)) ∧ s.moves t [.pwr] [oneReg (PWR_CLU c)]) ∧
    (s.aon.core = true → c < 8 → margin < 8 → s.isOn (.hub c) = true → ∃ t, exec (.droopDetect c margin clocks) s = .next t ∧
      t.fld (PWR_DROOP c) PWR_DROOP_EVENTS = min PWR_DROOP_EVENTS.top (s.fld (PWR_DROOP c) PWR_DROOP_EVENTS + 1) ∧
      t.fld (PWR_DROOP c) PWR_DROOP_STRETCHED = min PWR_DROOP_STRETCHED.top (s.fld (PWR_DROOP c) PWR_DROOP_STRETCHED + clocks) ∧
      c ∈ t.pwr.stretched ∧ s.moves t [.pwr] [oneReg (PWR_DROOP c)])

/-- Hints, the mode and energy: a HINT is answered at once where it is not granted, and is in force on its way otherwise;
its end withdraws it; POWER_MODE changes every unclaimed cluster and waits for the others; a millisecond's energy is added
up and a snapshot of it read. The model's choices in it (notes/assumptions/28.md): the results of withdrawn hints,
rounding of energies. -/
def Obligations.HintsModesEnergy : Prop :=
  ∀ (s : State) (r seq c : Nat) (parts ctxs : List Nat) (f : Fetched), s.acts →
    let d := f.desc
    let moved := fun t : State => s.moves t recordAreas [pwrRegs]
    let tells := fun (words : Nat) => ∃ t, exec (.hint r) s = .next t ∧ s.answered t r f stDone 0 words ∧ moved t
    (s.DescAt r clHint (dF d 8 1) f → s.idle →
      let set := hintFieldsOk d = true ∧ dF d 9 1 % 2 = 0
      let en := s.bit PWR_POLICY PWR_POLICY_HINT_EN = true
      (hintFieldsOk d = false → ∃ t, exec (.hint r) s = .next t ∧ s.answered t r f stBadDescriptor 0 0 ∧ moved t) ∧
      (hintFieldsOk d = true → en → dF d 9 1 % 2 = 1 → ∃ t, exec (.hint r) s = .next t ∧
        s.answered t r f stDone 0 (hintWords 0 5 notReady) ∧ (∀ h ∈ t.pwr.hints, h.ring ≠ r) ∧ moved t) ∧
      (hintFieldsOk d = true → ¬ en → tells (hintWords 0 4 notReady)) ∧
      (set → en → s.partOf (ringCtxD r) = none → tells (hintWords 0 2 notReady)) ∧
      (∀ p, set → en → s.partOf (ringCtxD r) = some p →
        ((s.part p).current ≠ some (ringCtxD r) → tells (hintWords 0 2 notReady)) ∧
        ((s.part p).current = some (ringCtxD r) → s.hintBound p = true → tells (hintWords 0 1 notReady)) ∧
        ((s.part p).current = some (ringCtxD r) → s.hintBound p = false →
          let level := s.levelFits p (dF d 8 1)
          (level = 0 → tells (hintWords 0 3 notReady)) ∧
          (level ≠ 0 → ∃ t w h, exec (.hint r) s = .next t ∧ s.admitted t w r f ∧ t.pwr.hints = s.pwr.hints ++ [h] ∧ h.ring = r ∧
            h.seq = f.seq ∧ h.part = p ∧ h.level = level ∧ h.reached = false ∧ h.endAt = s.now + dF d 10 2 + dF d 12 4 ∧ moved t)))) ∧
    (∀ h, s.pwr.hints.find? (fun x => x.ring == r && x.seq == seq) = some h → h.endAt ≤ s.now →
      ∃ t, exec (.hintExpiry r seq) s = .next t ∧ (∀ x ∈ t.pwr.hints, ¬ (x.ring = r ∧ x.seq = seq)) ∧
        (∀ w, h.reached = false → s.work? r seq = some w → s.hears r →
          s.recordSent t r w.tag seq (hintWords 0 0 notReady) stDone w.cls 0) ∧ moved t) ∧
    (c < 8 → c ∈ s.pwr.toChange → s.cluClaimed c = false → ∃ t, exec (.modeChangeCluster c) s = .next t ∧
      c ∉ t.pwr.toChange ∧ (s.pwr.toChange = [c] → t.bit PWR_MODE PWR_MODE_PENDING = false) ∧
      s.moves t recordAreas [pwrRegs, glbRegs]) ∧
    (s.DescAt mgmtRing clAdmin 0x20 f → s.alone mgmtRing f → dF d 9 1 < 2 → dZero d 10 54 = true →
      ∃ t, exec (.powerMode mgmtRing) s = .next t ∧ t.fld PWR_MODE PWR_MODE_MODE = dF d 9 1 ∧ t.aon.settings.mode = dF d 9 1 ∧
        ((∀ x, x < 8 → s.cluClaimed x = false) → t.bit PWR_MODE PWR_MODE_PENDING = false ∧
          s.answered t mgmtRing f stDone 0 (dF d 9 1)) ∧
        s.moves t ([.nv, .aon] ++ recordAreas) [pwrRegs, glbRegs, oneReg MGT_SETTINGS]) ∧
    (let total := energyUJ s.pwr.samples 1000
     let inParts := ((List.range 8).map (s.partShare parts)).sum
     s.live → inParts + ((List.range 32).map fun x => ctxs.getD x 0).sum ≤ total →
      ∃ t, exec (.energyAccumulate parts ctxs) s = .next t ∧ t.pwr = { s.pwr with energyAt := s.now } ∧
        t.reg PWR_TOTAL_ENERGY = s.reg PWR_TOTAL_ENERGY + BitVec.ofNat 64 total ∧
        t.reg PWR_SHARED_ENERGY = s.reg PWR_SHARED_ENERGY + BitVec.ofNat 64 (total - inParts) ∧
        (∀ p, p < 8 → t.reg (PWR_PART_ENERGY p) = s.reg (PWR_PART_ENERGY p) + BitVec.ofNat 64 (s.partShare parts p)) ∧
        (∀ x, x < 32 → t.reg (PWR_CTX_ENERGY x) = s.reg (PWR_CTX_ENERGY x) +
          BitVec.ofNat 64 (s.ctxShare parts x + ctxs.getD x 0)) ∧ s.moves t [.pwr] [pwrRegs]) ∧
    (s.DescAt mgmtRing clAdmin 0x21 f → s.idle → dZero d 9 39 = true → dF d 48 8 % 64 = 0 → dZero d 60 4 = true →
      ∃ t, exec (.energySnapshot mgmtRing) s = .next t ∧ s.moves t recordAreas [] ∧
        (dF d 56 4 < 344 → s.answered t mgmtRing f stLengthLimit 0 344) ∧
        (344 ≤ dF d 56 4 → s.answered t mgmtRing f stDone 0 344 ∧
          Out.hostWrite (s.servingFn mgmtRing) (dF d 48 8) s.energyBytes ∈ t.out))

/-! ## Olper links -/

/-- A port's way: its domain and lasers, lane training with HELLO, the peer's HELLO and PROOF up to UP, another key class or a
wrong proof to DOWN, and a retrain by command. -/
def Obligations.OlperTraining : Prop :=
  ∀ (s : State) (p : Nat) (lanes : BitVec 8) (h : Hello) (v : BitVec 256) (f : Fetched), s.acts → p < 3 → s.hif.works = [] →
    let x := s.port p
    let moved := fun t : State => s.moves t [.nv, .aon, .olp, .out] [olpRegs, oneReg GLB_PWR_DOMAIN_STATUS2]
    let failed := fun t : State => t.portState p = portDown ∧ (t.port p).stuck = true ∧
      t.bit OLP_ERR_STATUS OLP_ERR_STATUS_AUTH_FAIL = true ∧ (evLink, p) ∈ t.aon.events
    let retrains := min OLP_PORT_STATUS_RETRAINS.top (s.fld (OLP_PORT_STATUS p) OLP_PORT_STATUS_RETRAINS + 1)
    (s.isOn .hcx = true → s.portState p = portOff ∨ s.portState p = portLocking →
      (∃ t, exec (.portTraining p lanes false) s = .next t ∧ t.isOn (.port p) = true ∧ t.portState p = portLocking ∧ moved t) ∧
      (∃ t, exec (.portTraining p lanes true) s = .next t ∧ t.isOn (.port p) = true ∧ (t.port p).locked = true ∧
        (laneCount lanes < 4 → t.portState p = portTraining ∧ t.out = s.out) ∧
        (4 ≤ laneCount lanes → t.trained p lanes s.nv.draws ∧ t.nv.draws = s.nv.draws + 1 ∧ ∃ w, t.out = .olper p w :: s.out) ∧
        moved t)) ∧
    (s.isOn (.port p) = true → 4 ≤ laneCount lanes →
      (x.locked = true → x.stuck = false → s.portState p = portTraining ∨ (s.portState p = portAuth ∧ x.peer = none) →
        ∃ t w, exec (.trainingRetry p lanes) s = .next t ∧ t.trained p lanes s.nv.draws ∧ t.out = .olper p w :: s.out ∧ moved t) ∧
      (∀ i, (i = Instr.trainingRetry p lanes ∧ x.locked = true ∧ x.stuck = false) ∨ (i = .lightRegained p lanes ∧ x.stuck = true) →
        s.portState p = portDown → ∃ t w, exec i s = .next t ∧ t.trained p lanes s.nv.draws ∧ t.out = .olper p w :: s.out ∧
          t.fld (OLP_PORT_STATUS p) OLP_PORT_STATUS_RETRAINS = retrains ∧ moved t)) ∧
    (s.portState p = portAuth → x.peer = none → ∃ t, exec (.hello p h) s = .next t ∧ t.reg (OLP_PORT_PEER p) = h.serial ∧
      (h.keyClass ≠ Config.keyClass → failed t) ∧
      (h.keyClass = Config.keyClass → linkVersion h.versions = 0 → t.portState p = portDown) ∧
      (h.keyClass = Config.keyClass → linkVersion h.versions ≠ 0 → t.portState p = portAuth ∧ (t.port p).peer = some h ∧
        t.fld (OLP_PORT_STATUS p) OLP_PORT_STATUS_VERSION = linkVersion h.versions ∧ ∃ w, t.out = .olper p w :: s.out) ∧
      moved t) ∧
    (s.portState p = portAuth → x.peer = some h → x.wait1 = [] → ∃ t, exec (.proof p v) s = .next t ∧
      (v ≠ proofOf h.serial h.nonce (Config.draw x.nonce) → failed t) ∧
      (v = proofOf h.serial h.nonce (Config.draw x.nonce) → t.portState p = portUp ∧ (t.port p).txCtr = 0 ∧
        (t.port p).rxCtr = 0 ∧ (t.port p).cred0 = 16 ∧ (t.port p).cred1 = 64 ∧ (evLink, 16 + p) ∈ t.aon.events) ∧ moved t) ∧
    (s.DescAt mgmtRing clAdmin 0x47 f → dF f.desc 9 1 = p → dZero f.desc 10 54 = true → s.isOn (.port p) = true →
      x.locked = true → ∃ t, exec (.linkRetrain mgmtRing) s = .next t ∧ s.answered t mgmtRing f stDone 0 0 ∧
        t.portState p = portTraining ∧ t.fld (OLP_PORT_STATUS p) OLP_PORT_STATUS_RETRAINS = retrains ∧
        s.moves t (.pair :: .olp :: recordAreas) [olpRegs])

/-- Frames on a port that is UP: counted, acknowledged and credited; a wrong tag, a frame replayed 8 times and too few lanes
take the port DOWN; an unacknowledged frame is replayed; DATA lands in its receive window; a BARRIER of a later launch is
held; a DIGEST is compared, kept, or given up. -/
def Obligations.OlperFrames : Prop :=
  ∀ (s : State) (p n b : Nat) (h : OlpHdr), s.acts → s.hif.works = [] →
    let x := s.port p
    let st := OLP_PORT_STATUS p
    let link := fun t : State => s.moves t [.nv, .aon, .pair, .olp, .out] [olpRegs]
    let rest := x.unacked.filter fun f => !(ackCovers h.ack f.ctr)
    let replayed := fun t : State => (t.port p).unacked = x.unacked.map (fun (f : LinkFrame) => { f with tries := f.tries + 1 }) ∧
      t.fld (OLP_PORT_REPLAYS p) OLP_PORT_REPLAYS_FRAMES =
        min OLP_PORT_REPLAYS_FRAMES.top (s.fld (OLP_PORT_REPLAYS p) OLP_PORT_REPLAYS_FRAMES + x.unacked.length)
    let fresh := ∀ f ∈ x.unacked, f.tries < 8
    (s.takes p h → x.wait0 = [] → x.wait1 = [] → rest.length < x.unacked.length ∨ rest = [] →
      ∃ t, exec (.idle p h) s = .next t ∧ t.port p = { x with
        rxCtr := x.rxCtr + 1, unacked := rest, cred0 := min 16 (x.cred0 + h.cred0), cred1 := min 64 (x.cred1 + h.cred1)
        give0 := x.give0 + 1 } ∧ s.moves t [.olp] []) ∧
    (p < 3 → s.portState p = portUp → h.crcOk = true → h.tagOk = false → ∃ t, exec (.idle p h) s = .next t ∧
      t.portState p = portDown ∧ t.bit OLP_ERR_STATUS OLP_ERR_STATUS_TAG_FAIL = true ∧ link t) ∧
    (p < 3 → s.portState p = portUp → x.unacked ≠ [] → ∃ t, exec (.replayTimeout p) s = .next t ∧
      (fresh → replayed t ∧ t.out.length = s.out.length + x.unacked.length ∧ t.portState p = portUp) ∧
      (¬ fresh → t.portState p = portDown) ∧ link t) ∧
    (p < 3 → n < 8 → s.portState p = portUp → s.maskBit st OLP_PORT_STATUS_LANE_MASK n = true → fresh →
      ∃ t, exec (.laneDrop p n) s = .next t ∧ t.bit OLP_ERR_STATUS OLP_ERR_STATUS_LANE_LOST = true ∧
        (s.fld st OLP_PORT_STATUS_VERSION = 1 ∨ s.fld st OLP_PORT_STATUS_LANES ≤ 4 → t.portState p = portDown) ∧
        (s.fld st OLP_PORT_STATUS_VERSION ≠ 1 → 4 < s.fld st OLP_PORT_STATUS_LANES → t.portState p = portUp ∧
          t.fld st OLP_PORT_STATUS_LANES = s.fld st OLP_PORT_STATUS_LANES - 1 ∧
          t.maskBit st OLP_PORT_STATUS_LANE_MASK n = false ∧ replayed t) ∧ link t) ∧
    (∀ (off : Nat) (bytes : List Byte), s.takes p h → p = 1 ∨ p = 2 → n < 16 → bytes.length % 64 = 0 →
      bytes.length ≤ s.maxData p → bytes ≠ [] → off % 64 = 0 → ∃ t, exec (.data p h n off bytes) s = .next t ∧
        t.fld (OLP_PORT_RX_BYTES p) OLP_PORT_BYTES =
          min OLP_PORT_BYTES.top (s.fld (OLP_PORT_RX_BYTES p) OLP_PORT_BYTES + bytes.length) ∧
        (∀ w, tabGet? s.olp.windows (16 * p + n) = some w → w.isSend = false → off + bytes.length ≤ w.len →
          s.hitsProt w.ctx (w.base + off) bytes.length = false → t.mem.dram = memWrite s.mem.dram (w.base + off) bytes) ∧
        (tabGet? s.olp.windows (16 * p + n) = none → t.mem = s.mem ∧
          t.bit OLP_ERR_STATUS OLP_ERR_STATUS_WINDOW_OVERRUN = true) ∧ s.moves t writeAreas (secRegs :: writeRegs)) ∧
    (∀ (ring bar origin : Nat) (gen : W32), s.takes p h → p = 1 ∨ p = 2 → 2 ≤ s.fld OLP_CASCADE OLP_CASCADE_SIZE →
      origin ≠ s.fld OLP_CASCADE OLP_CASCADE_POSITION → origin < s.fld OLP_CASCADE OLP_CASCADE_SIZE →
      let o := 3 - p
      let ahead := s.genAhead gen.toNat
      ∃ t, exec (.barrier p h ring bar origin gen) s = .next t ∧
        (1 ≤ ahead → ahead ≤ 2 ^ 19 → (bar, origin, gen.toNat) ∈ (t.port p).held) ∧
        (ahead = 0 ∨ 2 ^ 19 < ahead → (t.port p).held = x.held) ∧
        (s.ringPeer o ≠ origin → s.portState o = portUp → s.fld (OLP_PORT_STATUS o) OLP_PORT_STATUS_VERSION ≠ 1 →
          (s.port o).wait0 = [] → (s.port o).wait1 = [] → 0 < (s.port o).cred0 → ∃ w, Out.olper o w ∈ t.out) ∧ s.moves t (.olp :: recordAreas) [olpRegs]) ∧
    (∀ (skip : Bool) (d : W64), let key := digKey n b
      let shown := fun t : State => s.moves t [.nv, .aon, .stn, .olp, .out] [olpRegs]
      let add := fun (bits : Bits) => min bits.top (s.fld OLP_HEALTH bits + 1)
      (s.takes 0 h → s.digesting = true → n < 4096 → b < 2 ^ 18 → tabGet? s.stn.settled n ≠ some b →
        ∃ t, exec (.digest 0 h n b skip d) s = .next t ∧ shown t ∧
          (tabGet? s.stn.closed key = none → tabGet? t.stn.theirs key = some (skip, d, s.now)) ∧
          (∀ mine, tabGet? s.stn.closed key = some mine → tabGet? t.stn.settled n = some b ∧
            (mine.1 = true ∨ skip = true → t.fld OLP_HEALTH OLP_HEALTH_SKIPPED = add OLP_HEALTH_SKIPPED) ∧
            (mine.1 = false → skip = false → t.fld OLP_HEALTH OLP_HEALTH_COMPARED = add OLP_HEALTH_COMPARED ∧
              (mine.2 ≠ d → t.fld OLP_HEALTH OLP_HEALTH_MISMATCHES = add OLP_HEALTH_MISMATCHES ∧
                t.bit OLP_ERR_STATUS OLP_ERR_STATUS_DIGEST_MISMATCH = true ∧ (evSentinel, n) ∈ t.aon.events)))) ∧
      (∀ y, tabGet? s.stn.theirs key = some y → y.2.2 + 1000000 ≤ s.now → tabGet? s.stn.closed key = none →
        ∃ t, exec (.digestBlockTimeout n b) s = .next t ∧ tabGet? t.stn.settled n = some b ∧
          t.fld OLP_HEALTH OLP_HEALTH_SKIPPED = add OLP_HEALTH_SKIPPED ∧ shown t))

/-! ## Cascades and pairs -/

/-- The operations on cascades, windows and pairs by the management ring, in a module without admitted work. The model's
choices in it (notes/assumptions/29.md): FAILED_OVER of the other classes in the role ISOLATED. -/
def Obligations.PairOperations : Prop :=
  ∀ (s : State) (f : Fetched) (p : Nat), s.acts → s.idle →
    let r := mgmtRing
    let d := f.desc
    let q := dF d 9 1
    let win := 16 * q + dF d 10 1
    let is := fun (op : Nat) => s.DescAt r clAdmin op f
    let version1 := fun (k : Nat) => s.portState k = portUp ∧ s.fld (OLP_PORT_STATUS k) OLP_PORT_STATUS_VERSION = 1
    let tells := fun (i : Instr) (st words : Nat) (areas : List Area) (regs : List (Nat × Nat)) (P : State → Prop) =>
      ∃ t, exec i s = .next t ∧ s.answered t r f st 0 words ∧ P t ∧ s.moves t (areas ++ recordAreas) regs
    let role := fun (i : Instr) (P : State → Prop) => tells i stDone 0 roleAreas roleRegs P
    (is 0x44 → cascadeFieldsOk d = true →
      (q ≠ 1 → version1 1 ∨ version1 2 → tells (.cascadeConfig r) stVersionMismatch 0 [] [olpRegs] fun t =>
        t.reg OLP_CASCADE = s.reg OLP_CASCADE) ∧
      (q = 1 ∨ (¬ version1 1 ∧ ¬ version1 2) → tells (.cascadeConfig r) stDone 0 [.nv, .aon, .olp] [olpRegs, oneReg MGT_SETTINGS] fun t =>
        t.fld OLP_CASCADE OLP_CASCADE_SIZE = (if q = 1 then 0 else q) ∧
        t.fld OLP_CASCADE OLP_CASCADE_POSITION = (if q = 1 then 0 else dF d 10 1) ∧ (t.aon.settings.cascade.isSome = decide (q ≠ 1)))) ∧
    (p = 1 ∨ p = 2 → s.bit OLP_CASCADE OLP_CASCADE_FORMED = true → ∃ t, exec (.cascadeDegraded p) s = .next t ∧
      t.bit OLP_CASCADE OLP_CASCADE_DEGRADED = true ∧ s.moves t [] [oneReg OLP_CASCADE]) ∧
    (is 0x45 → q = 1 ∨ q = 2 → dF d 10 1 < 16 → dF d 11 1 < 2 → dF d 12 1 < 32 → dZero d 13 3 = true → dZero d 32 32 = true →
      dF d 16 8 % 64 = 0 → dF d 24 8 % 64 = 0 → 0 < dF d 24 8 → inDram (dF d 16 8) (dF d 24 8) = true →
      s.inGrant (dF d 12 1) (dF d 16 8) (dF d 24 8) = true →
      (tabGet? s.olp.windows win = none → tells (.windowOpen r) stDone 0 [.olp] [olpRegs] fun t =>
        tabGet? t.olp.windows win = some { isSend := decide (dF d 11 1 = 0), ctx := dF d 12 1, base := dF d 16 8, len := dF d 24 8 }) ∧
      ((tabGet? s.olp.windows win).isSome = true → tells (.windowOpen r) stBadDescriptor 0 [] [] fun t => t.olp = s.olp)) ∧
    (is 0x46 → q = 1 ∨ q = 2 → dF d 10 1 < 16 → dZero d 11 53 = true →
      (tabGet? s.olp.windows win).isSome = true → s.windowBusy win = false →
      tells (.windowClose r) stDone 0 [.olp] [olpRegs] fun t => tabGet? t.olp.windows win = none) ∧
    (is 0x40 → pairFieldsOk d = true → s.role ≠ roleSwapping →
      (q = 0 → role (.pairConfig r) fun t => t.paired = false ∧ t.aon.settings.pair = none ∧
        t.role = if s.role = roleStandby ∨ s.role = roleActive then roleSolo else s.role) ∧
      (q ≠ 0 → version1 0 → tells (.pairConfig r) stVersionMismatch 0 [] [olpRegs] fun t => t.paired = s.paired) ∧
      (q ≠ 0 → ¬ version1 0 → role (.pairConfig r) fun t => t.paired = true ∧
        t.fld OLP_PAIR OLP_PAIR_PREFERENCE = dF d 10 1 ∧ t.pair.serial = BitVec.ofNat 64 (dF d 16 8) ∧
        t.aon.settings.pair.isSome = true ∧ t.role = if s.role = roleSolo then roleStandby else s.role)) ∧
    (is 0x41 → dZero d 9 55 = true → s.pair.swap = none → s.role = roleActive → s.partnerIn roleStandby = true →
      ∃ t w, exec (.roleSwap r) s = .next t ∧ s.admitted t w r f ∧ t.role = roleSwapping ∧
        t.pair.swap = some { cause := causeRoleSwap, work := some (r, f.seq), at_ := some s.now } ∧ s.moves t roleAreas roleRegs) ∧
    (is 0x42 → dZero d 9 55 = true → s.pair.leaving = none → s.stn.op = none → role (.isolate r) fun t =>
      t.role = roleIsolated ∧ t.txOn = false ∧ t.fld VRD_STATUS VRD_STATUS_LINES = 0 ∧ t.pair.swap = none) ∧
    (is 0x43 → dZero d 9 55 = true → (s.role ≠ roleIsolated → tells (.rejoin r) stBadDescriptor 0 [] [] fun t => t.pair = s.pair) ∧
      (s.role = roleIsolated → role (.rejoin r) fun t => t.role = if s.paired then roleStandby else roleSolo)) ∧
    (∀ (ring : Nat) (g : Fetched) (i : Instr) (cls op : Nat), s.role = roleIsolated → s.hears ring → s.headOf ring cls = some g →
      dF g.desc 8 1 = op → (i, cls, op) ∈ [(.dmaCopy ring, clDma, 1), (.dmaFill ring, clDma, 2), (.seqRelease ring, clSeq, 4),
        (.seqPreempt ring, clSeq, 5), (.sentDisable ring, clSent, 3), (.sentAck ring, clSent, 5), (.hint ring, clHint, op)] →
      ∃ t, exec i s = .next t ∧ s.answered t ring g stFailedOver 0 (s.idleWords ring g.desc) ∧ s.moves t recordAreas [])

/-- Heartbeats and the timers of a pair, in a module without admitted work: what a heartbeat shows of the partner, who
yields of two ACTIVE modules, when a STANDBY module takes over, and the steps of a planned handover. The model's choices
in it (notes/assumptions/29.md): the flag of a cascade, the second of R326. -/
def Obligations.PairTakeover : Prop :=
  ∀ (s : State) (h : OlpHdr) (b : Heart) (p at_ : Nat) (x : Swap), s.acts → s.hif.works = [] →
    let moved := fun t : State => s.moves t roleAreas roleRegs
    let few := fun t : State => s.moves t [.pair, .olp, .out] [olpRegs]
    let seen := max s.pair.seen (b.claim.toNat / 256)
    let takes := fun (i : Instr) (e : Nat) => ∃ t, exec i s = .next t ∧ t.tookActive e ∧ moved t
    (s.paired = true → s.pair.swap = none → s.portState 0 = portUp →
      s.role = roleActive ∨ s.role = roleStandby ∨ s.role = roleSwapping → ∃ t, exec .heartbeatSend s = .next t ∧
        t.pair.hbNo = (s.pair.hbNo + 1) % 65536 ∧
        (s.fld (OLP_PORT_STATUS 0) OLP_PORT_STATUS_VERSION ≠ 1 → (s.port 0).wait0 = [] → 0 < (s.port 0).cred0 →
          ∃ w, Out.olper 0 w ∈ t.out) ∧ few t) ∧
    (s.takes 0 h → s.paired = true → s.pair.leaving = none →
      (s.role = roleStandby → b.role = roleActive → b.flags.getLsbD 1 = false → ∃ t, exec (.heartbeat h b) s = .next t ∧
        t.role = roleStandby ∧ t.bit OLP_ROLE OLP_ROLE_PARTNER_UP = true ∧
        t.bit OLP_ROLE OLP_ROLE_PARTNER_HEALTH_OK = b.flags.getLsbD 0 ∧ t.reg OLP_PARTNER_CLAIM = b.claim.zeroExtend 64 ∧
        t.pair.partner = some b ∧ t.pair.lastHb = some s.now ∧ t.pair.seen = seen ∧ t.pair.refused = s.refuses b ∧ moved t) ∧
      (s.role = roleStandby → b.flags.getLsbD 1 = true → s.refuses b = false → seen < epochTop → takes (.heartbeat h b) (seen + 1)) ∧
      (s.role = roleActive → b.role = roleActive → b.flags.getLsbD 1 = false → s.pair.swap = none →
        ∃ t, exec (.heartbeat h b) s = .next t ∧ t.bit OLP_ERR_STATUS OLP_ERR_STATUS_SPLIT_SEEN = true ∧
          t.role = (if s.claim < b.claim.toNat then roleStandby else roleActive) ∧ moved t)) ∧
    (s.pair.lastHb = some at_ → s.paired = true → max at_ s.pair.changedAt + 65 ≤ s.now →
      (s.mayTake → takes .partnerLost (s.pair.seen + 1)) ∧
      (s.role ≠ roleStandby → ∃ t, exec .partnerLost s = .next t ∧ t.role = s.role ∧
        t.bit OLP_ROLE OLP_ROLE_PARTNER_UP = false ∧ s.moves t [] [oneReg OLP_ROLE])) ∧
    (s.mayTake → s.paired = true → s.pair.heard = false → s.portState 0 ≠ portUp → max s.pair.pairedAt s.pair.alone + 1000000 ≤ s.now →
      takes .standbyWaitTimeout (s.pair.seen + 1)) ∧
    (s.mayTake → p = 1 ∨ p = 2 → s.takes p h → 2 ≤ s.fld OLP_CASCADE OLP_CASCADE_SIZE → s.healthOk = true →
      takes (.cascadeTakeoverFlag p h) (s.pair.seen + 1)) ∧
    (s.pair.swap = some x → x.at_ = some at_ → s.role = roleSwapping → at_ + 100 ≤ s.now → ∃ t, exec .swapTimeout s = .next t ∧
      t.role = roleActive ∧ t.pair.swap = none ∧ t.bit OLP_ERR_STATUS OLP_ERR_STATUS_SWAP_REFUSED = true ∧ moved t) ∧
    (s.role = roleStandby → s.bit OLP_PAIR OLP_PAIR_REVERT_EN = true → s.pair.partner = some b →
      b.claim.toNat % 256 < s.fld OLP_PAIR OLP_PAIR_PREFERENCE → s.partnerIn roleActive = true → s.healthOk = true →
      s.pair.bothSince = some at_ → at_ + 10000000 ≤ s.now → ∃ t, exec .revertTimer s = .next t ∧ t.pair.ask = true ∧ few t) ∧
    (s.paired = true → s.role = roleActive → s.bit OLP_ROLE OLP_ROLE_SWAP_DUE = false → s.pair.swap = none →
      s.pair.changedAt + s.swapPeriod ≤ s.now → s.pair.deferUntil ≤ s.now → ∃ t, exec .swapDue s = .next t ∧
        t.role = roleSwapping ∧ t.pair.swap = some { cause := causePeriodic, work := none, at_ := some s.now } ∧ moved t) ∧
    (s.bit OLP_ROLE OLP_ROLE_SWAP_DUE = true → s.role = roleActive → s.pair.dueAt + 100000 ≤ s.now →
      ∃ t, exec .swapDeferred s = .next t ∧ t.bit OLP_ROLE OLP_ROLE_SWAP_DUE = false ∧
        t.bit OLP_ERR_STATUS OLP_ERR_STATUS_SWAP_DEFERRED = true ∧ t.pair.swap = none ∧
        t.pair.deferUntil = s.now + 3600000000 ∧ s.moves t [.pair] [olpRegs])

/-! ## The Verdict Port and the merge -/

/-- Frames: a CLAIM frame that is due goes first, then RESYNC frames, then the records in their order, and a CLAIM frame after
10 µs without one; a module that does not transmit drops its records and counts them. The merge takes what passes its checks
and its held claim, follows that input's lines, ages out with the lines held, and forgets its claim at a reset. -/
def Obligations.VerdictFrames : Prop :=
  ∀ (s : State) (input line : Nat) (high : Bool) (f : List Byte),
    let lines := s.fld VRD_STATUS VRD_STATUS_LINES
    let claim := s.fld VRD_CLAIM VRD_CLAIM_CLAIM
    let moved := fun t : State => s.moves t [.stn, .vrd, .out] [vrdRegs, oneReg STN_RECORDS, oneReg OLP_SWITCH_LAST]
    let sent := fun (t : State) (ft : Nat) (body : List Byte) =>
      t.out = .verdict (verdictFrame ft lines claim body s.vrd.frameNo) :: s.out ∧ t.vrd.frameNo = (s.vrd.frameNo + 1) % 256 ∧
        t.vrd.lastAt = some s.now
    let quiet := s.vrd.claimDue = false ∧ s.resyncDue = []
    (s.acts → s.txOn = false → ∃ t, exec .verdictFrameSend s = .next t ∧ t.stn.records = [] ∧ t.out = s.out ∧
      t.reg VRD_HELD = s.reg VRD_HELD + BitVec.ofNat 64 s.stn.records.length ∧ moved t) ∧
    (s.acts → s.txOn = true → s.vrd.lastAt ≠ some s.now → ∃ t, exec .verdictFrameSend s = .next t ∧ moved t ∧
      (s.vrd.claimDue = true → sent t ftClaim (leBytes 15 0) ∧ t.vrd.claimDue = false) ∧
      (∀ n ns, s.vrd.claimDue = false → s.resyncDue = n :: ns →
        sent t ftResync (verdictBody n (s.chan n).verdict (s.chan n).lastSeq (s.chan n).verdict noScore (s.chan n).est 0)) ∧
      (∀ r rs, quiet → s.stn.records = r :: rs → t.stn.records = rs ∧
        sent t ftVerdict (verdictBody r.chan r.verdict r.seq r.prev r.score r.est r.flags)) ∧
      (quiet → s.stn.records = [] → t.out = s.out)) ∧
    (s.acts → s.txOn = true → quiet → s.stn.records = [] → (∀ a, s.vrd.lastAt = some a → a + 10 ≤ s.now) →
      ∃ t, exec .claimFrameIdle s = .next t ∧ sent t ftClaim (leBytes 15 0) ∧ moved t) ∧
    (input < 2 → ∃ t, exec (.mergeFrame input f) s = .next t ∧ s.moves t [.merge, .out] [] ∧
      (frameOk f = false → t.merge = { s.merge with bad := s.merge.bad + 1 } ∧ t.out = s.out) ∧
      (frameOk f = true → s.merge.accepts input f = false →
        t.merge = { s.merge with staleClaims := s.merge.staleClaims + 1 } ∧ t.out = s.out) ∧
      (frameOk f = true → s.merge.accepts input f = true → t.merge.held = frameClaim f ∧ t.merge.followed = some input ∧
        t.merge.stale = false ∧ t.merge.lastAt = s.now ∧
        (s.merge.held < frameClaim f → fByte f 0 ≠ ftClaim → t.out = .merged f :: s.out) ∧
        (fByte f 0 = ftClaim → t.out = s.out))) ∧
    (input < 2 → line < 8 → ∃ t, exec (.mergeLinePin input line high) s = .next t ∧ s.moves t [.merge] [] ∧
      (t.merge.pins input).getLsbD line = high ∧ t.merge.held = s.merge.held ∧
      (high = true → s.merge.followed = some input → t.merge.lines.getLsbD line = true) ∧
      (high = false → t.merge.lines = s.merge.lines)) ∧
    (s.merge.lastAt + 50000 ≤ s.now → ∃ t, exec .mergeAgeOut s = .next t ∧ s.moves t [.merge] [] ∧
      t.merge = { s.merge with held := 0, kept := [], stale := true }) ∧
    (∃ t, exec .mergeEpochReset s = .next t ∧ s.moves t [.merge] [] ∧ t.merge = { s.merge with held := 0, kept := [] })

/-! ## The management port, armed changes and the Relay chain -/

/-- The management port: requests to code below the one that serves them are answered UNSUPPORTED; the target takes its
address, sends its events, and answers sensors, the state, the log, the cap and the lock. -/
def Obligations.ManagementPort : Prop :=
  ∀ (s : State) (a n first count watts lock : Nat) (bad : Bool) (id : W32) (q : ArmReq), s.live →
    let tells := fun (i : Instr) (code : Nat) (bytes : List Byte) =>
      ∃ t, exec i s = .next t ∧ t.out = .answer code bytes :: s.out ∧ s.moves t [.out] []
    let firm := [Instr.setCap watts bad, .setLock lock, .mctpArm q bad, .mctpDisarm id bad]
    (s.aon.level = .bootRom → ∀ i ∈ Instr.pldmSensorRead n :: .getEvents first count :: firm, tells i ccUnsupported []) ∧
    (s.aon.level = .loader → (∀ i ∈ firm, tells i ccUnsupported []) ∧
      (loaderSensor n = false → tells (.pldmSensorRead n) ccUnsupported [])) ∧
    (s.aon.level ≠ .off →
      (s.aon.i3cAddr = none → a < 128 → ∃ t, exec (.entdaa a) s = .next t ∧ t.aon.i3cAddr = some a ∧
        t.out = .answer ccOk (leBytes 4 Config.serial.toNat) :: s.out ∧ s.moves t [.aon, .out] []) ∧
      tells .getState ccOk (leBytes 4 s.mgtState.toNat ++ leBytes 8 (s.reg MGT_UPDATE).toNat ++ leBytes 8 (s.reg MGT_ARM).toNat ++
        leBytes 8 (s.reg MGT_ARM_DIGEST).toNat ++ leBytes 8 (s.reg MGT_IMAGE).toNat)) ∧
    (∀ c x y es, s.aon.events = (c, x) :: es → s.aon.i3cAddr = some y → ∃ t, exec .platformEventMessage s = .next t ∧
      t.aon.events = es ∧ t.out = .event c x :: s.out ∧ s.moves t [.aon, .out] []) ∧
    (s.aon.level = .pedestal ∨ s.aon.level = .loader →
      (16 < count → tells (.getEvents first count) ccMalformed []) ∧
      (count ≤ 16 → tells (.getEvents first count) ccOk (((s.nv.log.drop first).take count).flatMap logBytes)) ∧
      (loaderSensor n = true → ∀ b, s.sensorBytes n = some b → tells (.pldmSensorRead n) ccOk b)) ∧
    (s.aon.level = .pedestal →
      (∀ b, s.sensorBytes n = some b → tells (.pldmSensorRead n) ccOk b) ∧
      (s.sensorBytes n = none → tells (.pldmSensorRead n) ccInvalidSensor []) ∧
      (watts < 65536 → bad = false → let cap := if watts = 0 ∨ 350 < watts then 0 else max 150 watts
        ∃ t, exec (.setCap watts bad) s = .next t ∧ t.fld PWR_LIMITS PWR_LIMITS_EXT_CAP = cap ∧ t.aon.settings.extCapW = cap ∧
          Out.answer ccOk (leBytes 2 cap) ∈ t.out ∧ s.moves t (.nv :: .aon :: recordAreas) [pwrRegs, oneReg MGT_SETTINGS]) ∧
      (bad = true → tells (.setCap watts bad) ccMalformed []) ∧
      (2 ≤ lock → tells (.setLock lock) ccMalformed []) ∧
      (lock < 2 → ∃ t, exec (.setLock lock) s = .next t ∧ t.fld MGT_STATE MGT_STATE_OWNER_LOCK = lock ∧
        t.aon.settings.ownerLock = lock ∧ t.out = .answer ccOk (leBytes 1 lock) :: s.out ∧
        s.moves t [.nv, .aon, .out] [oneReg MGT_STATE, oneReg MGT_SETTINGS]))

/-- Armed changes over I3C and at the strobe: an ARM is accepted, refused or turned away by its CHANGE_ID, a DISARM ends it,
its time runs out, and a taken edge commits it or refuses it; and what MOVING and RESERVE_OK show. -/
def Obligations.ArmedChanges : Prop :=
  ∀ (s : State) (q : ArmReq) (id : W32) (w : AonFacts) (f : StartFacts) (mg : Nat) (roll pitch : Int) (high : Bool),
    let why := s.armRefusal q
    let arms := [oneReg MGT_ARM, oneReg MGT_ARM_DIGEST, oneReg MGT_UPDATE, oneReg MGT_SETTINGS]
    let said := fun (t : State) (bytes : List Byte) => t.out = .answer ccOk bytes :: s.out
    let shown := fun (t : State) (n st : Nat) => t.fld MGT_ARM MGT_ARM_CHANGE_ID = n % 2 ^ 32 ∧ t.armState = st
    let staged := fun (t : State) (a : ArmHeld) => t.aon.arm = none ∧ (a.kind = 3 → t.update = usStaged)
    (∃ t, exec (.reserveOk high) s = .next t ∧ t.aon.reserveOk = high ∧ s.moves t [.aon, .nv] [oneReg MGT_STATE] ∧
      (s.aon.cast.frozen = false → t.bit MGT_STATE MGT_STATE_RESERVE_OK = (high && s.aon.rails))) ∧
    (s.live →
      let shock := 5000 < mg ∨ 15000 < roll.natAbs ∨ 15000 < pitch.natAbs
      (shock → ∃ t, exec (.accelerometerShock mg roll pitch) s = .next t ∧ t.bit MGT_STATE MGT_STATE_MOVING = true ∧
        t.aon.movingUntil = some (s.now + 600000000) ∧ s.moves t [.aon] [oneReg MGT_STATE]) ∧
      (¬ shock → ∃ t, exec (.accelerometerShock mg roll pitch) s = .next t ∧ s.moves t [] []) ∧
      (∀ u, s.aon.movingUntil = some u → u ≤ s.now → ∃ t, exec .movingExpiry s = .next t ∧
        t.bit MGT_STATE MGT_STATE_MOVING = false ∧ t.aon.movingUntil = none ∧ s.moves t [.aon] [oneReg MGT_STATE]) ∧
      (∀ a, s.aon.arm = some a → a.acceptedAt + 1000000 * s.aon.settings.armTtl ≤ s.now → ∃ t, exec .armExpiry s = .next t ∧
        shown t a.changeId asExpired ∧ t.aon.settings.lastChangeId = a.changeId ∧ staged t a ∧ s.moves t [.nv, .aon] arms)) ∧
    (s.live → s.aon.level = .pedestal →
      (armFieldsOk q = false → ∃ t, exec (.mctpArm q false) s = .next t ∧ t.out = .answer ccMalformed [] :: s.out ∧
        s.moves t [.out] []) ∧
      (armFieldsOk q = true → ∃ t, exec (.mctpArm q false) s = .next t ∧ s.moves t [.nv, .aon, .out] arms ∧
        (why = rsNone → said t (leBytes 1 asArmed ++ leBytes 1 0) ∧ shown t q.changeId.toNat asArmed ∧ t.nv = s.nv ∧
          (q.kind = 3 → t.update = usArmed) ∧ ∃ a, t.aon.arm = some a ∧ a.changeId = q.changeId.toNat ∧ a.kind = q.kind ∧
            a.mode = q.mode ∧ a.imageId = q.imageId.toNat ∧ a.records = q.records ∧ a.acceptedAt = s.now) ∧
        (why ≠ rsNone → said t (leBytes 1 asRefused ++ leBytes 1 why) ∧ t.aon.arm = s.aon.arm) ∧
        (why = rsIdUsed ∨ why = rsArmBusy → t.aon = s.aon ∧ t.reg MGT_ARM = s.reg MGT_ARM) ∧
        (why ∉ [rsNone, rsIdUsed, rsArmBusy] → shown t q.changeId.toNat asRefused ∧ t.fld MGT_ARM MGT_ARM_REASON = why ∧
          t.aon.settings.lastChangeId = q.changeId.toNat)) ∧
      (∃ t, exec (.mctpDisarm id false) s = .next t ∧ s.moves t [.aon, .out] arms ∧
        (∀ a, s.aon.arm = some a → a.changeId = id.toNat → t.armState = asDisarmed ∧ staged t a ∧ said t (leBytes 1 asDisarmed)) ∧
        ((∀ a, s.aon.arm = some a → a.changeId ≠ id.toNat) → t.aon = s.aon ∧ said t (leBytes 1 s.armState)))) ∧
    (s.live → s.aon.level = .pedestal →
      (s.recent s.aon.strobeAt 100000 = true → ∃ t, exec (.actStrobe w f) s = .next t ∧ s.moves t [] []) ∧
      (s.recent s.aon.strobeAt 100000 = false →
        let edge := fun t : State => t.aon.strobeAt = some s.now ∧ t.fld MGT_STROBES MGT_STROBES_EDGES =
          min MGT_STROBES_EDGES.top (s.fld MGT_STROBES MGT_STROBES_EDGES + 1)
        let commits := fun P : State → Prop => ∃ t, exec (.actStrobe w f) s = .next t ∧ P t
        (s.aon.arm = none ∨ (∃ a, s.aon.arm = some a ∧ s.now < a.acceptedAt + 1000) →
          commits fun t => edge t ∧ t.aon.arm = s.aon.arm ∧ s.moves t [.aon] [oneReg MGT_STROBES]) ∧
        ∀ a, s.aon.arm = some a → a.acceptedAt + 1000 ≤ s.now →
          (a.kind = 1 → a.mode < 2 → commits fun t => edge t ∧ t.fld PWR_MODE PWR_MODE_MODE = a.mode ∧ t.aon.settings.mode = a.mode ∧
            shown t a.changeId asCommitted ∧ t.aon.settings.lastChangeId = a.changeId ∧ t.aon.arm = none ∧
            s.moves t (.nv :: .aon :: recordAreas) [pwrRegs, glbRegs, mgtRegs]) ∧
          (∀ b, a.kind = 2 → parseRecs 256 a.records = some [(6, b)] → commits fun t => edge t ∧
            t.aon.settings.armTtl = leNat b ∧ shown t a.changeId asCommitted ∧ t.aon.settings.lastChangeId = a.changeId ∧
            t.aon.arm = none ∧ s.moves t [.nv, .aon] (oneReg MGT_STROBES :: arms)) ∧
          (a.kind = 3 → s.refuseReason ≠ rsNone → commits fun t => edge t ∧ shown t a.changeId asRefused ∧ staged t a ∧
            t.fld MGT_ARM MGT_ARM_REASON = s.refuseReason ∧ t.aon.settings.lastChangeId = a.changeId ∧
            s.moves t [.nv, .aon] (oneReg MGT_STROBES :: arms)) ∧
          (a.kind = 3 → s.refuseReason = rsNone → s.strobeYields = false → s.servesPair = false →
            (w.loaderOk = false → commits fun t => t.phase = phFailed ∧ t.fld MGT_STATE MGT_STATE_START_FAIL = sfLoaderBad ∧
              t.aon.core = false) ∧
            (w.loaderOk = true → s.imageOk (s.imageFacts w.image) = true → (s.imageFacts w.image).imageId.toNat = a.imageId → s.aon.permit = false →
              commits fun t => t.phase = phWaitPermit ∧ t.aon.level = .pedestal ∧ t.aon.core = false ∧
                shown t a.changeId asCommitted ∧ t.aon.settings.lastChangeId = a.changeId ∧ t.aon.arm = none ∧
                t.nv.boots = min 65535 (s.nv.boots + 1)))))

/-- The management operations of the management ring on changes, the lock, the fuses and the log. -/
def Obligations.ManagementRing : Prop :=
  ∀ (s : State) (op : Nat) (rd : HostRd) (f : Fetched), s.DescAt mgmtRing clAdmin op f → s.idle →
    let r := mgmtRing
    let d := f.desc
    let lock := dF d 9 1
    let tells := fun (i : Instr) (st words : Nat) (areas : List Area) (regs : List (Nat × Nat)) (P : State → Prop) =>
      ∃ t, exec i s = .next t ∧ s.answered t r f st 0 words ∧ P t ∧ s.moves t (areas ++ recordAreas) (pwrRegs :: regs)
    let turned := fun i : Instr => tells i stBadDescriptor 0 [] [] fun _ => True
    let arms := [oneReg MGT_ARM, oneReg MGT_ARM_DIGEST, oneReg MGT_UPDATE, oneReg MGT_SETTINGS]
    let armed := fun (q : ArmReq) (i : Instr) =>
      (s.armRefusal q = rsNone → tells i stDone asArmed [.aon] arms fun t => t.armState = asArmed ∧
        t.fld MGT_ARM MGT_ARM_CHANGE_ID = q.changeId.toNat ∧ ∃ a, t.aon.arm = some a ∧ a.changeId = q.changeId.toNat ∧
          a.kind = q.kind ∧ a.mode = q.mode ∧ a.imageId = q.imageId.toNat ∧ a.records = q.records) ∧
      (s.armRefusal q ≠ rsNone → tells i stAccessDenied (asRefused + 256 * s.armRefusal q) [.nv, .aon] arms fun t =>
        t.aon.arm = s.aon.arm)
    (op = 0x31 → (armDescOk d = false → turned (.arm r rd)) ∧
      (armDescOk d = true →
        (lock ≠ 2 → armed (armReqOf d []) (.arm r rd)) ∧
        (∀ b, lock = 2 → rd = .data b → dF d 56 4 ≤ b.length → let q := armReqOf d (b.take (dF d 56 4))
          (armFieldsOk q = true → armed q (.arm r rd)) ∧ (armFieldsOk q = false → turned (.arm r rd))) ∧
        (∀ e, lock = 2 → rd = .error e → tells (.arm r rd) (hostErrStatus e) s.armState [] [hifRegs] fun t => t.aon = s.aon))) ∧
    (op = 0x32 → dZero d 9 3 = true → dZero d 16 48 = true →
      (∀ a, s.aon.arm = some a → a.changeId = dF d 12 4 → tells (.disarm r) stDone asDisarmed [.aon] arms fun t =>
        t.aon.arm = none ∧ t.armState = asDisarmed ∧ (a.kind = 3 → t.update = usStaged)) ∧
      ((∀ a, s.aon.arm = some a → a.changeId ≠ dF d 12 4) → tells (.disarm r) stDone s.armState [] [] fun t => t.aon = s.aon)) ∧
    (op = 0x33 → (2 ≤ lock → turned (.ownerLock r)) ∧
      (lock < 2 → dZero d 10 54 = true → tells (.ownerLock r) stDone lock [.nv, .aon] [oneReg MGT_STATE, oneReg MGT_SETTINGS] fun t =>
        t.fld MGT_STATE MGT_STATE_OWNER_LOCK = lock ∧ t.aon.settings.ownerLock = lock)) ∧
    (op = 0x34 → (s.fld MGT_IMAGE MGT_IMAGE_SVN < dF d 12 4 → turned (.svnCommit r)) ∧
      (dZero d 9 3 = true → dZero d 16 48 = true → dF d 12 4 ≤ s.fld MGT_IMAGE MGT_IMAGE_SVN →
        tells (.svnCommit r) stDone (max s.minSvn (dF d 12 4)) [.nv] [] fun t => t.minSvn = max s.minSvn (dF d 12 4))) ∧
    (op = 0x35 → dZero d 9 3 = true → dZero d 16 32 = true → dZero d 60 4 = true →
      let es := (s.nv.log.drop (dF d 12 4)).take (dF d 56 4 / 16)
      tells (.eventRead r) stDone es.length [] [] fun t =>
        es ≠ [] → Out.hostWrite (s.servingFn r) (dF d 48 8) (es.flatMap logBytes) ∈ t.out)

/-- The Relay chain: frames that fail their checks are counted, those for others go on with one hop less; links, the manager,
STATUS, commands and their responses. -/
def Obligations.RelayFrames : Prop :=
  ∀ (s : State) (h : RelayHdr) (x : RelayStatus) (code res o k slot : Nat) (ok ab : Bool) (ports : List W32) (peers : List W64)
    (b : List Byte) (id : W32) (a : AonFacts) (f : StartFacts) (ser : W64), s.live → s.aon.level ≠ .off →
    let good := h.crcOk = true ∧ h.tagOk = true
    let mine := h.dst = s.slot ∨ h.dst = 0xFF
    let frames := [(Instr.status h x, rtStatus, statusBytes x), (.command h code ok, rtCommand, leBytes 1 code),
      (.response h res ports peers, rtResponse, responseBytes res ports peers), (.imgOffer h id o b, rtImgOffer, imgBytes id.toNat o b),
      (.imgData h id o b a f, rtImgData, imgBytes id.toNat o b), (.imgEnd h id ab, rtImgEnd, endBytes id.toNat ab)]
    let ack := (Instr.imgAck h id k, rtImgAck, leBytes 4 id.toNat ++ leBytes 4 k)
    let lnk := (Instr.link h slot ser, rtLink, linkBytes slot ser)
    let on := fun (i : Instr) (ty : Nat) (p : List Byte) => ∃ t, exec i s = .next t ∧ s.moves t [.out] [] ∧
      (1 < h.hops → t.out = .relay (!h.down) ty h.src h.dst (h.hops - 1) p :: s.out) ∧ (h.hops ≤ 1 → t.out = s.out)
    let twice := fun (t : State) (ty : Nat) (p : List Byte) =>
      t.out = .relay false ty s.slot 0xFF 47 p :: .relay true ty s.slot 0xFF 47 p :: s.out
    (¬ good → ∀ i ∈ ack :: lnk :: frames, ∃ t, exec i.1 s = .next t ∧ s.moves t [.aon] [] ∧
      t.aon = { s.aon with relayDropped := s.aon.relayDropped + 1 }) ∧
    (good → ¬ mine → (∀ i ∈ frames, on i.1 i.2.1 i.2.2) ∧ (s.flow id.toNat = none → on ack.1 ack.2.1 ack.2.2)) ∧
    (good → s.aon.level = .pedestal → ∃ t, exec lnk.1 s = .next t ∧ s.moves t [.aon] [oneReg MGT_STATE] ∧
      (h.down = true → t.aon.lastLinkUp = some s.now ∧ t.bit MGT_STATE MGT_STATE_RELAY_UP = true ∧
        t.bit MGT_STATE MGT_STATE_MANAGER = false) ∧
      (h.down = false → t.aon.lastLinkDown = some s.now ∧ t.reg MGT_STATE = s.reg MGT_STATE)) ∧
    (good → s.aon.level ≠ .pedestal → 1 < h.hops → ∃ t, exec lnk.1 s = .next t ∧
      t.out = .relay (!h.down) rtLink h.src h.dst (h.hops - 1) lnk.2.2 :: s.out ∧ s.moves t [.aon, .out] [oneReg MGT_STATE]) ∧
    (s.aon.level = .pedestal → s.aon.slotInvalid = false → ∃ t, exec .linkSend s = .next t ∧ s.moves t [.aon, .out] [] ∧
      twice t rtLink (linkBytes s.slot Config.serial) ∧ t.aon.relaySent = s.aon.relaySent + 2) ∧
    (s.aon.slotInvalid = false → s.aon.level = .pedestal ∨ s.aon.level = .loader → ∃ t, exec .statusBroadcast s = .next t ∧
      s.moves t [.nv, .aon, .out] [] ∧ twice t rtStatus (statusBytes s.ownStatus)) ∧
    (s.aon.level = .pedestal → 50000 ≤ s.now → s.recent s.aon.lastLinkUp 50000 = false → ∃ t, exec .managerTimeout s = .next t ∧
      t.bit MGT_STATE MGT_STATE_RELAY_UP = false ∧ t.bit MGT_STATE MGT_STATE_MANAGER = true ∧ s.moves t [] [oneReg MGT_STATE]) ∧
    (good → mine → s.aon.level = .pedestal →
      (∃ t m, exec (.status h x) s = .next t ∧
        tabGet? t.aon.modules h.src = some m ∧ m.serial = x.serial ∧ m.phase = x.phase ∧ m.update = x.update ∧ m.arm = x.arm ∧
        m.changeId = x.changeId.toNat ∧ m.role = x.role ∧ m.partner = x.partner ∧ m.seenAt = s.now ∧ s.moves t [.nv, .aon, .out] []) ∧
      (code = 1 ∨ code = 2 → s.aon.slotInvalid = false → ∃ t, exec (.command h code ok) s = .next t ∧ s.moves t [.aon, .out] [] ∧
        Out.relay h.down rtResponse s.slot h.src 47
          (responseBytes (if code = 1 ∧ ok = false then 1 else 0) s.portWords s.peerWords) ∈ t.out) ∧
      (∀ m, tabGet? s.aon.modules h.src = some m → s.isManager = true → ∃ t, exec (.response h res ports peers) s = .next t ∧
        tabGet? t.aon.modules h.src = some { m with result := res, ports := ports, peers := peers } ∧
        (cablingBad (s.wantedPeers m) ports peers = true → (evCabling, h.src) ∈ t.aon.events) ∧ s.moves t [.nv, .aon, .out] []))

/-- Images on the chain: an offer is gathered from its four parts and judged, chunks are written, passed on, acknowledged
and sent again, an abandoned image ends, a module in RECOVERY is served, and IMAGE_INJECT starts a transfer from host
memory. The model's choices in it (notes/assumptions/30.md): the nearest module in IDLE, refusals of IMAGE_INJECT. -/
def Obligations.ImageTransfer : Prop :=
  ∀ (s : State) (h : RelayHdr) (id : W32) (o k slot : Nat) (b : List Byte) (a : AonFacts) (sf : StartFacts) (g : ImageFlow)
    (rd : HostRd) (d : Fetched) (w : Work), s.live →
    let i := id.toNat
    let good := h.crcOk = true ∧ h.tagOk = true ∧ (h.dst = s.slot ∨ h.dst = 0xFF) ∧ s.aon.level ≠ .off
    let parts := tabSet (match s.aon.offer with | some p => p.parts | none => []) o b
    let head := { offerHead (headerOf parts) with imageId := id }
    let flow := s.flow i = some g ∧ g.head.imageId = id
    let moved := fun t : State => s.moves t [.nv, .aon, .out] [oneReg MGT_UPDATE]
    let starts := fun (t : State) (x : ImageHead) => t.fld MGT_UPDATE MGT_UPDATE_IMAGE_ID = x.imageId.toNat ∧
      t.fld MGT_UPDATE MGT_UPDATE_CHUNKS = 0 ∧ t.nv.image.length = some x.length ∧
      t.update = (if s.update = usRecovery then usRecovery else usWriting)
    let refusal := fun t : State => t.update = s.update ∧ t.nv.image = s.nv.image ∧ (evUpdateRefused, s.refuseMask) ∈ t.aon.events ∧
      t.fld MGT_UPDATE MGT_UPDATE_REFUSE = s.refuseMask
    (good → s.aon.level ≠ .bootRom → o ∈ [0, 1024, 2048, 3072] → b.length = 1024 → h.down = true ∨ h.dst = s.slot →
      (∀ p, s.aon.offer = some p → p.imageId = i) → ∃ t, exec (.imgOffer h id o b) s = .next t ∧ moved t ∧
        (parts.length ≠ 4 → (∃ p, t.aon.offer = some p ∧ p.imageId = i ∧ p.parts = parts) ∧ t.nv = s.nv) ∧
        (parts.length = 4 → t.aon.offer = none ∧ (s.flow i = none →
          (s.acceptsOffer head (h.dst == s.slot) = true → starts t head ∧
            ∃ x, t.flow i = some x ∧ x.accepted = true ∧ x.head = head ∧ x.offer = parts) ∧
          (s.acceptsOffer head (h.dst == s.slot) = false → refusal t)))) ∧
    (let c := o / chunkSize
     let buf := tabSet g.buffer o b
     let whole := (chunkOffsets g.head.length c).all fun x => (tabGet? buf x).isSome
     good → flow → g.injected = false → g.own = false → o % frameSize = 0 → o < g.head.length →
      b.length = min frameSize (g.head.length - o) → ∃ t, exec (.imgData h id o b a sf) s = .next t ∧
        (c ∈ g.got → t.aon.flows = s.aon.flows ∧ s.moves t [.aon, .out] []) ∧
        (c ∉ g.got → whole = false → t.flow i = some { g with buffer := buf } ∧ s.moves t [.aon] []) ∧
        (c ∉ g.got → whole = true → g.accepted = true → s.update = usWriting → moved t ∧ tabGet? t.nv.image.data o = some b ∧
          t.fld MGT_UPDATE MGT_UPDATE_CHUNKS = min MGT_UPDATE_CHUNKS.top (s.fld MGT_UPDATE MGT_UPDATE_CHUNKS + 1) ∧
          (g.got.length + 1 = chunkCount g.head.length → t.nv.image.complete = true ∧
            t.update = if t.imageDigest = g.head.digest then usStaged else usIncomplete) ∧
          (g.got.length + 1 ≠ chunkCount g.head.length → t.update = if s.refuseMask = 0 then usWriting else usIncomplete))) ∧
    (let left := g.unacked.filter fun u => u.1 != k
     good → flow → h.down = g.up → (∃ u ∈ g.unacked, u.1 = k) → g.waiting = [] → ∃ t, exec (.imgAck h id k) s = .next t ∧
      s.moves t [.aon, .out] [] ∧
      (left ≠ [] → t.flow i = some { g with unacked := left, buffer := dropChunk g.buffer k }) ∧
      (left = [] → g.own = true ∨ g.got.length = chunkCount g.head.length → t.flow i = none)) ∧
    (good → flow → g.injected = false → g.own = false → ∃ t, exec (.imgEnd h id true) s = .next t ∧
      s.moves t [.aon, .out] [oneReg MGT_UPDATE] ∧ t.flow i = none ∧
      t.update = if g.accepted = true ∧ s.update = usWriting then usIncomplete else s.update) ∧
    (∀ n, s.overdue k = some (g, n) → g.head.imageId = id → ∃ t, exec (.chunkResend k) s = .next t ∧ s.moves t [.aon, .out] [] ∧
      (n < 4 → t.flow i = some { g with unacked := g.unacked.map fun u => if u.1 = k then (k, u.2.1 + 1, s.now) else u } ∧
        (g.hops ≠ 0 → g.own = false → k ≠ offerIndex → ∀ x ∈ chunkOffsets g.head.length k,
          Out.relay g.up rtImgData g.src g.dst g.hops (imgBytes i x (tabGetD g.buffer x [])) ∈ t.out)) ∧
      (4 ≤ n → g.hops ≠ 0 → Out.relay g.up rtImgEnd g.src g.dst g.hops (endBytes i true) ∈ t.out)) ∧
    (∀ p, s.aon.offer = some p → p.at_ + 500000 ≤ s.now → ∃ t, exec .offerPartialDiscard s = .next t ∧ t.aon.offer = none ∧
      s.moves t [.aon] []) ∧
    (let n := s.fld MGT_IMAGE MGT_IMAGE_IMAGE_ID
     let up := decide (slot < s.slot)
     s.aon.level = .pedestal → s.shows slot usRecovery = true → s.nearestIdle slot = true → slot < 48 → slot ≠ s.slot →
      s.aon.slotInvalid = false → s.flow n = none →
      ∃ t x, exec (.recoveryImageSend slot) s = .next t ∧ t.flow n = some x ∧ x.own = true ∧ x.dst = slot ∧ x.up = up ∧
        x.waiting = List.range (chunkCount s.regionLength) ∧ s.moves t [.aon, .out] [] ∧
        ∀ y ∈ [0, 1024, 2048, 3072], Out.relay up rtImgOffer s.slot slot 47 (imgBytes n y (s.regionFrame y)) ∈ t.out) ∧
    (let r := mgmtRing
     let full := fun t : State => s.moves t (.nv :: .aon :: recordAreas) [pwrRegs, hifRegs, oneReg MGT_UPDATE]
     (s.DescAt r clAdmin 0x30 d → s.idle →
      (injectFieldsOk d.desc = false → ∃ t, exec (.imageInject r rd) s = .next t ∧ s.answered t r d stBadDescriptor 0 0 ∧ full t) ∧
      (injectFieldsOk d.desc = true → ∀ e, rd = .error e → ∃ t, exec (.imageInject r rd) s = .next t ∧
        s.answered t r d (hostErrStatus e) 0 s.injectWords ∧ t.bit HIF_ERR_STATUS HIF_ERR_STATUS_HOST_READ_ERR = true ∧ full t) ∧
      (injectFieldsOk d.desc = true → rd = .data b → 4096 ≤ b.length →
        let x := { offerHead (b.take 4096) with length := dF d.desc 56 4 }
        let fits := bf (b.take 4096) 0 4 = 0x5746514B ∧ x.imageId ≠ 0 ∧ s.injected = none ∧ s.flow x.imageId.toNat = none ∧
          s.acceptsOffer x false = true
        (fits → ∃ t v y, exec (.imageInject r rd) s = .next t ∧ s.admitted t v r d ∧ starts t x ∧ t.flow x.imageId.toNat = some y ∧
          y.injected = true ∧ y.head = x ∧ full t) ∧
        (¬ fits → ∃ t, exec (.imageInject r rd) s = .next t ∧ s.answered t r d stAccessDenied 0 (2 ^ 32 * s.update) ∧
          t.update = s.update ∧ full t))) ∧
     (s.acts → s.hears r → s.hif.works = [w] → s.injectWork r = some w → s.injected = some g → g.waiting.length < 2 →
      ∀ e, rd = .error e → ∃ t, exec (.imageInject r rd) s = .next t ∧ s.ended t w (hostErrStatus e) ∧ full t ∧
        t.update = if g.accepted = true ∧ s.update = usWriting then usIncomplete else s.update))
end

