-- ==== Sys2Proof/Laws/State.lean ====
section
/-! SUPPORT. What each update of the state leaves alone: one lemma per update and field. -/

namespace Sys2Proof.Machine

variable (s : State)

/-! ### setReg -/
@[simp] theorem State.setReg_pending (o : Nat) (w : W64) : (s.setReg o w).pending = s.pending := rfl
@[simp] theorem State.setReg_free (o : Nat) (w : W64) : (s.setReg o w).free = s.free := rfl
@[simp] theorem State.setReg_nv (o : Nat) (w : W64) : (s.setReg o w).nv = s.nv := rfl
@[simp] theorem State.setReg_aon (o : Nat) (w : W64) : (s.setReg o w).aon = s.aon := rfl
@[simp] theorem State.setReg_hif (o : Nat) (w : W64) : (s.setReg o w).hif = s.hif := rfl
@[simp] theorem State.setReg_sec (o : Nat) (w : W64) : (s.setReg o w).sec = s.sec := rfl
@[simp] theorem State.setReg_mem (o : Nat) (w : W64) : (s.setReg o w).mem = s.mem := rfl
@[simp] theorem State.setReg_arr (o : Nat) (w : W64) : (s.setReg o w).arr = s.arr := rfl
@[simp] theorem State.setReg_kv (o : Nat) (w : W64) : (s.setReg o w).kv = s.kv := rfl
@[simp] theorem State.setReg_vcd (o : Nat) (w : W64) : (s.setReg o w).vcd = s.vcd := rfl
@[simp] theorem State.setReg_stn (o : Nat) (w : W64) : (s.setReg o w).stn = s.stn := rfl
@[simp] theorem State.setReg_vrd (o : Nat) (w : W64) : (s.setReg o w).vrd = s.vrd := rfl
@[simp] theorem State.setReg_merge (o : Nat) (w : W64) : (s.setReg o w).merge = s.merge := rfl
@[simp] theorem State.setReg_pair (o : Nat) (w : W64) : (s.setReg o w).pair = s.pair := rfl
@[simp] theorem State.setReg_olp (o : Nat) (w : W64) : (s.setReg o w).olp = s.olp := rfl
@[simp] theorem State.setReg_pwr (o : Nat) (w : W64) : (s.setReg o w).pwr = s.pwr := rfl
@[simp] theorem State.setReg_mon (o : Nat) (w : W64) : (s.setReg o w).mon = s.mon := rfl
@[simp] theorem State.setReg_out (o : Nat) (w : W64) : (s.setReg o w).out = s.out := rfl

/-! ### clearReg -/
@[simp] theorem State.clearReg_pending (o : Nat) : (s.clearReg o).pending = s.pending := rfl
@[simp] theorem State.clearReg_free (o : Nat) : (s.clearReg o).free = s.free := rfl
@[simp] theorem State.clearReg_nv (o : Nat) : (s.clearReg o).nv = s.nv := rfl
@[simp] theorem State.clearReg_aon (o : Nat) : (s.clearReg o).aon = s.aon := rfl
@[simp] theorem State.clearReg_hif (o : Nat) : (s.clearReg o).hif = s.hif := rfl
@[simp] theorem State.clearReg_sec (o : Nat) : (s.clearReg o).sec = s.sec := rfl
@[simp] theorem State.clearReg_mem (o : Nat) : (s.clearReg o).mem = s.mem := rfl
@[simp] theorem State.clearReg_arr (o : Nat) : (s.clearReg o).arr = s.arr := rfl
@[simp] theorem State.clearReg_kv (o : Nat) : (s.clearReg o).kv = s.kv := rfl
@[simp] theorem State.clearReg_vcd (o : Nat) : (s.clearReg o).vcd = s.vcd := rfl
@[simp] theorem State.clearReg_stn (o : Nat) : (s.clearReg o).stn = s.stn := rfl
@[simp] theorem State.clearReg_vrd (o : Nat) : (s.clearReg o).vrd = s.vrd := rfl
@[simp] theorem State.clearReg_merge (o : Nat) : (s.clearReg o).merge = s.merge := rfl
@[simp] theorem State.clearReg_pair (o : Nat) : (s.clearReg o).pair = s.pair := rfl
@[simp] theorem State.clearReg_olp (o : Nat) : (s.clearReg o).olp = s.olp := rfl
@[simp] theorem State.clearReg_pwr (o : Nat) : (s.clearReg o).pwr = s.pwr := rfl
@[simp] theorem State.clearReg_mon (o : Nat) : (s.clearReg o).mon = s.mon := rfl
@[simp] theorem State.clearReg_out (o : Nat) : (s.clearReg o).out = s.out := rfl

/-! ### clearRange -/
@[simp] theorem State.clearRange_pending (a b : Nat) : (s.clearRange a b).pending = s.pending := rfl
@[simp] theorem State.clearRange_free (a b : Nat) : (s.clearRange a b).free = s.free := rfl
@[simp] theorem State.clearRange_nv (a b : Nat) : (s.clearRange a b).nv = s.nv := rfl
@[simp] theorem State.clearRange_aon (a b : Nat) : (s.clearRange a b).aon = s.aon := rfl
@[simp] theorem State.clearRange_hif (a b : Nat) : (s.clearRange a b).hif = s.hif := rfl
@[simp] theorem State.clearRange_sec (a b : Nat) : (s.clearRange a b).sec = s.sec := rfl
@[simp] theorem State.clearRange_mem (a b : Nat) : (s.clearRange a b).mem = s.mem := rfl
@[simp] theorem State.clearRange_arr (a b : Nat) : (s.clearRange a b).arr = s.arr := rfl
@[simp] theorem State.clearRange_kv (a b : Nat) : (s.clearRange a b).kv = s.kv := rfl
@[simp] theorem State.clearRange_vcd (a b : Nat) : (s.clearRange a b).vcd = s.vcd := rfl
@[simp] theorem State.clearRange_stn (a b : Nat) : (s.clearRange a b).stn = s.stn := rfl
@[simp] theorem State.clearRange_vrd (a b : Nat) : (s.clearRange a b).vrd = s.vrd := rfl
@[simp] theorem State.clearRange_merge (a b : Nat) : (s.clearRange a b).merge = s.merge := rfl
@[simp] theorem State.clearRange_pair (a b : Nat) : (s.clearRange a b).pair = s.pair := rfl
@[simp] theorem State.clearRange_olp (a b : Nat) : (s.clearRange a b).olp = s.olp := rfl
@[simp] theorem State.clearRange_pwr (a b : Nat) : (s.clearRange a b).pwr = s.pwr := rfl
@[simp] theorem State.clearRange_mon (a b : Nat) : (s.clearRange a b).mon = s.mon := rfl
@[simp] theorem State.clearRange_out (a b : Nat) : (s.clearRange a b).out = s.out := rfl

/-! ### setFld -/
@[simp] theorem State.setFld_pending (o : Nat) (b : Bits) (v : Nat) : (s.setFld o b v).pending = s.pending := rfl
@[simp] theorem State.setFld_free (o : Nat) (b : Bits) (v : Nat) : (s.setFld o b v).free = s.free := rfl
@[simp] theorem State.setFld_nv (o : Nat) (b : Bits) (v : Nat) : (s.setFld o b v).nv = s.nv := rfl
@[simp] theorem State.setFld_aon (o : Nat) (b : Bits) (v : Nat) : (s.setFld o b v).aon = s.aon := rfl
@[simp] theorem State.setFld_hif (o : Nat) (b : Bits) (v : Nat) : (s.setFld o b v).hif = s.hif := rfl
@[simp] theorem State.setFld_sec (o : Nat) (b : Bits) (v : Nat) : (s.setFld o b v).sec = s.sec := rfl
@[simp] theorem State.setFld_mem (o : Nat) (b : Bits) (v : Nat) : (s.setFld o b v).mem = s.mem := rfl
@[simp] theorem State.setFld_arr (o : Nat) (b : Bits) (v : Nat) : (s.setFld o b v).arr = s.arr := rfl
@[simp] theorem State.setFld_kv (o : Nat) (b : Bits) (v : Nat) : (s.setFld o b v).kv = s.kv := rfl
@[simp] theorem State.setFld_vcd (o : Nat) (b : Bits) (v : Nat) : (s.setFld o b v).vcd = s.vcd := rfl
@[simp] theorem State.setFld_stn (o : Nat) (b : Bits) (v : Nat) : (s.setFld o b v).stn = s.stn := rfl
@[simp] theorem State.setFld_vrd (o : Nat) (b : Bits) (v : Nat) : (s.setFld o b v).vrd = s.vrd := rfl
@[simp] theorem State.setFld_merge (o : Nat) (b : Bits) (v : Nat) : (s.setFld o b v).merge = s.merge := rfl
@[simp] theorem State.setFld_pair (o : Nat) (b : Bits) (v : Nat) : (s.setFld o b v).pair = s.pair := rfl
@[simp] theorem State.setFld_olp (o : Nat) (b : Bits) (v : Nat) : (s.setFld o b v).olp = s.olp := rfl
@[simp] theorem State.setFld_pwr (o : Nat) (b : Bits) (v : Nat) : (s.setFld o b v).pwr = s.pwr := rfl
@[simp] theorem State.setFld_mon (o : Nat) (b : Bits) (v : Nat) : (s.setFld o b v).mon = s.mon := rfl
@[simp] theorem State.setFld_out (o : Nat) (b : Bits) (v : Nat) : (s.setFld o b v).out = s.out := rfl

/-! ### setBit -/
@[simp] theorem State.setBit_pending (o : Nat) (b : Bits) (v : Bool) : (s.setBit o b v).pending = s.pending := rfl
@[simp] theorem State.setBit_free (o : Nat) (b : Bits) (v : Bool) : (s.setBit o b v).free = s.free := rfl
@[simp] theorem State.setBit_nv (o : Nat) (b : Bits) (v : Bool) : (s.setBit o b v).nv = s.nv := rfl
@[simp] theorem State.setBit_aon (o : Nat) (b : Bits) (v : Bool) : (s.setBit o b v).aon = s.aon := rfl
@[simp] theorem State.setBit_hif (o : Nat) (b : Bits) (v : Bool) : (s.setBit o b v).hif = s.hif := rfl
@[simp] theorem State.setBit_sec (o : Nat) (b : Bits) (v : Bool) : (s.setBit o b v).sec = s.sec := rfl
@[simp] theorem State.setBit_mem (o : Nat) (b : Bits) (v : Bool) : (s.setBit o b v).mem = s.mem := rfl
@[simp] theorem State.setBit_arr (o : Nat) (b : Bits) (v : Bool) : (s.setBit o b v).arr = s.arr := rfl
@[simp] theorem State.setBit_kv (o : Nat) (b : Bits) (v : Bool) : (s.setBit o b v).kv = s.kv := rfl
@[simp] theorem State.setBit_vcd (o : Nat) (b : Bits) (v : Bool) : (s.setBit o b v).vcd = s.vcd := rfl
@[simp] theorem State.setBit_stn (o : Nat) (b : Bits) (v : Bool) : (s.setBit o b v).stn = s.stn := rfl
@[simp] theorem State.setBit_vrd (o : Nat) (b : Bits) (v : Bool) : (s.setBit o b v).vrd = s.vrd := rfl
@[simp] theorem State.setBit_merge (o : Nat) (b : Bits) (v : Bool) : (s.setBit o b v).merge = s.merge := rfl
@[simp] theorem State.setBit_pair (o : Nat) (b : Bits) (v : Bool) : (s.setBit o b v).pair = s.pair := rfl
@[simp] theorem State.setBit_olp (o : Nat) (b : Bits) (v : Bool) : (s.setBit o b v).olp = s.olp := rfl
@[simp] theorem State.setBit_pwr (o : Nat) (b : Bits) (v : Bool) : (s.setBit o b v).pwr = s.pwr := rfl
@[simp] theorem State.setBit_mon (o : Nat) (b : Bits) (v : Bool) : (s.setBit o b v).mon = s.mon := rfl
@[simp] theorem State.setBit_out (o : Nat) (b : Bits) (v : Bool) : (s.setBit o b v).out = s.out := rfl

/-! ### addSat -/
@[simp] theorem State.addSat_pending (o : Nat) (b : Bits) (n : Nat) : (s.addSat o b n).pending = s.pending := rfl
@[simp] theorem State.addSat_free (o : Nat) (b : Bits) (n : Nat) : (s.addSat o b n).free = s.free := rfl
@[simp] theorem State.addSat_nv (o : Nat) (b : Bits) (n : Nat) : (s.addSat o b n).nv = s.nv := rfl
@[simp] theorem State.addSat_aon (o : Nat) (b : Bits) (n : Nat) : (s.addSat o b n).aon = s.aon := rfl
@[simp] theorem State.addSat_hif (o : Nat) (b : Bits) (n : Nat) : (s.addSat o b n).hif = s.hif := rfl
@[simp] theorem State.addSat_sec (o : Nat) (b : Bits) (n : Nat) : (s.addSat o b n).sec = s.sec := rfl
@[simp] theorem State.addSat_mem (o : Nat) (b : Bits) (n : Nat) : (s.addSat o b n).mem = s.mem := rfl
@[simp] theorem State.addSat_arr (o : Nat) (b : Bits) (n : Nat) : (s.addSat o b n).arr = s.arr := rfl
@[simp] theorem State.addSat_kv (o : Nat) (b : Bits) (n : Nat) : (s.addSat o b n).kv = s.kv := rfl
@[simp] theorem State.addSat_vcd (o : Nat) (b : Bits) (n : Nat) : (s.addSat o b n).vcd = s.vcd := rfl
@[simp] theorem State.addSat_stn (o : Nat) (b : Bits) (n : Nat) : (s.addSat o b n).stn = s.stn := rfl
@[simp] theorem State.addSat_vrd (o : Nat) (b : Bits) (n : Nat) : (s.addSat o b n).vrd = s.vrd := rfl
@[simp] theorem State.addSat_merge (o : Nat) (b : Bits) (n : Nat) : (s.addSat o b n).merge = s.merge := rfl
@[simp] theorem State.addSat_pair (o : Nat) (b : Bits) (n : Nat) : (s.addSat o b n).pair = s.pair := rfl
@[simp] theorem State.addSat_olp (o : Nat) (b : Bits) (n : Nat) : (s.addSat o b n).olp = s.olp := rfl
@[simp] theorem State.addSat_pwr (o : Nat) (b : Bits) (n : Nat) : (s.addSat o b n).pwr = s.pwr := rfl
@[simp] theorem State.addSat_mon (o : Nat) (b : Bits) (n : Nat) : (s.addSat o b n).mon = s.mon := rfl
@[simp] theorem State.addSat_out (o : Nat) (b : Bits) (n : Nat) : (s.addSat o b n).out = s.out := rfl

/-! ### addWrap -/
@[simp] theorem State.addWrap_pending (o : Nat) (b : Bits) (n : Nat) : (s.addWrap o b n).pending = s.pending := rfl
@[simp] theorem State.addWrap_free (o : Nat) (b : Bits) (n : Nat) : (s.addWrap o b n).free = s.free := rfl
@[simp] theorem State.addWrap_nv (o : Nat) (b : Bits) (n : Nat) : (s.addWrap o b n).nv = s.nv := rfl
@[simp] theorem State.addWrap_aon (o : Nat) (b : Bits) (n : Nat) : (s.addWrap o b n).aon = s.aon := rfl
@[simp] theorem State.addWrap_hif (o : Nat) (b : Bits) (n : Nat) : (s.addWrap o b n).hif = s.hif := rfl
@[simp] theorem State.addWrap_sec (o : Nat) (b : Bits) (n : Nat) : (s.addWrap o b n).sec = s.sec := rfl
@[simp] theorem State.addWrap_mem (o : Nat) (b : Bits) (n : Nat) : (s.addWrap o b n).mem = s.mem := rfl
@[simp] theorem State.addWrap_arr (o : Nat) (b : Bits) (n : Nat) : (s.addWrap o b n).arr = s.arr := rfl
@[simp] theorem State.addWrap_kv (o : Nat) (b : Bits) (n : Nat) : (s.addWrap o b n).kv = s.kv := rfl
@[simp] theorem State.addWrap_vcd (o : Nat) (b : Bits) (n : Nat) : (s.addWrap o b n).vcd = s.vcd := rfl
@[simp] theorem State.addWrap_stn (o : Nat) (b : Bits) (n : Nat) : (s.addWrap o b n).stn = s.stn := rfl
@[simp] theorem State.addWrap_vrd (o : Nat) (b : Bits) (n : Nat) : (s.addWrap o b n).vrd = s.vrd := rfl
@[simp] theorem State.addWrap_merge (o : Nat) (b : Bits) (n : Nat) : (s.addWrap o b n).merge = s.merge := rfl
@[simp] theorem State.addWrap_pair (o : Nat) (b : Bits) (n : Nat) : (s.addWrap o b n).pair = s.pair := rfl
@[simp] theorem State.addWrap_olp (o : Nat) (b : Bits) (n : Nat) : (s.addWrap o b n).olp = s.olp := rfl
@[simp] theorem State.addWrap_pwr (o : Nat) (b : Bits) (n : Nat) : (s.addWrap o b n).pwr = s.pwr := rfl
@[simp] theorem State.addWrap_mon (o : Nat) (b : Bits) (n : Nat) : (s.addWrap o b n).mon = s.mon := rfl
@[simp] theorem State.addWrap_out (o : Nat) (b : Bits) (n : Nat) : (s.addWrap o b n).out = s.out := rfl

/-! ### setMaskBit -/
@[simp] theorem State.setMaskBit_pending (o : Nat) (b : Bits) (i : Nat) (v : Bool) : (s.setMaskBit o b i v).pending = s.pending := rfl
@[simp] theorem State.setMaskBit_free (o : Nat) (b : Bits) (i : Nat) (v : Bool) : (s.setMaskBit o b i v).free = s.free := rfl
@[simp] theorem State.setMaskBit_nv (o : Nat) (b : Bits) (i : Nat) (v : Bool) : (s.setMaskBit o b i v).nv = s.nv := rfl
@[simp] theorem State.setMaskBit_aon (o : Nat) (b : Bits) (i : Nat) (v : Bool) : (s.setMaskBit o b i v).aon = s.aon := rfl
@[simp] theorem State.setMaskBit_hif (o : Nat) (b : Bits) (i : Nat) (v : Bool) : (s.setMaskBit o b i v).hif = s.hif := rfl
@[simp] theorem State.setMaskBit_sec (o : Nat) (b : Bits) (i : Nat) (v : Bool) : (s.setMaskBit o b i v).sec = s.sec := rfl
@[simp] theorem State.setMaskBit_mem (o : Nat) (b : Bits) (i : Nat) (v : Bool) : (s.setMaskBit o b i v).mem = s.mem := rfl
@[simp] theorem State.setMaskBit_arr (o : Nat) (b : Bits) (i : Nat) (v : Bool) : (s.setMaskBit o b i v).arr = s.arr := rfl
@[simp] theorem State.setMaskBit_kv (o : Nat) (b : Bits) (i : Nat) (v : Bool) : (s.setMaskBit o b i v).kv = s.kv := rfl
@[simp] theorem State.setMaskBit_vcd (o : Nat) (b : Bits) (i : Nat) (v : Bool) : (s.setMaskBit o b i v).vcd = s.vcd := rfl
@[simp] theorem State.setMaskBit_stn (o : Nat) (b : Bits) (i : Nat) (v : Bool) : (s.setMaskBit o b i v).stn = s.stn := rfl
@[simp] theorem State.setMaskBit_vrd (o : Nat) (b : Bits) (i : Nat) (v : Bool) : (s.setMaskBit o b i v).vrd = s.vrd := rfl
@[simp] theorem State.setMaskBit_merge (o : Nat) (b : Bits) (i : Nat) (v : Bool) : (s.setMaskBit o b i v).merge = s.merge := rfl
@[simp] theorem State.setMaskBit_pair (o : Nat) (b : Bits) (i : Nat) (v : Bool) : (s.setMaskBit o b i v).pair = s.pair := rfl
@[simp] theorem State.setMaskBit_olp (o : Nat) (b : Bits) (i : Nat) (v : Bool) : (s.setMaskBit o b i v).olp = s.olp := rfl
@[simp] theorem State.setMaskBit_pwr (o : Nat) (b : Bits) (i : Nat) (v : Bool) : (s.setMaskBit o b i v).pwr = s.pwr := rfl
@[simp] theorem State.setMaskBit_mon (o : Nat) (b : Bits) (i : Nat) (v : Bool) : (s.setMaskBit o b i v).mon = s.mon := rfl
@[simp] theorem State.setMaskBit_out (o : Nat) (b : Bits) (i : Nat) (v : Bool) : (s.setMaskBit o b i v).out = s.out := rfl

/-! ### emit -/
@[simp] theorem State.emit_pending (x : Out) : (s.emit x).pending = s.pending := rfl
@[simp] theorem State.emit_free (x : Out) : (s.emit x).free = s.free := rfl
@[simp] theorem State.emit_regs (x : Out) : (s.emit x).regs = s.regs := rfl
@[simp] theorem State.emit_nv (x : Out) : (s.emit x).nv = s.nv := rfl
@[simp] theorem State.emit_aon (x : Out) : (s.emit x).aon = s.aon := rfl
@[simp] theorem State.emit_hif (x : Out) : (s.emit x).hif = s.hif := rfl
@[simp] theorem State.emit_sec (x : Out) : (s.emit x).sec = s.sec := rfl
@[simp] theorem State.emit_mem (x : Out) : (s.emit x).mem = s.mem := rfl
@[simp] theorem State.emit_arr (x : Out) : (s.emit x).arr = s.arr := rfl
@[simp] theorem State.emit_kv (x : Out) : (s.emit x).kv = s.kv := rfl
@[simp] theorem State.emit_vcd (x : Out) : (s.emit x).vcd = s.vcd := rfl
@[simp] theorem State.emit_stn (x : Out) : (s.emit x).stn = s.stn := rfl
@[simp] theorem State.emit_vrd (x : Out) : (s.emit x).vrd = s.vrd := rfl
@[simp] theorem State.emit_merge (x : Out) : (s.emit x).merge = s.merge := rfl
@[simp] theorem State.emit_pair (x : Out) : (s.emit x).pair = s.pair := rfl
@[simp] theorem State.emit_olp (x : Out) : (s.emit x).olp = s.olp := rfl
@[simp] theorem State.emit_pwr (x : Out) : (s.emit x).pwr = s.pwr := rfl
@[simp] theorem State.emit_mon (x : Out) : (s.emit x).mon = s.mon := rfl
@[simp] theorem State.emit_reg (x : Out) (k : Nat) : (s.emit x).reg k = s.reg k := rfl

/-! ### log -/
@[simp] theorem State.log_pending (c a : Nat) : (s.log c a).pending = s.pending := rfl
@[simp] theorem State.log_free (c a : Nat) : (s.log c a).free = s.free := rfl
@[simp] theorem State.log_regs (c a : Nat) : (s.log c a).regs = s.regs := rfl
@[simp] theorem State.log_aon (c a : Nat) : (s.log c a).aon = s.aon := rfl
@[simp] theorem State.log_hif (c a : Nat) : (s.log c a).hif = s.hif := rfl
@[simp] theorem State.log_sec (c a : Nat) : (s.log c a).sec = s.sec := rfl
@[simp] theorem State.log_mem (c a : Nat) : (s.log c a).mem = s.mem := rfl
@[simp] theorem State.log_arr (c a : Nat) : (s.log c a).arr = s.arr := rfl
@[simp] theorem State.log_kv (c a : Nat) : (s.log c a).kv = s.kv := rfl
@[simp] theorem State.log_vcd (c a : Nat) : (s.log c a).vcd = s.vcd := rfl
@[simp] theorem State.log_stn (c a : Nat) : (s.log c a).stn = s.stn := rfl
@[simp] theorem State.log_vrd (c a : Nat) : (s.log c a).vrd = s.vrd := rfl
@[simp] theorem State.log_merge (c a : Nat) : (s.log c a).merge = s.merge := rfl
@[simp] theorem State.log_pair (c a : Nat) : (s.log c a).pair = s.pair := rfl
@[simp] theorem State.log_olp (c a : Nat) : (s.log c a).olp = s.olp := rfl
@[simp] theorem State.log_pwr (c a : Nat) : (s.log c a).pwr = s.pwr := rfl
@[simp] theorem State.log_mon (c a : Nat) : (s.log c a).mon = s.mon := rfl
@[simp] theorem State.log_out (c a : Nat) : (s.log c a).out = s.out := rfl
@[simp] theorem State.log_reg (c a : Nat) (k : Nat) : (s.log c a).reg k = s.reg k := rfl

/-! ### bump -/
@[simp] theorem State.bump_pending : (s.bump).pending = s.pending := rfl
@[simp] theorem State.bump_regs : (s.bump).regs = s.regs := rfl
@[simp] theorem State.bump_nv : (s.bump).nv = s.nv := rfl
@[simp] theorem State.bump_aon : (s.bump).aon = s.aon := rfl
@[simp] theorem State.bump_hif : (s.bump).hif = s.hif := rfl
@[simp] theorem State.bump_sec : (s.bump).sec = s.sec := rfl
@[simp] theorem State.bump_mem : (s.bump).mem = s.mem := rfl
@[simp] theorem State.bump_arr : (s.bump).arr = s.arr := rfl
@[simp] theorem State.bump_kv : (s.bump).kv = s.kv := rfl
@[simp] theorem State.bump_vcd : (s.bump).vcd = s.vcd := rfl
@[simp] theorem State.bump_stn : (s.bump).stn = s.stn := rfl
@[simp] theorem State.bump_vrd : (s.bump).vrd = s.vrd := rfl
@[simp] theorem State.bump_merge : (s.bump).merge = s.merge := rfl
@[simp] theorem State.bump_pair : (s.bump).pair = s.pair := rfl
@[simp] theorem State.bump_olp : (s.bump).olp = s.olp := rfl
@[simp] theorem State.bump_pwr : (s.bump).pwr = s.pwr := rfl
@[simp] theorem State.bump_mon : (s.bump).mon = s.mon := rfl
@[simp] theorem State.bump_out : (s.bump).out = s.out := rfl
@[simp] theorem State.bump_reg (k : Nat) : (s.bump).reg k = s.reg k := rfl

/-! ### takeDraws -/
@[simp] theorem State.takeDraws_pending (n : Nat) : (s.takeDraws n).pending = s.pending := rfl
@[simp] theorem State.takeDraws_free (n : Nat) : (s.takeDraws n).free = s.free := rfl
@[simp] theorem State.takeDraws_regs (n : Nat) : (s.takeDraws n).regs = s.regs := rfl
@[simp] theorem State.takeDraws_aon (n : Nat) : (s.takeDraws n).aon = s.aon := rfl
@[simp] theorem State.takeDraws_hif (n : Nat) : (s.takeDraws n).hif = s.hif := rfl
@[simp] theorem State.takeDraws_sec (n : Nat) : (s.takeDraws n).sec = s.sec := rfl
@[simp] theorem State.takeDraws_mem (n : Nat) : (s.takeDraws n).mem = s.mem := rfl
@[simp] theorem State.takeDraws_arr (n : Nat) : (s.takeDraws n).arr = s.arr := rfl
@[simp] theorem State.takeDraws_kv (n : Nat) : (s.takeDraws n).kv = s.kv := rfl
@[simp] theorem State.takeDraws_vcd (n : Nat) : (s.takeDraws n).vcd = s.vcd := rfl
@[simp] theorem State.takeDraws_stn (n : Nat) : (s.takeDraws n).stn = s.stn := rfl
@[simp] theorem State.takeDraws_vrd (n : Nat) : (s.takeDraws n).vrd = s.vrd := rfl
@[simp] theorem State.takeDraws_merge (n : Nat) : (s.takeDraws n).merge = s.merge := rfl
@[simp] theorem State.takeDraws_pair (n : Nat) : (s.takeDraws n).pair = s.pair := rfl
@[simp] theorem State.takeDraws_olp (n : Nat) : (s.takeDraws n).olp = s.olp := rfl
@[simp] theorem State.takeDraws_pwr (n : Nat) : (s.takeDraws n).pwr = s.pwr := rfl
@[simp] theorem State.takeDraws_mon (n : Nat) : (s.takeDraws n).mon = s.mon := rfl
@[simp] theorem State.takeDraws_out (n : Nat) : (s.takeDraws n).out = s.out := rfl
@[simp] theorem State.takeDraws_reg (n : Nat) (k : Nat) : (s.takeDraws n).reg k = s.reg k := rfl

/-! ### setCtx -/
@[simp] theorem State.setCtx_pending (c : Nat) (x : Ctx) : (s.setCtx c x).pending = s.pending := rfl
@[simp] theorem State.setCtx_free (c : Nat) (x : Ctx) : (s.setCtx c x).free = s.free := rfl
@[simp] theorem State.setCtx_regs (c : Nat) (x : Ctx) : (s.setCtx c x).regs = s.regs := rfl
@[simp] theorem State.setCtx_nv (c : Nat) (x : Ctx) : (s.setCtx c x).nv = s.nv := rfl
@[simp] theorem State.setCtx_aon (c : Nat) (x : Ctx) : (s.setCtx c x).aon = s.aon := rfl
@[simp] theorem State.setCtx_hif (c : Nat) (x : Ctx) : (s.setCtx c x).hif = s.hif := rfl
@[simp] theorem State.setCtx_mem (c : Nat) (x : Ctx) : (s.setCtx c x).mem = s.mem := rfl
@[simp] theorem State.setCtx_arr (c : Nat) (x : Ctx) : (s.setCtx c x).arr = s.arr := rfl
@[simp] theorem State.setCtx_kv (c : Nat) (x : Ctx) : (s.setCtx c x).kv = s.kv := rfl
@[simp] theorem State.setCtx_vcd (c : Nat) (x : Ctx) : (s.setCtx c x).vcd = s.vcd := rfl
@[simp] theorem State.setCtx_stn (c : Nat) (x : Ctx) : (s.setCtx c x).stn = s.stn := rfl
@[simp] theorem State.setCtx_vrd (c : Nat) (x : Ctx) : (s.setCtx c x).vrd = s.vrd := rfl
@[simp] theorem State.setCtx_merge (c : Nat) (x : Ctx) : (s.setCtx c x).merge = s.merge := rfl
@[simp] theorem State.setCtx_pair (c : Nat) (x : Ctx) : (s.setCtx c x).pair = s.pair := rfl
@[simp] theorem State.setCtx_olp (c : Nat) (x : Ctx) : (s.setCtx c x).olp = s.olp := rfl
@[simp] theorem State.setCtx_pwr (c : Nat) (x : Ctx) : (s.setCtx c x).pwr = s.pwr := rfl
@[simp] theorem State.setCtx_mon (c : Nat) (x : Ctx) : (s.setCtx c x).mon = s.mon := rfl
@[simp] theorem State.setCtx_out (c : Nat) (x : Ctx) : (s.setCtx c x).out = s.out := rfl
@[simp] theorem State.setCtx_reg (c : Nat) (x : Ctx) (k : Nat) : (s.setCtx c x).reg k = s.reg k := rfl

/-! ### setPart -/
@[simp] theorem State.setPart_pending (p : Nat) (x : Part) : (s.setPart p x).pending = s.pending := rfl
@[simp] theorem State.setPart_free (p : Nat) (x : Part) : (s.setPart p x).free = s.free := rfl
@[simp] theorem State.setPart_regs (p : Nat) (x : Part) : (s.setPart p x).regs = s.regs := rfl
@[simp] theorem State.setPart_nv (p : Nat) (x : Part) : (s.setPart p x).nv = s.nv := rfl
@[simp] theorem State.setPart_aon (p : Nat) (x : Part) : (s.setPart p x).aon = s.aon := rfl
@[simp] theorem State.setPart_hif (p : Nat) (x : Part) : (s.setPart p x).hif = s.hif := rfl
@[simp] theorem State.setPart_mem (p : Nat) (x : Part) : (s.setPart p x).mem = s.mem := rfl
@[simp] theorem State.setPart_arr (p : Nat) (x : Part) : (s.setPart p x).arr = s.arr := rfl
@[simp] theorem State.setPart_kv (p : Nat) (x : Part) : (s.setPart p x).kv = s.kv := rfl
@[simp] theorem State.setPart_vcd (p : Nat) (x : Part) : (s.setPart p x).vcd = s.vcd := rfl
@[simp] theorem State.setPart_stn (p : Nat) (x : Part) : (s.setPart p x).stn = s.stn := rfl
@[simp] theorem State.setPart_vrd (p : Nat) (x : Part) : (s.setPart p x).vrd = s.vrd := rfl
@[simp] theorem State.setPart_merge (p : Nat) (x : Part) : (s.setPart p x).merge = s.merge := rfl
@[simp] theorem State.setPart_pair (p : Nat) (x : Part) : (s.setPart p x).pair = s.pair := rfl
@[simp] theorem State.setPart_olp (p : Nat) (x : Part) : (s.setPart p x).olp = s.olp := rfl
@[simp] theorem State.setPart_pwr (p : Nat) (x : Part) : (s.setPart p x).pwr = s.pwr := rfl
@[simp] theorem State.setPart_mon (p : Nat) (x : Part) : (s.setPart p x).mon = s.mon := rfl
@[simp] theorem State.setPart_out (p : Nat) (x : Part) : (s.setPart p x).out = s.out := rfl
@[simp] theorem State.setPart_reg (p : Nat) (x : Part) (k : Nat) : (s.setPart p x).reg k = s.reg k := rfl

/-! ### dramPut -/
@[simp] theorem State.dramPut_pending (c a : Nat) (bs : List Byte) : (s.dramPut c a bs).pending = s.pending := rfl
@[simp] theorem State.dramPut_free (c a : Nat) (bs : List Byte) : (s.dramPut c a bs).free = s.free := rfl
@[simp] theorem State.dramPut_regs (c a : Nat) (bs : List Byte) : (s.dramPut c a bs).regs = s.regs := rfl
@[simp] theorem State.dramPut_nv (c a : Nat) (bs : List Byte) : (s.dramPut c a bs).nv = s.nv := rfl
@[simp] theorem State.dramPut_aon (c a : Nat) (bs : List Byte) : (s.dramPut c a bs).aon = s.aon := rfl
@[simp] theorem State.dramPut_hif (c a : Nat) (bs : List Byte) : (s.dramPut c a bs).hif = s.hif := rfl
@[simp] theorem State.dramPut_sec (c a : Nat) (bs : List Byte) : (s.dramPut c a bs).sec = s.sec := rfl
@[simp] theorem State.dramPut_arr (c a : Nat) (bs : List Byte) : (s.dramPut c a bs).arr = s.arr := rfl
@[simp] theorem State.dramPut_kv (c a : Nat) (bs : List Byte) : (s.dramPut c a bs).kv = s.kv := rfl
@[simp] theorem State.dramPut_vcd (c a : Nat) (bs : List Byte) : (s.dramPut c a bs).vcd = s.vcd := rfl
@[simp] theorem State.dramPut_stn (c a : Nat) (bs : List Byte) : (s.dramPut c a bs).stn = s.stn := rfl
@[simp] theorem State.dramPut_vrd (c a : Nat) (bs : List Byte) : (s.dramPut c a bs).vrd = s.vrd := rfl
@[simp] theorem State.dramPut_merge (c a : Nat) (bs : List Byte) : (s.dramPut c a bs).merge = s.merge := rfl
@[simp] theorem State.dramPut_pair (c a : Nat) (bs : List Byte) : (s.dramPut c a bs).pair = s.pair := rfl
@[simp] theorem State.dramPut_olp (c a : Nat) (bs : List Byte) : (s.dramPut c a bs).olp = s.olp := rfl
@[simp] theorem State.dramPut_pwr (c a : Nat) (bs : List Byte) : (s.dramPut c a bs).pwr = s.pwr := rfl
@[simp] theorem State.dramPut_mon (c a : Nat) (bs : List Byte) : (s.dramPut c a bs).mon = s.mon := rfl
@[simp] theorem State.dramPut_out (c a : Nat) (bs : List Byte) : (s.dramPut c a bs).out = s.out := rfl
@[simp] theorem State.dramPut_reg (c a : Nat) (bs : List Byte) (k : Nat) : (s.dramPut c a bs).reg k = s.reg k := rfl

/-! ### bankPut -/
@[simp] theorem State.bankPut_pending (a : Nat) (bs : List Byte) : (s.bankPut a bs).pending = s.pending := rfl
@[simp] theorem State.bankPut_free (a : Nat) (bs : List Byte) : (s.bankPut a bs).free = s.free := rfl
@[simp] theorem State.bankPut_regs (a : Nat) (bs : List Byte) : (s.bankPut a bs).regs = s.regs := rfl
@[simp] theorem State.bankPut_nv (a : Nat) (bs : List Byte) : (s.bankPut a bs).nv = s.nv := rfl
@[simp] theorem State.bankPut_aon (a : Nat) (bs : List Byte) : (s.bankPut a bs).aon = s.aon := rfl
@[simp] theorem State.bankPut_hif (a : Nat) (bs : List Byte) : (s.bankPut a bs).hif = s.hif := rfl
@[simp] theorem State.bankPut_sec (a : Nat) (bs : List Byte) : (s.bankPut a bs).sec = s.sec := rfl
@[simp] theorem State.bankPut_arr (a : Nat) (bs : List Byte) : (s.bankPut a bs).arr = s.arr := rfl
@[simp] theorem State.bankPut_kv (a : Nat) (bs : List Byte) : (s.bankPut a bs).kv = s.kv := rfl
@[simp] theorem State.bankPut_vcd (a : Nat) (bs : List Byte) : (s.bankPut a bs).vcd = s.vcd := rfl
@[simp] theorem State.bankPut_stn (a : Nat) (bs : List Byte) : (s.bankPut a bs).stn = s.stn := rfl
@[simp] theorem State.bankPut_vrd (a : Nat) (bs : List Byte) : (s.bankPut a bs).vrd = s.vrd := rfl
@[simp] theorem State.bankPut_merge (a : Nat) (bs : List Byte) : (s.bankPut a bs).merge = s.merge := rfl
@[simp] theorem State.bankPut_pair (a : Nat) (bs : List Byte) : (s.bankPut a bs).pair = s.pair := rfl
@[simp] theorem State.bankPut_olp (a : Nat) (bs : List Byte) : (s.bankPut a bs).olp = s.olp := rfl
@[simp] theorem State.bankPut_pwr (a : Nat) (bs : List Byte) : (s.bankPut a bs).pwr = s.pwr := rfl
@[simp] theorem State.bankPut_mon (a : Nat) (bs : List Byte) : (s.bankPut a bs).mon = s.mon := rfl
@[simp] theorem State.bankPut_out (a : Nat) (bs : List Byte) : (s.bankPut a bs).out = s.out := rfl
@[simp] theorem State.bankPut_reg (a : Nat) (bs : List Byte) (k : Nat) : (s.bankPut a bs).reg k = s.reg k := rfl

/-! ### setBank -/
@[simp] theorem State.setBank_pending (g : Nat) (x : BankSt) : (s.setBank g x).pending = s.pending := rfl
@[simp] theorem State.setBank_free (g : Nat) (x : BankSt) : (s.setBank g x).free = s.free := rfl
@[simp] theorem State.setBank_regs (g : Nat) (x : BankSt) : (s.setBank g x).regs = s.regs := rfl
@[simp] theorem State.setBank_nv (g : Nat) (x : BankSt) : (s.setBank g x).nv = s.nv := rfl
@[simp] theorem State.setBank_aon (g : Nat) (x : BankSt) : (s.setBank g x).aon = s.aon := rfl
@[simp] theorem State.setBank_hif (g : Nat) (x : BankSt) : (s.setBank g x).hif = s.hif := rfl
@[simp] theorem State.setBank_sec (g : Nat) (x : BankSt) : (s.setBank g x).sec = s.sec := rfl
@[simp] theorem State.setBank_mem (g : Nat) (x : BankSt) : (s.setBank g x).mem = s.mem := rfl
@[simp] theorem State.setBank_kv (g : Nat) (x : BankSt) : (s.setBank g x).kv = s.kv := rfl
@[simp] theorem State.setBank_vcd (g : Nat) (x : BankSt) : (s.setBank g x).vcd = s.vcd := rfl
@[simp] theorem State.setBank_stn (g : Nat) (x : BankSt) : (s.setBank g x).stn = s.stn := rfl
@[simp] theorem State.setBank_vrd (g : Nat) (x : BankSt) : (s.setBank g x).vrd = s.vrd := rfl
@[simp] theorem State.setBank_merge (g : Nat) (x : BankSt) : (s.setBank g x).merge = s.merge := rfl
@[simp] theorem State.setBank_pair (g : Nat) (x : BankSt) : (s.setBank g x).pair = s.pair := rfl
@[simp] theorem State.setBank_olp (g : Nat) (x : BankSt) : (s.setBank g x).olp = s.olp := rfl
@[simp] theorem State.setBank_pwr (g : Nat) (x : BankSt) : (s.setBank g x).pwr = s.pwr := rfl
@[simp] theorem State.setBank_mon (g : Nat) (x : BankSt) : (s.setBank g x).mon = s.mon := rfl
@[simp] theorem State.setBank_out (g : Nat) (x : BankSt) : (s.setBank g x).out = s.out := rfl
@[simp] theorem State.setBank_reg (g : Nat) (x : BankSt) (k : Nat) : (s.setBank g x).reg k = s.reg k := rfl

/-! ### setTile -/
@[simp] theorem State.setTile_pending (n : Nat) (x : Tile) : (s.setTile n x).pending = s.pending := rfl
@[simp] theorem State.setTile_free (n : Nat) (x : Tile) : (s.setTile n x).free = s.free := rfl
@[simp] theorem State.setTile_regs (n : Nat) (x : Tile) : (s.setTile n x).regs = s.regs := rfl
@[simp] theorem State.setTile_nv (n : Nat) (x : Tile) : (s.setTile n x).nv = s.nv := rfl
@[simp] theorem State.setTile_aon (n : Nat) (x : Tile) : (s.setTile n x).aon = s.aon := rfl
@[simp] theorem State.setTile_hif (n : Nat) (x : Tile) : (s.setTile n x).hif = s.hif := rfl
@[simp] theorem State.setTile_sec (n : Nat) (x : Tile) : (s.setTile n x).sec = s.sec := rfl
@[simp] theorem State.setTile_mem (n : Nat) (x : Tile) : (s.setTile n x).mem = s.mem := rfl
@[simp] theorem State.setTile_kv (n : Nat) (x : Tile) : (s.setTile n x).kv = s.kv := rfl
@[simp] theorem State.setTile_vcd (n : Nat) (x : Tile) : (s.setTile n x).vcd = s.vcd := rfl
@[simp] theorem State.setTile_stn (n : Nat) (x : Tile) : (s.setTile n x).stn = s.stn := rfl
@[simp] theorem State.setTile_vrd (n : Nat) (x : Tile) : (s.setTile n x).vrd = s.vrd := rfl
@[simp] theorem State.setTile_merge (n : Nat) (x : Tile) : (s.setTile n x).merge = s.merge := rfl
@[simp] theorem State.setTile_pair (n : Nat) (x : Tile) : (s.setTile n x).pair = s.pair := rfl
@[simp] theorem State.setTile_olp (n : Nat) (x : Tile) : (s.setTile n x).olp = s.olp := rfl
@[simp] theorem State.setTile_pwr (n : Nat) (x : Tile) : (s.setTile n x).pwr = s.pwr := rfl
@[simp] theorem State.setTile_mon (n : Nat) (x : Tile) : (s.setTile n x).mon = s.mon := rfl
@[simp] theorem State.setTile_out (n : Nat) (x : Tile) : (s.setTile n x).out = s.out := rfl
@[simp] theorem State.setTile_reg (n : Nat) (x : Tile) (k : Nat) : (s.setTile n x).reg k = s.reg k := rfl

/-! ### setHub -/
@[simp] theorem State.setHub_pending (c : Nat) (x : Hub) : (s.setHub c x).pending = s.pending := rfl
@[simp] theorem State.setHub_free (c : Nat) (x : Hub) : (s.setHub c x).free = s.free := rfl
@[simp] theorem State.setHub_regs (c : Nat) (x : Hub) : (s.setHub c x).regs = s.regs := rfl
@[simp] theorem State.setHub_nv (c : Nat) (x : Hub) : (s.setHub c x).nv = s.nv := rfl
@[simp] theorem State.setHub_aon (c : Nat) (x : Hub) : (s.setHub c x).aon = s.aon := rfl
@[simp] theorem State.setHub_hif (c : Nat) (x : Hub) : (s.setHub c x).hif = s.hif := rfl
@[simp] theorem State.setHub_sec (c : Nat) (x : Hub) : (s.setHub c x).sec = s.sec := rfl
@[simp] theorem State.setHub_mem (c : Nat) (x : Hub) : (s.setHub c x).mem = s.mem := rfl
@[simp] theorem State.setHub_kv (c : Nat) (x : Hub) : (s.setHub c x).kv = s.kv := rfl
@[simp] theorem State.setHub_vcd (c : Nat) (x : Hub) : (s.setHub c x).vcd = s.vcd := rfl
@[simp] theorem State.setHub_stn (c : Nat) (x : Hub) : (s.setHub c x).stn = s.stn := rfl
@[simp] theorem State.setHub_vrd (c : Nat) (x : Hub) : (s.setHub c x).vrd = s.vrd := rfl
@[simp] theorem State.setHub_merge (c : Nat) (x : Hub) : (s.setHub c x).merge = s.merge := rfl
@[simp] theorem State.setHub_pair (c : Nat) (x : Hub) : (s.setHub c x).pair = s.pair := rfl
@[simp] theorem State.setHub_olp (c : Nat) (x : Hub) : (s.setHub c x).olp = s.olp := rfl
@[simp] theorem State.setHub_pwr (c : Nat) (x : Hub) : (s.setHub c x).pwr = s.pwr := rfl
@[simp] theorem State.setHub_mon (c : Nat) (x : Hub) : (s.setHub c x).mon = s.mon := rfl
@[simp] theorem State.setHub_out (c : Nat) (x : Hub) : (s.setHub c x).out = s.out := rfl
@[simp] theorem State.setHub_reg (c : Nat) (x : Hub) (k : Nat) : (s.setHub c x).reg k = s.reg k := rfl

/-! ### setRing -/
@[simp] theorem State.setRing_pending (r : Nat) (x : Ring) : (s.setRing r x).pending = s.pending := rfl
@[simp] theorem State.setRing_free (r : Nat) (x : Ring) : (s.setRing r x).free = s.free := rfl
@[simp] theorem State.setRing_regs (r : Nat) (x : Ring) : (s.setRing r x).regs = s.regs := rfl
@[simp] theorem State.setRing_nv (r : Nat) (x : Ring) : (s.setRing r x).nv = s.nv := rfl
@[simp] theorem State.setRing_aon (r : Nat) (x : Ring) : (s.setRing r x).aon = s.aon := rfl
@[simp] theorem State.setRing_sec (r : Nat) (x : Ring) : (s.setRing r x).sec = s.sec := rfl
@[simp] theorem State.setRing_mem (r : Nat) (x : Ring) : (s.setRing r x).mem = s.mem := rfl
@[simp] theorem State.setRing_arr (r : Nat) (x : Ring) : (s.setRing r x).arr = s.arr := rfl
@[simp] theorem State.setRing_kv (r : Nat) (x : Ring) : (s.setRing r x).kv = s.kv := rfl
@[simp] theorem State.setRing_vcd (r : Nat) (x : Ring) : (s.setRing r x).vcd = s.vcd := rfl
@[simp] theorem State.setRing_stn (r : Nat) (x : Ring) : (s.setRing r x).stn = s.stn := rfl
@[simp] theorem State.setRing_vrd (r : Nat) (x : Ring) : (s.setRing r x).vrd = s.vrd := rfl
@[simp] theorem State.setRing_merge (r : Nat) (x : Ring) : (s.setRing r x).merge = s.merge := rfl
@[simp] theorem State.setRing_pair (r : Nat) (x : Ring) : (s.setRing r x).pair = s.pair := rfl
@[simp] theorem State.setRing_olp (r : Nat) (x : Ring) : (s.setRing r x).olp = s.olp := rfl
@[simp] theorem State.setRing_pwr (r : Nat) (x : Ring) : (s.setRing r x).pwr = s.pwr := rfl
@[simp] theorem State.setRing_mon (r : Nat) (x : Ring) : (s.setRing r x).mon = s.mon := rfl
@[simp] theorem State.setRing_out (r : Nat) (x : Ring) : (s.setRing r x).out = s.out := rfl
@[simp] theorem State.setRing_reg (r : Nat) (x : Ring) (k : Nat) : (s.setRing r x).reg k = s.reg k := rfl

/-! ### setSeq -/
@[simp] theorem State.setSeq_pending (q : Nat) (x : Seq) : (s.setSeq q x).pending = s.pending := rfl
@[simp] theorem State.setSeq_free (q : Nat) (x : Seq) : (s.setSeq q x).free = s.free := rfl
@[simp] theorem State.setSeq_regs (q : Nat) (x : Seq) : (s.setSeq q x).regs = s.regs := rfl
@[simp] theorem State.setSeq_nv (q : Nat) (x : Seq) : (s.setSeq q x).nv = s.nv := rfl
@[simp] theorem State.setSeq_aon (q : Nat) (x : Seq) : (s.setSeq q x).aon = s.aon := rfl
@[simp] theorem State.setSeq_hif (q : Nat) (x : Seq) : (s.setSeq q x).hif = s.hif := rfl
@[simp] theorem State.setSeq_sec (q : Nat) (x : Seq) : (s.setSeq q x).sec = s.sec := rfl
@[simp] theorem State.setSeq_mem (q : Nat) (x : Seq) : (s.setSeq q x).mem = s.mem := rfl
@[simp] theorem State.setSeq_arr (q : Nat) (x : Seq) : (s.setSeq q x).arr = s.arr := rfl
@[simp] theorem State.setSeq_vcd (q : Nat) (x : Seq) : (s.setSeq q x).vcd = s.vcd := rfl
@[simp] theorem State.setSeq_stn (q : Nat) (x : Seq) : (s.setSeq q x).stn = s.stn := rfl
@[simp] theorem State.setSeq_vrd (q : Nat) (x : Seq) : (s.setSeq q x).vrd = s.vrd := rfl
@[simp] theorem State.setSeq_merge (q : Nat) (x : Seq) : (s.setSeq q x).merge = s.merge := rfl
@[simp] theorem State.setSeq_pair (q : Nat) (x : Seq) : (s.setSeq q x).pair = s.pair := rfl
@[simp] theorem State.setSeq_olp (q : Nat) (x : Seq) : (s.setSeq q x).olp = s.olp := rfl
@[simp] theorem State.setSeq_pwr (q : Nat) (x : Seq) : (s.setSeq q x).pwr = s.pwr := rfl
@[simp] theorem State.setSeq_mon (q : Nat) (x : Seq) : (s.setSeq q x).mon = s.mon := rfl
@[simp] theorem State.setSeq_out (q : Nat) (x : Seq) : (s.setSeq q x).out = s.out := rfl
@[simp] theorem State.setSeq_reg (q : Nat) (x : Seq) (k : Nat) : (s.setSeq q x).reg k = s.reg k := rfl

/-! ### setFrame -/
@[simp] theorem State.setFrame_pending (f : Nat) (x : Frame) : (s.setFrame f x).pending = s.pending := rfl
@[simp] theorem State.setFrame_free (f : Nat) (x : Frame) : (s.setFrame f x).free = s.free := rfl
@[simp] theorem State.setFrame_regs (f : Nat) (x : Frame) : (s.setFrame f x).regs = s.regs := rfl
@[simp] theorem State.setFrame_nv (f : Nat) (x : Frame) : (s.setFrame f x).nv = s.nv := rfl
@[simp] theorem State.setFrame_aon (f : Nat) (x : Frame) : (s.setFrame f x).aon = s.aon := rfl
@[simp] theorem State.setFrame_hif (f : Nat) (x : Frame) : (s.setFrame f x).hif = s.hif := rfl
@[simp] theorem State.setFrame_sec (f : Nat) (x : Frame) : (s.setFrame f x).sec = s.sec := rfl
@[simp] theorem State.setFrame_mem (f : Nat) (x : Frame) : (s.setFrame f x).mem = s.mem := rfl
@[simp] theorem State.setFrame_arr (f : Nat) (x : Frame) : (s.setFrame f x).arr = s.arr := rfl
@[simp] theorem State.setFrame_vcd (f : Nat) (x : Frame) : (s.setFrame f x).vcd = s.vcd := rfl
@[simp] theorem State.setFrame_stn (f : Nat) (x : Frame) : (s.setFrame f x).stn = s.stn := rfl
@[simp] theorem State.setFrame_vrd (f : Nat) (x : Frame) : (s.setFrame f x).vrd = s.vrd := rfl
@[simp] theorem State.setFrame_merge (f : Nat) (x : Frame) : (s.setFrame f x).merge = s.merge := rfl
@[simp] theorem State.setFrame_pair (f : Nat) (x : Frame) : (s.setFrame f x).pair = s.pair := rfl
@[simp] theorem State.setFrame_olp (f : Nat) (x : Frame) : (s.setFrame f x).olp = s.olp := rfl
@[simp] theorem State.setFrame_pwr (f : Nat) (x : Frame) : (s.setFrame f x).pwr = s.pwr := rfl
@[simp] theorem State.setFrame_mon (f : Nat) (x : Frame) : (s.setFrame f x).mon = s.mon := rfl
@[simp] theorem State.setFrame_out (f : Nat) (x : Frame) : (s.setFrame f x).out = s.out := rfl
@[simp] theorem State.setFrame_reg (f : Nat) (x : Frame) (k : Nat) : (s.setFrame f x).reg k = s.reg k := rfl

/-! ### bwAdd -/
@[simp] theorem State.bwAdd_pending (p n : Nat) : (s.bwAdd p n).pending = s.pending := rfl
@[simp] theorem State.bwAdd_free (p n : Nat) : (s.bwAdd p n).free = s.free := rfl
@[simp] theorem State.bwAdd_regs (p n : Nat) : (s.bwAdd p n).regs = s.regs := rfl
@[simp] theorem State.bwAdd_nv (p n : Nat) : (s.bwAdd p n).nv = s.nv := rfl
@[simp] theorem State.bwAdd_aon (p n : Nat) : (s.bwAdd p n).aon = s.aon := rfl
@[simp] theorem State.bwAdd_hif (p n : Nat) : (s.bwAdd p n).hif = s.hif := rfl
@[simp] theorem State.bwAdd_sec (p n : Nat) : (s.bwAdd p n).sec = s.sec := rfl
@[simp] theorem State.bwAdd_mem (p n : Nat) : (s.bwAdd p n).mem = s.mem := rfl
@[simp] theorem State.bwAdd_arr (p n : Nat) : (s.bwAdd p n).arr = s.arr := rfl
@[simp] theorem State.bwAdd_kv (p n : Nat) : (s.bwAdd p n).kv = s.kv := rfl
@[simp] theorem State.bwAdd_vcd (p n : Nat) : (s.bwAdd p n).vcd = s.vcd := rfl
@[simp] theorem State.bwAdd_stn (p n : Nat) : (s.bwAdd p n).stn = s.stn := rfl
@[simp] theorem State.bwAdd_vrd (p n : Nat) : (s.bwAdd p n).vrd = s.vrd := rfl
@[simp] theorem State.bwAdd_merge (p n : Nat) : (s.bwAdd p n).merge = s.merge := rfl
@[simp] theorem State.bwAdd_pair (p n : Nat) : (s.bwAdd p n).pair = s.pair := rfl
@[simp] theorem State.bwAdd_olp (p n : Nat) : (s.bwAdd p n).olp = s.olp := rfl
@[simp] theorem State.bwAdd_pwr (p n : Nat) : (s.bwAdd p n).pwr = s.pwr := rfl
@[simp] theorem State.bwAdd_out (p n : Nat) : (s.bwAdd p n).out = s.out := rfl
@[simp] theorem State.bwAdd_reg (p n : Nat) (k : Nat) : (s.bwAdd p n).reg k = s.reg k := rfl

/-! ### setPort -/
@[simp] theorem State.setPort_pending (p : Nat) (x : Port) : (s.setPort p x).pending = s.pending := rfl
@[simp] theorem State.setPort_free (p : Nat) (x : Port) : (s.setPort p x).free = s.free := rfl
@[simp] theorem State.setPort_regs (p : Nat) (x : Port) : (s.setPort p x).regs = s.regs := rfl
@[simp] theorem State.setPort_nv (p : Nat) (x : Port) : (s.setPort p x).nv = s.nv := rfl
@[simp] theorem State.setPort_aon (p : Nat) (x : Port) : (s.setPort p x).aon = s.aon := rfl
@[simp] theorem State.setPort_hif (p : Nat) (x : Port) : (s.setPort p x).hif = s.hif := rfl
@[simp] theorem State.setPort_sec (p : Nat) (x : Port) : (s.setPort p x).sec = s.sec := rfl
@[simp] theorem State.setPort_mem (p : Nat) (x : Port) : (s.setPort p x).mem = s.mem := rfl
@[simp] theorem State.setPort_arr (p : Nat) (x : Port) : (s.setPort p x).arr = s.arr := rfl
@[simp] theorem State.setPort_kv (p : Nat) (x : Port) : (s.setPort p x).kv = s.kv := rfl
@[simp] theorem State.setPort_vcd (p : Nat) (x : Port) : (s.setPort p x).vcd = s.vcd := rfl
@[simp] theorem State.setPort_stn (p : Nat) (x : Port) : (s.setPort p x).stn = s.stn := rfl
@[simp] theorem State.setPort_vrd (p : Nat) (x : Port) : (s.setPort p x).vrd = s.vrd := rfl
@[simp] theorem State.setPort_merge (p : Nat) (x : Port) : (s.setPort p x).merge = s.merge := rfl
@[simp] theorem State.setPort_pair (p : Nat) (x : Port) : (s.setPort p x).pair = s.pair := rfl
@[simp] theorem State.setPort_pwr (p : Nat) (x : Port) : (s.setPort p x).pwr = s.pwr := rfl
@[simp] theorem State.setPort_mon (p : Nat) (x : Port) : (s.setPort p x).mon = s.mon := rfl
@[simp] theorem State.setPort_out (p : Nat) (x : Port) : (s.setPort p x).out = s.out := rfl
@[simp] theorem State.setPort_reg (p : Nat) (x : Port) (k : Nat) : (s.setPort p x).reg k = s.reg k := rfl

/-! ### setCfg -/
@[simp] theorem State.setCfg_pending (fn o : Nat) (v : W32) : (s.setCfg fn o v).pending = s.pending := rfl
@[simp] theorem State.setCfg_free (fn o : Nat) (v : W32) : (s.setCfg fn o v).free = s.free := rfl
@[simp] theorem State.setCfg_regs (fn o : Nat) (v : W32) : (s.setCfg fn o v).regs = s.regs := rfl
@[simp] theorem State.setCfg_nv (fn o : Nat) (v : W32) : (s.setCfg fn o v).nv = s.nv := rfl
@[simp] theorem State.setCfg_aon (fn o : Nat) (v : W32) : (s.setCfg fn o v).aon = s.aon := rfl
@[simp] theorem State.setCfg_sec (fn o : Nat) (v : W32) : (s.setCfg fn o v).sec = s.sec := rfl
@[simp] theorem State.setCfg_mem (fn o : Nat) (v : W32) : (s.setCfg fn o v).mem = s.mem := rfl
@[simp] theorem State.setCfg_arr (fn o : Nat) (v : W32) : (s.setCfg fn o v).arr = s.arr := rfl
@[simp] theorem State.setCfg_kv (fn o : Nat) (v : W32) : (s.setCfg fn o v).kv = s.kv := rfl
@[simp] theorem State.setCfg_vcd (fn o : Nat) (v : W32) : (s.setCfg fn o v).vcd = s.vcd := rfl
@[simp] theorem State.setCfg_stn (fn o : Nat) (v : W32) : (s.setCfg fn o v).stn = s.stn := rfl
@[simp] theorem State.setCfg_vrd (fn o : Nat) (v : W32) : (s.setCfg fn o v).vrd = s.vrd := rfl
@[simp] theorem State.setCfg_merge (fn o : Nat) (v : W32) : (s.setCfg fn o v).merge = s.merge := rfl
@[simp] theorem State.setCfg_pair (fn o : Nat) (v : W32) : (s.setCfg fn o v).pair = s.pair := rfl
@[simp] theorem State.setCfg_olp (fn o : Nat) (v : W32) : (s.setCfg fn o v).olp = s.olp := rfl
@[simp] theorem State.setCfg_pwr (fn o : Nat) (v : W32) : (s.setCfg fn o v).pwr = s.pwr := rfl
@[simp] theorem State.setCfg_mon (fn o : Nat) (v : W32) : (s.setCfg fn o v).mon = s.mon := rfl
@[simp] theorem State.setCfg_out (fn o : Nat) (v : W32) : (s.setCfg fn o v).out = s.out := rfl
@[simp] theorem State.setCfg_reg (fn o : Nat) (v : W32) (k : Nat) : (s.setCfg fn o v).reg k = s.reg k := rfl
@[simp] theorem State.setCfg_ring (fn o : Nat) (v : W32) (k : Nat) : (s.setCfg fn o v).ring k = s.ring k := rfl

/-! ### Units and derived readings -/
@[simp] theorem State.setReg_ring (o : Nat) (w : W64) (j : Nat) : (s.setReg o w).ring j = s.ring j := rfl
@[simp] theorem State.setReg_part (o : Nat) (w : W64) (j : Nat) : (s.setReg o w).part j = s.part j := rfl
@[simp] theorem State.setReg_ctx (o : Nat) (w : W64) (j : Nat) : (s.setReg o w).ctx j = s.ctx j := rfl
@[simp] theorem State.setReg_seq (o : Nat) (w : W64) (j : Nat) : (s.setReg o w).seq j = s.seq j := rfl
@[simp] theorem State.setReg_frame (o : Nat) (w : W64) (j : Nat) : (s.setReg o w).frame j = s.frame j := rfl
@[simp] theorem State.setReg_bankSt (o : Nat) (w : W64) (j : Nat) : (s.setReg o w).bankSt j = s.bankSt j := rfl
@[simp] theorem State.setReg_tile (o : Nat) (w : W64) (j : Nat) : (s.setReg o w).tile j = s.tile j := rfl
@[simp] theorem State.setReg_hub (o : Nat) (w : W64) (j : Nat) : (s.setReg o w).hub j = s.hub j := rfl
@[simp] theorem State.setReg_port (o : Nat) (w : W64) (j : Nat) : (s.setReg o w).port j = s.port j := rfl
@[simp] theorem State.clearReg_ring (o : Nat) (j : Nat) : (s.clearReg o).ring j = s.ring j := rfl
@[simp] theorem State.clearReg_part (o : Nat) (j : Nat) : (s.clearReg o).part j = s.part j := rfl
@[simp] theorem State.clearReg_ctx (o : Nat) (j : Nat) : (s.clearReg o).ctx j = s.ctx j := rfl
@[simp] theorem State.clearReg_seq (o : Nat) (j : Nat) : (s.clearReg o).seq j = s.seq j := rfl
@[simp] theorem State.clearReg_frame (o : Nat) (j : Nat) : (s.clearReg o).frame j = s.frame j := rfl
@[simp] theorem State.clearReg_bankSt (o : Nat) (j : Nat) : (s.clearReg o).bankSt j = s.bankSt j := rfl
@[simp] theorem State.clearReg_tile (o : Nat) (j : Nat) : (s.clearReg o).tile j = s.tile j := rfl
@[simp] theorem State.clearReg_hub (o : Nat) (j : Nat) : (s.clearReg o).hub j = s.hub j := rfl
@[simp] theorem State.clearReg_port (o : Nat) (j : Nat) : (s.clearReg o).port j = s.port j := rfl
@[simp] theorem State.clearRange_ring (a b : Nat) (j : Nat) : (s.clearRange a b).ring j = s.ring j := rfl
@[simp] theorem State.clearRange_part (a b : Nat) (j : Nat) : (s.clearRange a b).part j = s.part j := rfl
@[simp] theorem State.clearRange_ctx (a b : Nat) (j : Nat) : (s.clearRange a b).ctx j = s.ctx j := rfl
@[simp] theorem State.clearRange_seq (a b : Nat) (j : Nat) : (s.clearRange a b).seq j = s.seq j := rfl
@[simp] theorem State.clearRange_frame (a b : Nat) (j : Nat) : (s.clearRange a b).frame j = s.frame j := rfl
@[simp] theorem State.clearRange_bankSt (a b : Nat) (j : Nat) : (s.clearRange a b).bankSt j = s.bankSt j := rfl
@[simp] theorem State.clearRange_tile (a b : Nat) (j : Nat) : (s.clearRange a b).tile j = s.tile j := rfl
@[simp] theorem State.clearRange_hub (a b : Nat) (j : Nat) : (s.clearRange a b).hub j = s.hub j := rfl
@[simp] theorem State.clearRange_port (a b : Nat) (j : Nat) : (s.clearRange a b).port j = s.port j := rfl
@[simp] theorem State.setFld_ring (o : Nat) (b : Bits) (v : Nat) (j : Nat) : (s.setFld o b v).ring j = s.ring j := rfl
@[simp] theorem State.setFld_part (o : Nat) (b : Bits) (v : Nat) (j : Nat) : (s.setFld o b v).part j = s.part j := rfl
@[simp] theorem State.setFld_ctx (o : Nat) (b : Bits) (v : Nat) (j : Nat) : (s.setFld o b v).ctx j = s.ctx j := rfl
@[simp] theorem State.setFld_seq (o : Nat) (b : Bits) (v : Nat) (j : Nat) : (s.setFld o b v).seq j = s.seq j := rfl
@[simp] theorem State.setFld_frame (o : Nat) (b : Bits) (v : Nat) (j : Nat) : (s.setFld o b v).frame j = s.frame j := rfl
@[simp] theorem State.setFld_bankSt (o : Nat) (b : Bits) (v : Nat) (j : Nat) : (s.setFld o b v).bankSt j = s.bankSt j := rfl
@[simp] theorem State.setFld_tile (o : Nat) (b : Bits) (v : Nat) (j : Nat) : (s.setFld o b v).tile j = s.tile j := rfl
@[simp] theorem State.setFld_hub (o : Nat) (b : Bits) (v : Nat) (j : Nat) : (s.setFld o b v).hub j = s.hub j := rfl
@[simp] theorem State.setFld_port (o : Nat) (b : Bits) (v : Nat) (j : Nat) : (s.setFld o b v).port j = s.port j := rfl
@[simp] theorem State.setBit_ring (o : Nat) (b : Bits) (v : Bool) (j : Nat) : (s.setBit o b v).ring j = s.ring j := rfl
@[simp] theorem State.setBit_part (o : Nat) (b : Bits) (v : Bool) (j : Nat) : (s.setBit o b v).part j = s.part j := rfl
@[simp] theorem State.setBit_ctx (o : Nat) (b : Bits) (v : Bool) (j : Nat) : (s.setBit o b v).ctx j = s.ctx j := rfl
@[simp] theorem State.setBit_seq (o : Nat) (b : Bits) (v : Bool) (j : Nat) : (s.setBit o b v).seq j = s.seq j := rfl
@[simp] theorem State.setBit_frame (o : Nat) (b : Bits) (v : Bool) (j : Nat) : (s.setBit o b v).frame j = s.frame j := rfl
@[simp] theorem State.setBit_bankSt (o : Nat) (b : Bits) (v : Bool) (j : Nat) : (s.setBit o b v).bankSt j = s.bankSt j := rfl
@[simp] theorem State.setBit_tile (o : Nat) (b : Bits) (v : Bool) (j : Nat) : (s.setBit o b v).tile j = s.tile j := rfl
@[simp] theorem State.setBit_hub (o : Nat) (b : Bits) (v : Bool) (j : Nat) : (s.setBit o b v).hub j = s.hub j := rfl
@[simp] theorem State.setBit_port (o : Nat) (b : Bits) (v : Bool) (j : Nat) : (s.setBit o b v).port j = s.port j := rfl
@[simp] theorem State.addSat_ring (o : Nat) (b : Bits) (n : Nat) (j : Nat) : (s.addSat o b n).ring j = s.ring j := rfl
@[simp] theorem State.addSat_part (o : Nat) (b : Bits) (n : Nat) (j : Nat) : (s.addSat o b n).part j = s.part j := rfl
@[simp] theorem State.addSat_ctx (o : Nat) (b : Bits) (n : Nat) (j : Nat) : (s.addSat o b n).ctx j = s.ctx j := rfl
@[simp] theorem State.addSat_seq (o : Nat) (b : Bits) (n : Nat) (j : Nat) : (s.addSat o b n).seq j = s.seq j := rfl
@[simp] theorem State.addSat_frame (o : Nat) (b : Bits) (n : Nat) (j : Nat) : (s.addSat o b n).frame j = s.frame j := rfl
@[simp] theorem State.addSat_bankSt (o : Nat) (b : Bits) (n : Nat) (j : Nat) : (s.addSat o b n).bankSt j = s.bankSt j := rfl
@[simp] theorem State.addSat_tile (o : Nat) (b : Bits) (n : Nat) (j : Nat) : (s.addSat o b n).tile j = s.tile j := rfl
@[simp] theorem State.addSat_hub (o : Nat) (b : Bits) (n : Nat) (j : Nat) : (s.addSat o b n).hub j = s.hub j := rfl
@[simp] theorem State.addSat_port (o : Nat) (b : Bits) (n : Nat) (j : Nat) : (s.addSat o b n).port j = s.port j := rfl
@[simp] theorem State.addWrap_ring (o : Nat) (b : Bits) (n : Nat) (j : Nat) : (s.addWrap o b n).ring j = s.ring j := rfl
@[simp] theorem State.addWrap_part (o : Nat) (b : Bits) (n : Nat) (j : Nat) : (s.addWrap o b n).part j = s.part j := rfl
@[simp] theorem State.addWrap_ctx (o : Nat) (b : Bits) (n : Nat) (j : Nat) : (s.addWrap o b n).ctx j = s.ctx j := rfl
@[simp] theorem State.addWrap_seq (o : Nat) (b : Bits) (n : Nat) (j : Nat) : (s.addWrap o b n).seq j = s.seq j := rfl
@[simp] theorem State.addWrap_frame (o : Nat) (b : Bits) (n : Nat) (j : Nat) : (s.addWrap o b n).frame j = s.frame j := rfl
@[simp] theorem State.addWrap_bankSt (o : Nat) (b : Bits) (n : Nat) (j : Nat) : (s.addWrap o b n).bankSt j = s.bankSt j := rfl
@[simp] theorem State.addWrap_tile (o : Nat) (b : Bits) (n : Nat) (j : Nat) : (s.addWrap o b n).tile j = s.tile j := rfl
@[simp] theorem State.addWrap_hub (o : Nat) (b : Bits) (n : Nat) (j : Nat) : (s.addWrap o b n).hub j = s.hub j := rfl
@[simp] theorem State.addWrap_port (o : Nat) (b : Bits) (n : Nat) (j : Nat) : (s.addWrap o b n).port j = s.port j := rfl
@[simp] theorem State.setMaskBit_ring (o : Nat) (b : Bits) (i : Nat) (v : Bool) (j : Nat) : (s.setMaskBit o b i v).ring j = s.ring j := rfl
@[simp] theorem State.setMaskBit_part (o : Nat) (b : Bits) (i : Nat) (v : Bool) (j : Nat) : (s.setMaskBit o b i v).part j = s.part j := rfl
@[simp] theorem State.setMaskBit_ctx (o : Nat) (b : Bits) (i : Nat) (v : Bool) (j : Nat) : (s.setMaskBit o b i v).ctx j = s.ctx j := rfl
@[simp] theorem State.setMaskBit_seq (o : Nat) (b : Bits) (i : Nat) (v : Bool) (j : Nat) : (s.setMaskBit o b i v).seq j = s.seq j := rfl
@[simp] theorem State.setMaskBit_frame (o : Nat) (b : Bits) (i : Nat) (v : Bool) (j : Nat) : (s.setMaskBit o b i v).frame j = s.frame j := rfl
@[simp] theorem State.setMaskBit_bankSt (o : Nat) (b : Bits) (i : Nat) (v : Bool) (j : Nat) : (s.setMaskBit o b i v).bankSt j = s.bankSt j := rfl
@[simp] theorem State.setMaskBit_tile (o : Nat) (b : Bits) (i : Nat) (v : Bool) (j : Nat) : (s.setMaskBit o b i v).tile j = s.tile j := rfl
@[simp] theorem State.setMaskBit_hub (o : Nat) (b : Bits) (i : Nat) (v : Bool) (j : Nat) : (s.setMaskBit o b i v).hub j = s.hub j := rfl
@[simp] theorem State.setMaskBit_port (o : Nat) (b : Bits) (i : Nat) (v : Bool) (j : Nat) : (s.setMaskBit o b i v).port j = s.port j := rfl
@[simp] theorem State.emit_ring (x : Out) (j : Nat) : (s.emit x).ring j = s.ring j := rfl
@[simp] theorem State.emit_part (x : Out) (j : Nat) : (s.emit x).part j = s.part j := rfl
@[simp] theorem State.emit_ctx (x : Out) (j : Nat) : (s.emit x).ctx j = s.ctx j := rfl
@[simp] theorem State.emit_seq (x : Out) (j : Nat) : (s.emit x).seq j = s.seq j := rfl
@[simp] theorem State.emit_frame (x : Out) (j : Nat) : (s.emit x).frame j = s.frame j := rfl
@[simp] theorem State.emit_bankSt (x : Out) (j : Nat) : (s.emit x).bankSt j = s.bankSt j := rfl
@[simp] theorem State.emit_tile (x : Out) (j : Nat) : (s.emit x).tile j = s.tile j := rfl
@[simp] theorem State.emit_hub (x : Out) (j : Nat) : (s.emit x).hub j = s.hub j := rfl
@[simp] theorem State.emit_port (x : Out) (j : Nat) : (s.emit x).port j = s.port j := rfl
@[simp] theorem State.emit_servingFn (x : Out) (j : Nat) : (s.emit x).servingFn j = s.servingFn j := rfl
@[simp] theorem State.emit_linkUp (x : Out) : (s.emit x).linkUp = s.linkUp := rfl
@[simp] theorem State.emit_vfServed (x : Out) (j : Nat) : (s.emit x).vfServed j = s.vfServed j := rfl
@[simp] theorem State.emit_now (x : Out) : (s.emit x).now = s.now := rfl
@[simp] theorem State.log_ring (c a : Nat) (j : Nat) : (s.log c a).ring j = s.ring j := rfl
@[simp] theorem State.log_part (c a : Nat) (j : Nat) : (s.log c a).part j = s.part j := rfl
@[simp] theorem State.log_ctx (c a : Nat) (j : Nat) : (s.log c a).ctx j = s.ctx j := rfl
@[simp] theorem State.log_seq (c a : Nat) (j : Nat) : (s.log c a).seq j = s.seq j := rfl
@[simp] theorem State.log_frame (c a : Nat) (j : Nat) : (s.log c a).frame j = s.frame j := rfl
@[simp] theorem State.log_bankSt (c a : Nat) (j : Nat) : (s.log c a).bankSt j = s.bankSt j := rfl
@[simp] theorem State.log_tile (c a : Nat) (j : Nat) : (s.log c a).tile j = s.tile j := rfl
@[simp] theorem State.log_hub (c a : Nat) (j : Nat) : (s.log c a).hub j = s.hub j := rfl
@[simp] theorem State.log_port (c a : Nat) (j : Nat) : (s.log c a).port j = s.port j := rfl
@[simp] theorem State.log_servingFn (c a : Nat) (j : Nat) : (s.log c a).servingFn j = s.servingFn j := rfl
@[simp] theorem State.log_linkUp (c a : Nat) : (s.log c a).linkUp = s.linkUp := rfl
@[simp] theorem State.log_vfServed (c a : Nat) (j : Nat) : (s.log c a).vfServed j = s.vfServed j := rfl
@[simp] theorem State.log_now (c a : Nat) : (s.log c a).now = s.now := rfl
@[simp] theorem State.bump_ring (j : Nat) : (s.bump).ring j = s.ring j := rfl
@[simp] theorem State.bump_part (j : Nat) : (s.bump).part j = s.part j := rfl
@[simp] theorem State.bump_ctx (j : Nat) : (s.bump).ctx j = s.ctx j := rfl
@[simp] theorem State.bump_seq (j : Nat) : (s.bump).seq j = s.seq j := rfl
@[simp] theorem State.bump_frame (j : Nat) : (s.bump).frame j = s.frame j := rfl
@[simp] theorem State.bump_bankSt (j : Nat) : (s.bump).bankSt j = s.bankSt j := rfl
@[simp] theorem State.bump_tile (j : Nat) : (s.bump).tile j = s.tile j := rfl
@[simp] theorem State.bump_hub (j : Nat) : (s.bump).hub j = s.hub j := rfl
@[simp] theorem State.bump_port (j : Nat) : (s.bump).port j = s.port j := rfl
@[simp] theorem State.bump_servingFn (j : Nat) : (s.bump).servingFn j = s.servingFn j := rfl
@[simp] theorem State.bump_linkUp : (s.bump).linkUp = s.linkUp := rfl
@[simp] theorem State.bump_vfServed (j : Nat) : (s.bump).vfServed j = s.vfServed j := rfl
@[simp] theorem State.bump_now : (s.bump).now = s.now := rfl
@[simp] theorem State.takeDraws_ring (n : Nat) (j : Nat) : (s.takeDraws n).ring j = s.ring j := rfl
@[simp] theorem State.takeDraws_part (n : Nat) (j : Nat) : (s.takeDraws n).part j = s.part j := rfl
@[simp] theorem State.takeDraws_ctx (n : Nat) (j : Nat) : (s.takeDraws n).ctx j = s.ctx j := rfl
@[simp] theorem State.takeDraws_seq (n : Nat) (j : Nat) : (s.takeDraws n).seq j = s.seq j := rfl
@[simp] theorem State.takeDraws_frame (n : Nat) (j : Nat) : (s.takeDraws n).frame j = s.frame j := rfl
@[simp] theorem State.takeDraws_bankSt (n : Nat) (j : Nat) : (s.takeDraws n).bankSt j = s.bankSt j := rfl
@[simp] theorem State.takeDraws_tile (n : Nat) (j : Nat) : (s.takeDraws n).tile j = s.tile j := rfl
@[simp] theorem State.takeDraws_hub (n : Nat) (j : Nat) : (s.takeDraws n).hub j = s.hub j := rfl
@[simp] theorem State.takeDraws_port (n : Nat) (j : Nat) : (s.takeDraws n).port j = s.port j := rfl
@[simp] theorem State.takeDraws_servingFn (n : Nat) (j : Nat) : (s.takeDraws n).servingFn j = s.servingFn j := rfl
@[simp] theorem State.takeDraws_linkUp (n : Nat) : (s.takeDraws n).linkUp = s.linkUp := rfl
@[simp] theorem State.takeDraws_vfServed (n : Nat) (j : Nat) : (s.takeDraws n).vfServed j = s.vfServed j := rfl
@[simp] theorem State.takeDraws_now (n : Nat) : (s.takeDraws n).now = s.now := rfl
@[simp] theorem State.setCtx_ring (c : Nat) (x : Ctx) (j : Nat) : (s.setCtx c x).ring j = s.ring j := rfl
@[simp] theorem State.setCtx_seq (c : Nat) (x : Ctx) (j : Nat) : (s.setCtx c x).seq j = s.seq j := rfl
@[simp] theorem State.setCtx_frame (c : Nat) (x : Ctx) (j : Nat) : (s.setCtx c x).frame j = s.frame j := rfl
@[simp] theorem State.setCtx_bankSt (c : Nat) (x : Ctx) (j : Nat) : (s.setCtx c x).bankSt j = s.bankSt j := rfl
@[simp] theorem State.setCtx_tile (c : Nat) (x : Ctx) (j : Nat) : (s.setCtx c x).tile j = s.tile j := rfl
@[simp] theorem State.setCtx_hub (c : Nat) (x : Ctx) (j : Nat) : (s.setCtx c x).hub j = s.hub j := rfl
@[simp] theorem State.setCtx_port (c : Nat) (x : Ctx) (j : Nat) : (s.setCtx c x).port j = s.port j := rfl
@[simp] theorem State.setCtx_servingFn (c : Nat) (x : Ctx) (j : Nat) : (s.setCtx c x).servingFn j = s.servingFn j := rfl
@[simp] theorem State.setCtx_linkUp (c : Nat) (x : Ctx) : (s.setCtx c x).linkUp = s.linkUp := rfl
@[simp] theorem State.setCtx_vfServed (c : Nat) (x : Ctx) (j : Nat) : (s.setCtx c x).vfServed j = s.vfServed j := rfl
@[simp] theorem State.setCtx_now (c : Nat) (x : Ctx) : (s.setCtx c x).now = s.now := rfl
@[simp] theorem State.setPart_ring (p : Nat) (x : Part) (j : Nat) : (s.setPart p x).ring j = s.ring j := rfl
@[simp] theorem State.setPart_seq (p : Nat) (x : Part) (j : Nat) : (s.setPart p x).seq j = s.seq j := rfl
@[simp] theorem State.setPart_frame (p : Nat) (x : Part) (j : Nat) : (s.setPart p x).frame j = s.frame j := rfl
@[simp] theorem State.setPart_bankSt (p : Nat) (x : Part) (j : Nat) : (s.setPart p x).bankSt j = s.bankSt j := rfl
@[simp] theorem State.setPart_tile (p : Nat) (x : Part) (j : Nat) : (s.setPart p x).tile j = s.tile j := rfl
@[simp] theorem State.setPart_hub (p : Nat) (x : Part) (j : Nat) : (s.setPart p x).hub j = s.hub j := rfl
@[simp] theorem State.setPart_port (p : Nat) (x : Part) (j : Nat) : (s.setPart p x).port j = s.port j := rfl
@[simp] theorem State.setPart_servingFn (p : Nat) (x : Part) (j : Nat) : (s.setPart p x).servingFn j = s.servingFn j := rfl
@[simp] theorem State.setPart_linkUp (p : Nat) (x : Part) : (s.setPart p x).linkUp = s.linkUp := rfl
@[simp] theorem State.setPart_vfServed (p : Nat) (x : Part) (j : Nat) : (s.setPart p x).vfServed j = s.vfServed j := rfl
@[simp] theorem State.setPart_now (p : Nat) (x : Part) : (s.setPart p x).now = s.now := rfl
@[simp] theorem State.dramPut_ring (c a : Nat) (bs : List Byte) (j : Nat) : (s.dramPut c a bs).ring j = s.ring j := rfl
@[simp] theorem State.dramPut_part (c a : Nat) (bs : List Byte) (j : Nat) : (s.dramPut c a bs).part j = s.part j := rfl
@[simp] theorem State.dramPut_ctx (c a : Nat) (bs : List Byte) (j : Nat) : (s.dramPut c a bs).ctx j = s.ctx j := rfl
@[simp] theorem State.dramPut_seq (c a : Nat) (bs : List Byte) (j : Nat) : (s.dramPut c a bs).seq j = s.seq j := rfl
@[simp] theorem State.dramPut_frame (c a : Nat) (bs : List Byte) (j : Nat) : (s.dramPut c a bs).frame j = s.frame j := rfl
@[simp] theorem State.dramPut_bankSt (c a : Nat) (bs : List Byte) (j : Nat) : (s.dramPut c a bs).bankSt j = s.bankSt j := rfl
@[simp] theorem State.dramPut_tile (c a : Nat) (bs : List Byte) (j : Nat) : (s.dramPut c a bs).tile j = s.tile j := rfl
@[simp] theorem State.dramPut_hub (c a : Nat) (bs : List Byte) (j : Nat) : (s.dramPut c a bs).hub j = s.hub j := rfl
@[simp] theorem State.dramPut_port (c a : Nat) (bs : List Byte) (j : Nat) : (s.dramPut c a bs).port j = s.port j := rfl
@[simp] theorem State.dramPut_servingFn (c a : Nat) (bs : List Byte) (j : Nat) : (s.dramPut c a bs).servingFn j = s.servingFn j := rfl
@[simp] theorem State.dramPut_linkUp (c a : Nat) (bs : List Byte) : (s.dramPut c a bs).linkUp = s.linkUp := rfl
@[simp] theorem State.dramPut_vfServed (c a : Nat) (bs : List Byte) (j : Nat) : (s.dramPut c a bs).vfServed j = s.vfServed j := rfl
@[simp] theorem State.dramPut_now (c a : Nat) (bs : List Byte) : (s.dramPut c a bs).now = s.now := rfl
@[simp] theorem State.bankPut_ring (a : Nat) (bs : List Byte) (j : Nat) : (s.bankPut a bs).ring j = s.ring j := rfl
@[simp] theorem State.bankPut_part (a : Nat) (bs : List Byte) (j : Nat) : (s.bankPut a bs).part j = s.part j := rfl
@[simp] theorem State.bankPut_ctx (a : Nat) (bs : List Byte) (j : Nat) : (s.bankPut a bs).ctx j = s.ctx j := rfl
@[simp] theorem State.bankPut_seq (a : Nat) (bs : List Byte) (j : Nat) : (s.bankPut a bs).seq j = s.seq j := rfl
@[simp] theorem State.bankPut_frame (a : Nat) (bs : List Byte) (j : Nat) : (s.bankPut a bs).frame j = s.frame j := rfl
@[simp] theorem State.bankPut_bankSt (a : Nat) (bs : List Byte) (j : Nat) : (s.bankPut a bs).bankSt j = s.bankSt j := rfl
@[simp] theorem State.bankPut_tile (a : Nat) (bs : List Byte) (j : Nat) : (s.bankPut a bs).tile j = s.tile j := rfl
@[simp] theorem State.bankPut_hub (a : Nat) (bs : List Byte) (j : Nat) : (s.bankPut a bs).hub j = s.hub j := rfl
@[simp] theorem State.bankPut_port (a : Nat) (bs : List Byte) (j : Nat) : (s.bankPut a bs).port j = s.port j := rfl
@[simp] theorem State.bankPut_servingFn (a : Nat) (bs : List Byte) (j : Nat) : (s.bankPut a bs).servingFn j = s.servingFn j := rfl
@[simp] theorem State.bankPut_linkUp (a : Nat) (bs : List Byte) : (s.bankPut a bs).linkUp = s.linkUp := rfl
@[simp] theorem State.bankPut_vfServed (a : Nat) (bs : List Byte) (j : Nat) : (s.bankPut a bs).vfServed j = s.vfServed j := rfl
@[simp] theorem State.bankPut_now (a : Nat) (bs : List Byte) : (s.bankPut a bs).now = s.now := rfl
@[simp] theorem State.setBank_ring (g : Nat) (x : BankSt) (j : Nat) : (s.setBank g x).ring j = s.ring j := rfl
@[simp] theorem State.setBank_part (g : Nat) (x : BankSt) (j : Nat) : (s.setBank g x).part j = s.part j := rfl
@[simp] theorem State.setBank_ctx (g : Nat) (x : BankSt) (j : Nat) : (s.setBank g x).ctx j = s.ctx j := rfl
@[simp] theorem State.setBank_seq (g : Nat) (x : BankSt) (j : Nat) : (s.setBank g x).seq j = s.seq j := rfl
@[simp] theorem State.setBank_frame (g : Nat) (x : BankSt) (j : Nat) : (s.setBank g x).frame j = s.frame j := rfl
@[simp] theorem State.setBank_port (g : Nat) (x : BankSt) (j : Nat) : (s.setBank g x).port j = s.port j := rfl
@[simp] theorem State.setBank_servingFn (g : Nat) (x : BankSt) (j : Nat) : (s.setBank g x).servingFn j = s.servingFn j := rfl
@[simp] theorem State.setBank_linkUp (g : Nat) (x : BankSt) : (s.setBank g x).linkUp = s.linkUp := rfl
@[simp] theorem State.setBank_vfServed (g : Nat) (x : BankSt) (j : Nat) : (s.setBank g x).vfServed j = s.vfServed j := rfl
@[simp] theorem State.setBank_now (g : Nat) (x : BankSt) : (s.setBank g x).now = s.now := rfl
@[simp] theorem State.setTile_ring (n : Nat) (x : Tile) (j : Nat) : (s.setTile n x).ring j = s.ring j := rfl
@[simp] theorem State.setTile_part (n : Nat) (x : Tile) (j : Nat) : (s.setTile n x).part j = s.part j := rfl
@[simp] theorem State.setTile_ctx (n : Nat) (x : Tile) (j : Nat) : (s.setTile n x).ctx j = s.ctx j := rfl
@[simp] theorem State.setTile_seq (n : Nat) (x : Tile) (j : Nat) : (s.setTile n x).seq j = s.seq j := rfl
@[simp] theorem State.setTile_frame (n : Nat) (x : Tile) (j : Nat) : (s.setTile n x).frame j = s.frame j := rfl
@[simp] theorem State.setTile_port (n : Nat) (x : Tile) (j : Nat) : (s.setTile n x).port j = s.port j := rfl
@[simp] theorem State.setTile_servingFn (n : Nat) (x : Tile) (j : Nat) : (s.setTile n x).servingFn j = s.servingFn j := rfl
@[simp] theorem State.setTile_linkUp (n : Nat) (x : Tile) : (s.setTile n x).linkUp = s.linkUp := rfl
@[simp] theorem State.setTile_vfServed (n : Nat) (x : Tile) (j : Nat) : (s.setTile n x).vfServed j = s.vfServed j := rfl
@[simp] theorem State.setTile_now (n : Nat) (x : Tile) : (s.setTile n x).now = s.now := rfl
@[simp] theorem State.setHub_ring (c : Nat) (x : Hub) (j : Nat) : (s.setHub c x).ring j = s.ring j := rfl
@[simp] theorem State.setHub_part (c : Nat) (x : Hub) (j : Nat) : (s.setHub c x).part j = s.part j := rfl
@[simp] theorem State.setHub_ctx (c : Nat) (x : Hub) (j : Nat) : (s.setHub c x).ctx j = s.ctx j := rfl
@[simp] theorem State.setHub_seq (c : Nat) (x : Hub) (j : Nat) : (s.setHub c x).seq j = s.seq j := rfl
@[simp] theorem State.setHub_frame (c : Nat) (x : Hub) (j : Nat) : (s.setHub c x).frame j = s.frame j := rfl
@[simp] theorem State.setHub_port (c : Nat) (x : Hub) (j : Nat) : (s.setHub c x).port j = s.port j := rfl
@[simp] theorem State.setHub_servingFn (c : Nat) (x : Hub) (j : Nat) : (s.setHub c x).servingFn j = s.servingFn j := rfl
@[simp] theorem State.setHub_linkUp (c : Nat) (x : Hub) : (s.setHub c x).linkUp = s.linkUp := rfl
@[simp] theorem State.setHub_vfServed (c : Nat) (x : Hub) (j : Nat) : (s.setHub c x).vfServed j = s.vfServed j := rfl
@[simp] theorem State.setHub_now (c : Nat) (x : Hub) : (s.setHub c x).now = s.now := rfl
@[simp] theorem State.setRing_part (r : Nat) (x : Ring) (j : Nat) : (s.setRing r x).part j = s.part j := rfl
@[simp] theorem State.setRing_ctx (r : Nat) (x : Ring) (j : Nat) : (s.setRing r x).ctx j = s.ctx j := rfl
@[simp] theorem State.setRing_seq (r : Nat) (x : Ring) (j : Nat) : (s.setRing r x).seq j = s.seq j := rfl
@[simp] theorem State.setRing_frame (r : Nat) (x : Ring) (j : Nat) : (s.setRing r x).frame j = s.frame j := rfl
@[simp] theorem State.setRing_bankSt (r : Nat) (x : Ring) (j : Nat) : (s.setRing r x).bankSt j = s.bankSt j := rfl
@[simp] theorem State.setRing_tile (r : Nat) (x : Ring) (j : Nat) : (s.setRing r x).tile j = s.tile j := rfl
@[simp] theorem State.setRing_hub (r : Nat) (x : Ring) (j : Nat) : (s.setRing r x).hub j = s.hub j := rfl
@[simp] theorem State.setRing_port (r : Nat) (x : Ring) (j : Nat) : (s.setRing r x).port j = s.port j := rfl
@[simp] theorem State.setRing_servingFn (r : Nat) (x : Ring) (j : Nat) : (s.setRing r x).servingFn j = s.servingFn j := rfl
@[simp] theorem State.setRing_linkUp (r : Nat) (x : Ring) : (s.setRing r x).linkUp = s.linkUp := rfl
@[simp] theorem State.setRing_vfServed (r : Nat) (x : Ring) (j : Nat) : (s.setRing r x).vfServed j = s.vfServed j := rfl
@[simp] theorem State.setRing_now (r : Nat) (x : Ring) : (s.setRing r x).now = s.now := rfl
@[simp] theorem State.setSeq_ring (q : Nat) (x : Seq) (j : Nat) : (s.setSeq q x).ring j = s.ring j := rfl
@[simp] theorem State.setSeq_part (q : Nat) (x : Seq) (j : Nat) : (s.setSeq q x).part j = s.part j := rfl
@[simp] theorem State.setSeq_ctx (q : Nat) (x : Seq) (j : Nat) : (s.setSeq q x).ctx j = s.ctx j := rfl
@[simp] theorem State.setSeq_bankSt (q : Nat) (x : Seq) (j : Nat) : (s.setSeq q x).bankSt j = s.bankSt j := rfl
@[simp] theorem State.setSeq_tile (q : Nat) (x : Seq) (j : Nat) : (s.setSeq q x).tile j = s.tile j := rfl
@[simp] theorem State.setSeq_hub (q : Nat) (x : Seq) (j : Nat) : (s.setSeq q x).hub j = s.hub j := rfl
@[simp] theorem State.setSeq_port (q : Nat) (x : Seq) (j : Nat) : (s.setSeq q x).port j = s.port j := rfl
@[simp] theorem State.setSeq_servingFn (q : Nat) (x : Seq) (j : Nat) : (s.setSeq q x).servingFn j = s.servingFn j := rfl
@[simp] theorem State.setSeq_linkUp (q : Nat) (x : Seq) : (s.setSeq q x).linkUp = s.linkUp := rfl
@[simp] theorem State.setSeq_vfServed (q : Nat) (x : Seq) (j : Nat) : (s.setSeq q x).vfServed j = s.vfServed j := rfl
@[simp] theorem State.setSeq_now (q : Nat) (x : Seq) : (s.setSeq q x).now = s.now := rfl
@[simp] theorem State.setFrame_ring (f : Nat) (x : Frame) (j : Nat) : (s.setFrame f x).ring j = s.ring j := rfl
@[simp] theorem State.setFrame_part (f : Nat) (x : Frame) (j : Nat) : (s.setFrame f x).part j = s.part j := rfl
@[simp] theorem State.setFrame_ctx (f : Nat) (x : Frame) (j : Nat) : (s.setFrame f x).ctx j = s.ctx j := rfl
@[simp] theorem State.setFrame_bankSt (f : Nat) (x : Frame) (j : Nat) : (s.setFrame f x).bankSt j = s.bankSt j := rfl
@[simp] theorem State.setFrame_tile (f : Nat) (x : Frame) (j : Nat) : (s.setFrame f x).tile j = s.tile j := rfl
@[simp] theorem State.setFrame_hub (f : Nat) (x : Frame) (j : Nat) : (s.setFrame f x).hub j = s.hub j := rfl
@[simp] theorem State.setFrame_port (f : Nat) (x : Frame) (j : Nat) : (s.setFrame f x).port j = s.port j := rfl
@[simp] theorem State.setFrame_servingFn (f : Nat) (x : Frame) (j : Nat) : (s.setFrame f x).servingFn j = s.servingFn j := rfl
@[simp] theorem State.setFrame_linkUp (f : Nat) (x : Frame) : (s.setFrame f x).linkUp = s.linkUp := rfl
@[simp] theorem State.setFrame_vfServed (f : Nat) (x : Frame) (j : Nat) : (s.setFrame f x).vfServed j = s.vfServed j := rfl
@[simp] theorem State.setFrame_now (f : Nat) (x : Frame) : (s.setFrame f x).now = s.now := rfl
@[simp] theorem State.bwAdd_ring (p n : Nat) (j : Nat) : (s.bwAdd p n).ring j = s.ring j := rfl
@[simp] theorem State.bwAdd_part (p n : Nat) (j : Nat) : (s.bwAdd p n).part j = s.part j := rfl
@[simp] theorem State.bwAdd_ctx (p n : Nat) (j : Nat) : (s.bwAdd p n).ctx j = s.ctx j := rfl
@[simp] theorem State.bwAdd_seq (p n : Nat) (j : Nat) : (s.bwAdd p n).seq j = s.seq j := rfl
@[simp] theorem State.bwAdd_frame (p n : Nat) (j : Nat) : (s.bwAdd p n).frame j = s.frame j := rfl
@[simp] theorem State.bwAdd_bankSt (p n : Nat) (j : Nat) : (s.bwAdd p n).bankSt j = s.bankSt j := rfl
@[simp] theorem State.bwAdd_tile (p n : Nat) (j : Nat) : (s.bwAdd p n).tile j = s.tile j := rfl
@[simp] theorem State.bwAdd_hub (p n : Nat) (j : Nat) : (s.bwAdd p n).hub j = s.hub j := rfl
@[simp] theorem State.bwAdd_port (p n : Nat) (j : Nat) : (s.bwAdd p n).port j = s.port j := rfl
@[simp] theorem State.bwAdd_servingFn (p n : Nat) (j : Nat) : (s.bwAdd p n).servingFn j = s.servingFn j := rfl
@[simp] theorem State.bwAdd_linkUp (p n : Nat) : (s.bwAdd p n).linkUp = s.linkUp := rfl
@[simp] theorem State.bwAdd_vfServed (p n : Nat) (j : Nat) : (s.bwAdd p n).vfServed j = s.vfServed j := rfl
@[simp] theorem State.bwAdd_now (p n : Nat) : (s.bwAdd p n).now = s.now := rfl
@[simp] theorem State.setPort_ring (p : Nat) (x : Port) (j : Nat) : (s.setPort p x).ring j = s.ring j := rfl
@[simp] theorem State.setPort_part (p : Nat) (x : Port) (j : Nat) : (s.setPort p x).part j = s.part j := rfl
@[simp] theorem State.setPort_ctx (p : Nat) (x : Port) (j : Nat) : (s.setPort p x).ctx j = s.ctx j := rfl
@[simp] theorem State.setPort_seq (p : Nat) (x : Port) (j : Nat) : (s.setPort p x).seq j = s.seq j := rfl
@[simp] theorem State.setPort_frame (p : Nat) (x : Port) (j : Nat) : (s.setPort p x).frame j = s.frame j := rfl
@[simp] theorem State.setPort_bankSt (p : Nat) (x : Port) (j : Nat) : (s.setPort p x).bankSt j = s.bankSt j := rfl
@[simp] theorem State.setPort_tile (p : Nat) (x : Port) (j : Nat) : (s.setPort p x).tile j = s.tile j := rfl
@[simp] theorem State.setPort_hub (p : Nat) (x : Port) (j : Nat) : (s.setPort p x).hub j = s.hub j := rfl
@[simp] theorem State.setPort_servingFn (p : Nat) (x : Port) (j : Nat) : (s.setPort p x).servingFn j = s.servingFn j := rfl
@[simp] theorem State.setPort_linkUp (p : Nat) (x : Port) : (s.setPort p x).linkUp = s.linkUp := rfl
@[simp] theorem State.setPort_vfServed (p : Nat) (x : Port) (j : Nat) : (s.setPort p x).vfServed j = s.vfServed j := rfl
@[simp] theorem State.setPort_now (p : Nat) (x : Port) : (s.setPort p x).now = s.now := rfl

end Sys2Proof.Machine
end

