-- ==== Sys2Proof/Laws/Registers.lean ====
section
/-! SUPPORT. Tables, registers and their fields: what is read after what is written. -/

namespace Sys2Proof.Machine

/-! ## Tables -/

@[simp] theorem tabGet?_tabSet_same {α : Type} (t : Tab α) (k : Nat) (v : α) : tabGet? (tabSet t k v) k = some v := by
  induction t with
  | nil => simp [tabSet, tabGet?]
  | cons p t ih =>
    obtain ⟨i, w⟩ := p
    simp only [tabSet]
    split
    · simp [tabGet?]
    · split
      · simp [tabGet?]
      · rename_i h1 h2; simp [tabGet?, h1, ih]

theorem tabGet?_tabSet_ne {α : Type} (t : Tab α) {j k : Nat} (v : α) (h : j ≠ k) :
    tabGet? (tabSet t k v) j = tabGet? t j := by
  induction t with
  | nil => simp [tabSet, tabGet?, h]
  | cons p t ih =>
    obtain ⟨i, w⟩ := p
    simp only [tabSet]
    split
    · rename_i hk; subst hk; simp [tabGet?, h]
    · split
      · simp [tabGet?, h]
      · simp only [tabGet?]
        rw [ih]

/-- Dropping entries whose keys a test does not keep leaves every other entry. -/
theorem tabGet?_filter {α : Type} (t : Tab α) (p : Nat → Bool) (k : Nat) :
    tabGet? (t.filter fun e => p e.1) k = if p k then tabGet? t k else none := by
  induction t with
  | nil => simp [tabGet?]
  | cons e t ih =>
    obtain ⟨i, w⟩ := e
    by_cases hi : p i = true
    · simp only [List.filter_cons, hi, if_true, tabGet?, ih]
      by_cases hk : k = i
      · subst hk; simp [hi]
      · simp [hk]
    · simp only [List.filter_cons, hi, tabGet?]
      by_cases hk : k = i
      · subst hk; simp [hi, ih]
      · simp [hk, ih]

@[simp] theorem tabGet?_tabDel_same {α : Type} (t : Tab α) (k : Nat) : tabGet? (tabDel t k) k = none := by
  simp [tabDel, tabGet?_filter t (fun i => i != k)]

theorem tabGet?_tabDel_ne {α : Type} (t : Tab α) {j k : Nat} (h : j ≠ k) : tabGet? (tabDel t k) j = tabGet? t j := by
  simp [tabDel, tabGet?_filter t (fun i => i != k), h]

@[simp] theorem tabGetD_tabSet_same {α : Type} (t : Tab α) (k : Nat) (v d : α) : tabGetD (tabSet t k v) k d = v := by
  simp [tabGetD]

theorem tabGetD_tabSet_ne {α : Type} (t : Tab α) {j k : Nat} (v d : α) (h : j ≠ k) :
    tabGetD (tabSet t k v) j d = tabGetD t j d := by
  simp [tabGetD, tabGet?_tabSet_ne t v h]

/-! ## Registers -/

variable (s : State)

@[simp] theorem State.reg_setReg_same (o : Nat) (w : W64) : (s.setReg o w).reg o = w := by
  simp [State.reg, State.setReg]

theorem State.reg_setReg_ne {o k : Nat} (w : W64) (h : k ≠ o) : (s.setReg o w).reg k = s.reg k := by
  simp [State.reg, State.setReg, tabGet?_tabSet_ne _ _ h]

theorem State.reg_setFld_ne {o k : Nat} (b : Bits) (v : Nat) (h : k ≠ o) : (s.setFld o b v).reg k = s.reg k :=
  s.reg_setReg_ne _ h

theorem State.reg_setBit_ne {o k : Nat} (b : Bits) (v : Bool) (h : k ≠ o) : (s.setBit o b v).reg k = s.reg k :=
  s.reg_setReg_ne _ h

theorem State.reg_addSat_ne {o k : Nat} (b : Bits) (n : Nat) (h : k ≠ o) : (s.addSat o b n).reg k = s.reg k :=
  s.reg_setReg_ne _ h

theorem State.reg_addWrap_ne {o k : Nat} (b : Bits) (n : Nat) (h : k ≠ o) : (s.addWrap o b n).reg k = s.reg k :=
  s.reg_setReg_ne _ h

/-! ## Units -/

@[simp] theorem State.part_setPart_same (k : Nat) (x : Part) : (s.setPart k x).part k = x := by
  simp [State.part, State.setPart]

theorem State.part_setPart_ne {j k : Nat} (x : Part) (h : j ≠ k) : (s.setPart k x).part j = s.part j := by
  simp [State.part, State.setPart, tabGetD_tabSet_ne _ _ _ h]

@[simp] theorem State.ctx_setCtx_same (k : Nat) (x : Ctx) : (s.setCtx k x).ctx k = x := by
  simp [State.ctx, State.setCtx]

theorem State.ctx_setCtx_ne {j k : Nat} (x : Ctx) (h : j ≠ k) : (s.setCtx k x).ctx j = s.ctx j := by
  simp [State.ctx, State.setCtx, tabGetD_tabSet_ne _ _ _ h]

@[simp] theorem State.seq_setSeq_same (k : Nat) (x : Seq) : (s.setSeq k x).seq k = x := by
  simp [State.seq, State.setSeq]

theorem State.seq_setSeq_ne {j k : Nat} (x : Seq) (h : j ≠ k) : (s.setSeq k x).seq j = s.seq j := by
  simp [State.seq, State.setSeq, tabGetD_tabSet_ne _ _ _ h]

@[simp] theorem State.frame_setFrame_same (k : Nat) (x : Frame) : (s.setFrame k x).frame k = x := by
  simp [State.frame, State.setFrame]

theorem State.frame_setFrame_ne {j k : Nat} (x : Frame) (h : j ≠ k) : (s.setFrame k x).frame j = s.frame j := by
  simp [State.frame, State.setFrame, tabGetD_tabSet_ne _ _ _ h]

@[simp] theorem State.bankSt_setBank_same (k : Nat) (x : BankSt) : (s.setBank k x).bankSt k = x := by
  simp [State.bankSt, State.setBank]

theorem State.bankSt_setBank_ne {j k : Nat} (x : BankSt) (h : j ≠ k) : (s.setBank k x).bankSt j = s.bankSt j := by
  simp [State.bankSt, State.setBank, tabGetD_tabSet_ne _ _ _ h]

@[simp] theorem State.tile_setTile_same (k : Nat) (x : Tile) : (s.setTile k x).tile k = x := by
  simp [State.tile, State.setTile]

theorem State.tile_setTile_ne {j k : Nat} (x : Tile) (h : j ≠ k) : (s.setTile k x).tile j = s.tile j := by
  simp [State.tile, State.setTile, tabGetD_tabSet_ne _ _ _ h]

@[simp] theorem State.hub_setHub_same (k : Nat) (x : Hub) : (s.setHub k x).hub k = x := by
  simp [State.hub, State.setHub]

theorem State.hub_setHub_ne {j k : Nat} (x : Hub) (h : j ≠ k) : (s.setHub k x).hub j = s.hub j := by
  simp [State.hub, State.setHub, tabGetD_tabSet_ne _ _ _ h]

@[simp] theorem State.ring_setRing_same (k : Nat) (x : Ring) : (s.setRing k x).ring k = x := by
  simp [State.ring, State.setRing]

theorem State.ring_setRing_ne {j k : Nat} (x : Ring) (h : j ≠ k) : (s.setRing k x).ring j = s.ring j := by
  simp [State.ring, State.setRing, tabGetD_tabSet_ne _ _ _ h]

@[simp] theorem State.port_setPort_same (k : Nat) (x : Port) : (s.setPort k x).port k = x := by
  simp [State.port, State.setPort]

theorem State.port_setPort_ne {j k : Nat} (x : Port) (h : j ≠ k) : (s.setPort k x).port j = s.port j := by
  simp [State.port, State.setPort, tabGetD_tabSet_ne _ _ _ h]

/-! ## Fields of a word -/

/-- A field within a 64-bit word. -/
def Bits.fits (b : Bits) : Prop := b.lo ≤ b.hi ∧ b.hi < 64

/-- Two fields without a common bit. -/
def Bits.apart (b c : Bits) : Prop := b.hi < c.lo ∨ c.hi < b.lo

theorem getBits_testBit (w : W64) (b : Bits) (i : Nat) :
    (getBits w b).testBit i = (decide (i < b.hi - b.lo + 1) && w.getLsbD (b.lo + i)) := by
  simp [getBits, Nat.testBit_mod_two_pow, Nat.testBit_div_two_pow, BitVec.getLsbD, Nat.add_comm]

theorem mask_getLsbD (b : Bits) (j : Nat) (h : j < 64) :
    b.mask.getLsbD j = (decide (b.lo ≤ j) && decide (j - b.lo < b.hi - b.lo + 1)) := by
  simp only [Bits.mask, BitVec.getLsbD_ofNat, h, decide_true, Bool.true_and, Nat.testBit_mul_two_pow,
    Nat.testBit_two_pow_sub_one]

theorem putBits_getLsbD (w : W64) (b : Bits) (v j : Nat) (h : j < 64) :
    (putBits w b v).getLsbD j = if b.lo ≤ j ∧ j - b.lo < b.hi - b.lo + 1 then v.testBit (j - b.lo) else w.getLsbD j := by
  simp only [putBits, BitVec.getLsbD_or, BitVec.getLsbD_and, BitVec.getLsbD_not, mask_getLsbD b j h, BitVec.getLsbD_ofNat,
    h, decide_true, Bool.true_and, Nat.testBit_mul_two_pow, Nat.testBit_mod_two_pow]
  by_cases h1 : b.lo ≤ j <;> by_cases h2 : j - b.lo < b.hi - b.lo + 1 <;> simp [h1, h2]

/-- A field reads what was put there. -/
theorem getBits_putBits (w : W64) (b : Bits) (v : Nat) (h : b.fits) :
    getBits (putBits w b v) b = v % 2 ^ (b.hi - b.lo + 1) := by
  obtain ⟨h1, h2⟩ := h
  apply Nat.eq_of_testBit_eq
  intro i
  rw [getBits_testBit, Nat.testBit_mod_two_pow]
  by_cases hi : i < b.hi - b.lo + 1
  · rw [putBits_getLsbD w b v (b.lo + i) (by omega)]
    simp [hi]
  · simp [hi]

/-- A field reads as before after a write of another. -/
theorem getBits_putBits_apart (w : W64) (b c : Bits) (v : Nat) (hb : b.fits) (hc : c.fits) (h : b.apart c) :
    getBits (putBits w b v) c = getBits w c := by
  obtain ⟨h1, h2⟩ := hc
  obtain ⟨h3, h4⟩ := hb
  apply Nat.eq_of_testBit_eq
  intro i
  rw [getBits_testBit, getBits_testBit]
  by_cases hi : i < c.hi - c.lo + 1
  · rw [putBits_getLsbD w b v (c.lo + i) (by omega)]
    have hn : ¬(b.lo ≤ c.lo + i ∧ c.lo + i - b.lo < b.hi - b.lo + 1) := by
      unfold Bits.apart at h; omega
    rw [if_neg hn]
  · simp [hi]

/-! ## Fields of registers -/

theorem State.fld_setFld_same (o : Nat) (b : Bits) (v : Nat) (h : b.fits) :
    (s.setFld o b v).fld o b = v % 2 ^ (b.hi - b.lo + 1) := by
  simp [State.fld, State.setFld, getBits_putBits _ _ _ h]

theorem State.fld_setFld_apart (o : Nat) (b c : Bits) (v : Nat) (hb : b.fits) (hc : c.fits) (h : b.apart c) :
    (s.setFld o b v).fld o c = s.fld o c := by
  simp [State.fld, State.setFld, getBits_putBits_apart _ _ _ _ hb hc h]

theorem State.fld_setFld_ne {o k : Nat} (b c : Bits) (v : Nat) (h : k ≠ o) : (s.setFld o b v).fld k c = s.fld k c := by
  simp [State.fld, s.reg_setFld_ne b v h]

/-- A counter field stops at its top. -/
theorem State.fld_addSat_same (o : Nat) (b : Bits) (n : Nat) (h : b.fits) :
    (s.addSat o b n).fld o b = min (s.fld o b + n) b.top := by
  have ht : b.top < 2 ^ (b.hi - b.lo + 1) := by simp only [Bits.top]; have := Nat.two_pow_pos (b.hi - b.lo + 1); omega
  rw [State.addSat, State.fld_setFld_same _ _ _ _ h, Nat.mod_eq_of_lt (by omega), Nat.min_comm]

theorem State.fld_setReg_same (o : Nat) (b : Bits) (w : W64) : (s.setReg o w).fld o b = getBits w b := by simp [State.fld]

theorem State.bit_setBit_same (o : Nat) (b : Bits) (v : Bool) (h : b.fits) : (s.setBit o b v).bit o b = v := by
  have hp : 1 < 2 ^ (b.hi - b.lo + 1) := Nat.one_lt_two_pow (by omega)
  cases v <;> simp [State.bit, State.setBit, s.fld_setFld_same o b _ h, Nat.mod_eq_of_lt hp]

theorem State.bit_setBit_apart (o : Nat) (b c : Bits) (v : Bool) (hb : b.fits) (hc : c.fits) (h : b.apart c) :
    (s.setBit o b v).bit o c = s.bit o c := by
  simp [State.bit, State.setBit, s.fld_setFld_apart o b c _ hb hc h]

theorem State.bit_setBit_ne {o k : Nat} (b c : Bits) (v : Bool) (h : k ≠ o) : (s.setBit o b v).bit k c = s.bit k c := by
  simp [State.bit, State.setBit, s.fld_setFld_ne b c _ h]

theorem State.fld_setBit_apart (o : Nat) (b c : Bits) (v : Bool) (hb : b.fits) (hc : c.fits) (h : b.apart c) :
    (s.setBit o b v).fld o c = s.fld o c := s.fld_setFld_apart o b c _ hb hc h

theorem State.fld_setBit_ne {o k : Nat} (b c : Bits) (v : Bool) (h : k ≠ o) : (s.setBit o b v).fld k c = s.fld k c :=
  s.fld_setFld_ne b c _ h

theorem State.bit_setFld_apart (o : Nat) (b c : Bits) (v : Nat) (hb : b.fits) (hc : c.fits) (h : b.apart c) :
    (s.setFld o b v).bit o c = s.bit o c := by
  simp [State.bit, s.fld_setFld_apart o b c v hb hc h]

theorem State.bit_setFld_ne {o k : Nat} (b c : Bits) (v : Nat) (h : k ≠ o) : (s.setFld o b v).bit k c = s.bit k c := by
  simp [State.bit, s.fld_setFld_ne b c v h]

/-- A register is what its word is. -/
theorem State.fld_congr {t : State} {o : Nat} (b : Bits) (h : t.reg o = s.reg o) : t.fld o b = s.fld o b := by
  simp [State.fld, h]

theorem State.bit_congr {t : State} {o : Nat} (b : Bits) (h : t.reg o = s.reg o) : t.bit o b = s.bit o b := by
  simp [State.bit, s.fld_congr b h]

/-! ## An error bit with its information field -/

@[simp] theorem State.raise_pending (st : Nat) (b : Bits) (info : Nat) (ib : Bits) (v : Nat) : (s.raise st b info ib v).pending = s.pending := by
  simp only [State.raise]; split <;> rfl
@[simp] theorem State.raise_free (st : Nat) (b : Bits) (info : Nat) (ib : Bits) (v : Nat) : (s.raise st b info ib v).free = s.free := by
  simp only [State.raise]; split <;> rfl
@[simp] theorem State.raise_nv (st : Nat) (b : Bits) (info : Nat) (ib : Bits) (v : Nat) : (s.raise st b info ib v).nv = s.nv := by
  simp only [State.raise]; split <;> rfl
@[simp] theorem State.raise_aon (st : Nat) (b : Bits) (info : Nat) (ib : Bits) (v : Nat) : (s.raise st b info ib v).aon = s.aon := by
  simp only [State.raise]; split <;> rfl
@[simp] theorem State.raise_hif (st : Nat) (b : Bits) (info : Nat) (ib : Bits) (v : Nat) : (s.raise st b info ib v).hif = s.hif := by
  simp only [State.raise]; split <;> rfl
@[simp] theorem State.raise_sec (st : Nat) (b : Bits) (info : Nat) (ib : Bits) (v : Nat) : (s.raise st b info ib v).sec = s.sec := by
  simp only [State.raise]; split <;> rfl
@[simp] theorem State.raise_mem (st : Nat) (b : Bits) (info : Nat) (ib : Bits) (v : Nat) : (s.raise st b info ib v).mem = s.mem := by
  simp only [State.raise]; split <;> rfl
@[simp] theorem State.raise_arr (st : Nat) (b : Bits) (info : Nat) (ib : Bits) (v : Nat) : (s.raise st b info ib v).arr = s.arr := by
  simp only [State.raise]; split <;> rfl
@[simp] theorem State.raise_kv (st : Nat) (b : Bits) (info : Nat) (ib : Bits) (v : Nat) : (s.raise st b info ib v).kv = s.kv := by
  simp only [State.raise]; split <;> rfl
@[simp] theorem State.raise_vcd (st : Nat) (b : Bits) (info : Nat) (ib : Bits) (v : Nat) : (s.raise st b info ib v).vcd = s.vcd := by
  simp only [State.raise]; split <;> rfl
@[simp] theorem State.raise_stn (st : Nat) (b : Bits) (info : Nat) (ib : Bits) (v : Nat) : (s.raise st b info ib v).stn = s.stn := by
  simp only [State.raise]; split <;> rfl
@[simp] theorem State.raise_vrd (st : Nat) (b : Bits) (info : Nat) (ib : Bits) (v : Nat) : (s.raise st b info ib v).vrd = s.vrd := by
  simp only [State.raise]; split <;> rfl
@[simp] theorem State.raise_merge (st : Nat) (b : Bits) (info : Nat) (ib : Bits) (v : Nat) : (s.raise st b info ib v).merge = s.merge := by
  simp only [State.raise]; split <;> rfl
@[simp] theorem State.raise_pair (st : Nat) (b : Bits) (info : Nat) (ib : Bits) (v : Nat) : (s.raise st b info ib v).pair = s.pair := by
  simp only [State.raise]; split <;> rfl
@[simp] theorem State.raise_olp (st : Nat) (b : Bits) (info : Nat) (ib : Bits) (v : Nat) : (s.raise st b info ib v).olp = s.olp := by
  simp only [State.raise]; split <;> rfl
@[simp] theorem State.raise_pwr (st : Nat) (b : Bits) (info : Nat) (ib : Bits) (v : Nat) : (s.raise st b info ib v).pwr = s.pwr := by
  simp only [State.raise]; split <;> rfl
@[simp] theorem State.raise_mon (st : Nat) (b : Bits) (info : Nat) (ib : Bits) (v : Nat) : (s.raise st b info ib v).mon = s.mon := by
  simp only [State.raise]; split <;> rfl
@[simp] theorem State.raise_out (st : Nat) (b : Bits) (info : Nat) (ib : Bits) (v : Nat) : (s.raise st b info ib v).out = s.out := by
  simp only [State.raise]; split <;> rfl
@[simp] theorem State.raise_ring (st : Nat) (b : Bits) (info : Nat) (ib : Bits) (v : Nat) (k : Nat) : (s.raise st b info ib v).ring k = s.ring k := by simp [State.ring]
@[simp] theorem State.raise_part (st : Nat) (b : Bits) (info : Nat) (ib : Bits) (v : Nat) (k : Nat) : (s.raise st b info ib v).part k = s.part k := by simp [State.part]
@[simp] theorem State.raise_ctx (st : Nat) (b : Bits) (info : Nat) (ib : Bits) (v : Nat) (k : Nat) : (s.raise st b info ib v).ctx k = s.ctx k := by simp [State.ctx]
@[simp] theorem State.raise_seq (st : Nat) (b : Bits) (info : Nat) (ib : Bits) (v : Nat) (k : Nat) : (s.raise st b info ib v).seq k = s.seq k := by simp [State.seq]
@[simp] theorem State.raise_frame (st : Nat) (b : Bits) (info : Nat) (ib : Bits) (v : Nat) (k : Nat) : (s.raise st b info ib v).frame k = s.frame k := by simp [State.frame]
@[simp] theorem State.raise_bankSt (st : Nat) (b : Bits) (info : Nat) (ib : Bits) (v : Nat) (k : Nat) : (s.raise st b info ib v).bankSt k = s.bankSt k := by simp [State.bankSt]
@[simp] theorem State.raise_tile (st : Nat) (b : Bits) (info : Nat) (ib : Bits) (v : Nat) (k : Nat) : (s.raise st b info ib v).tile k = s.tile k := by simp [State.tile]
@[simp] theorem State.raise_hub (st : Nat) (b : Bits) (info : Nat) (ib : Bits) (v : Nat) (k : Nat) : (s.raise st b info ib v).hub k = s.hub k := by simp [State.hub]
@[simp] theorem State.raise_port (st : Nat) (b : Bits) (info : Nat) (ib : Bits) (v : Nat) (k : Nat) : (s.raise st b info ib v).port k = s.port k := by simp [State.port]

theorem State.reg_raise_ne (st : Nat) (b : Bits) (info : Nat) (ib : Bits) (v : Nat) {k : Nat} (h1 : k ≠ st) (h2 : k ≠ info) : (s.raise st b info ib v).reg k = s.reg k := by
  simp only [State.raise]
  split
  · rw [State.reg_setBit_ne _ _ _ h1, State.reg_setFld_ne _ _ _ h2]
  · rw [State.reg_setBit_ne _ _ _ h1]

/-- An error bit that was raised is set. -/
theorem State.bit_raise (st : Nat) (b : Bits) (info : Nat) (ib : Bits) (v : Nat) (hb : b.fits) : (s.raise st b info ib v).bit st b = true := by
  simp only [State.raise]; rw [State.bit_setBit_same _ _ _ _ hb]

/-- Raising one error bit leaves another bit of the status register alone. -/
theorem State.bit_raise_apart (st : Nat) (b d : Bits) (info : Nat) (ib : Bits) (v : Nat) (hb : b.fits) (hd : d.fits)
    (h : b.apart d) (hi : st ≠ info) : (s.raise st b info ib v).bit st d = s.bit st d := by
  simp only [State.raise]
  rw [State.bit_setBit_apart _ _ _ _ _ hb hd h]
  split
  · exact State.bit_congr _ _ (State.reg_setFld_ne _ _ _ hi)
  · rfl

end Sys2Proof.Machine
end

