-- ==== Sys2Proof/Laws/Ops.lean ====
section
/-! SUPPORT. What the shared operations of completion, counting and signalling leave alone (SameInside). -/

namespace Sys2Proof.Machine

theorem SameInside.refl (s : State) : SameInside s s :=
  ⟨rfl, rfl, rfl, rfl, rfl, rfl, rfl, rfl, rfl, rfl, rfl, rfl, rfl, rfl, fun _ _ => rfl, List.suffix_refl _, rfl⟩

theorem SameInside.trans {s t u : State} (h : SameInside s t) (k : SameInside t u) : SameInside s u :=
  ⟨k.pending.trans h.pending, k.nv.trans h.nv, k.aon.trans h.aon, k.sec.trans h.sec, k.mem.trans h.mem, k.arr.trans h.arr,
    k.kv.trans h.kv, k.vcd.trans h.vcd, k.stn.trans h.stn, k.vrd.trans h.vrd, k.merge.trans h.merge, k.pair.trans h.pair,
    k.olp.trans h.olp, k.pwr.trans h.pwr, fun o ho => (k.reg o ho).trans (h.reg o ho), h.out.trans k.out,
    k.ue.trans h.ue⟩

theorem SameInside.fld {s t : State} (h : SameInside s t) (o : Nat) (b : Bits) (ho : o < 0x40000 ∨ 0x50000 ≤ o) :
    t.fld o b = s.fld o b := s.fld_congr b (h.reg o ho)

theorem SameInside.bit {s t : State} (h : SameInside s t) (o : Nat) (b : Bits) (ho : o < 0x40000 ∨ 0x50000 ≤ o) :
    t.bit o b = s.bit o b := s.bit_congr b (h.reg o ho)

theorem SameInside.part {s t : State} (h : SameInside s t) (k : Nat) : t.part k = s.part k := by simp [State.part, h.sec]
theorem SameInside.ctx {s t : State} (h : SameInside s t) (k : Nat) : t.ctx k = s.ctx k := by simp [State.ctx, h.sec]
theorem SameInside.seq {s t : State} (h : SameInside s t) (k : Nat) : t.seq k = s.seq k := by simp [State.seq, h.kv]
theorem SameInside.frame {s t : State} (h : SameInside s t) (k : Nat) : t.frame k = s.frame k := by simp [State.frame, h.kv]
theorem SameInside.bankSt {s t : State} (h : SameInside s t) (k : Nat) : t.bankSt k = s.bankSt k := by simp [State.bankSt, h.arr]
theorem SameInside.tile {s t : State} (h : SameInside s t) (k : Nat) : t.tile k = s.tile k := by simp [State.tile, h.arr]
theorem SameInside.hub {s t : State} (h : SameInside s t) (k : Nat) : t.hub k = s.hub k := by simp [State.hub, h.arr]
theorem SameInside.port {s t : State} (h : SameInside s t) (k : Nat) : t.port k = s.port k := by simp [State.port, h.olp]

theorem SameInside.sentCtx {s t : State} (h : SameInside s t) : t.sentCtx = s.sentCtx := by
  unfold State.sentCtx State.bit State.fld; rw [h.reg _ (by decide)]

theorem SameInside.ite {c : Prop} [Decidable c] {s t u : State} (ht : SameInside s t) (hu : SameInside s u) :
    SameInside s (if c then t else u) := by split <;> assumption

/-- A fold of operations each of which leaves the inside alone. -/
theorem SameInside.foldl {α : Type} (l : List α) (f : State → α → State) (h : ∀ a ∈ l, ∀ t, SameInside t (f t a)) (s : State) :
    SameInside s (l.foldl f s) := by
  induction l generalizing s with
  | nil => exact .refl s
  | cons a l ih =>
    exact (h a (List.mem_cons_self ..) s).trans (ih (fun b hb => h b (List.mem_cons_of_mem _ hb)) _)

/-! ## Primitive updates -/

variable (s : State)

theorem inside_setReg (o : Nat) (w : W64) (ho : 0x40000 ≤ o ∧ o < 0x50000) : SameInside s (s.setReg o w) :=
  ⟨rfl, rfl, rfl, rfl, rfl, rfl, rfl, rfl, rfl, rfl, rfl, rfl, rfl, rfl, fun k hk => s.reg_setReg_ne w (by omega), List.suffix_refl _, rfl⟩

theorem inside_setFld (o : Nat) (b : Bits) (v : Nat) (ho : 0x40000 ≤ o ∧ o < 0x50000) : SameInside s (s.setFld o b v) :=
  inside_setReg s o _ ho

theorem inside_setBit (o : Nat) (b : Bits) (v : Bool) (ho : 0x40000 ≤ o ∧ o < 0x50000) : SameInside s (s.setBit o b v) :=
  inside_setReg s o _ ho

theorem inside_addSat (o : Nat) (b : Bits) (n : Nat) (ho : 0x40000 ≤ o ∧ o < 0x50000) : SameInside s (s.addSat o b n) :=
  inside_setReg s o _ ho

theorem inside_bump : SameInside s s.bump :=
  ⟨rfl, rfl, rfl, rfl, rfl, rfl, rfl, rfl, rfl, rfl, rfl, rfl, rfl, rfl, fun _ _ => rfl, List.suffix_refl _, rfl⟩

theorem inside_hif (h : HostIf) (hu : h.ueTimes = s.hif.ueTimes) : SameInside s { s with hif := h } :=
  ⟨rfl, rfl, rfl, rfl, rfl, rfl, rfl, rfl, rfl, rfl, rfl, rfl, rfl, rfl, fun _ _ => rfl, List.suffix_refl _, hu⟩

theorem inside_setRing (r : Nat) (x : Ring) : SameInside s (s.setRing r x) := inside_hif s _ rfl

theorem inside_bwAdd (p n : Nat) : SameInside s (s.bwAdd p n) :=
  ⟨rfl, rfl, rfl, rfl, rfl, rfl, rfl, rfl, rfl, rfl, rfl, rfl, rfl, rfl, fun _ _ => rfl, List.suffix_refl _, rfl⟩

theorem inside_emit (x : Out) : SameInside s (s.emit x) :=
  ⟨rfl, rfl, rfl, rfl, rfl, rfl, rfl, rfl, rfl, rfl, rfl, rfl, rfl, rfl, fun _ _ => rfl, List.suffix_cons _ _, rfl⟩

/-! ## Counters and histograms -/

theorem inside_cntAdd (i n : Nat) (hi : i < 16) : SameInside s (s.cntAdd i n) := by
  have ho : 0x40000 ≤ MON_CNT i ∧ MON_CNT i < 0x50000 := by simp only [MON_CNT]; omega
  simp only [State.cntAdd]
  split
  · exact inside_setFld s _ _ _ ho
  · exact (inside_setFld s _ _ _ ho).trans (inside_setBit _ _ _ _ ho)

theorem inside_countWhere (p : W64 → Bool) (n : Nat) : SameInside s (s.countWhere p n) := by
  simp only [State.countWhere]
  split
  · refine .foldl _ _ (fun i hi t => ?_) s
    split
    · exact inside_cntAdd t i n (List.mem_range.mp hi)
    · exact .refl t
  · exact .refl s

theorem inside_count (code ctx unit n : Nat) : SameInside s (s.count code ctx unit n) := inside_countWhere s _ n

theorem inside_histUnit (h x : Nat) (hh : h < 8) : SameInside s (s.histUnit h x) := by
  have hb : histBin (getBits (s.reg (MON_HIST_CFG h)) MON_HIST_CFG_LOG != 0) (getBits (s.reg (MON_HIST_CFG h)) MON_HIST_CFG_WIDTH) x ≤ 15 := by
    simp only [histBin]
    split
    · split <;> omega
    · omega
  simp only [State.histUnit]
  split
  · exact inside_addSat s _ _ _ (by simp only [MON_HIST_DROPPED]; omega)
  · have hn : 0x40000 ≤ MON_HIST_BIN h (histBin (getBits (s.reg (MON_HIST_CFG h)) MON_HIST_CFG_LOG != 0)
        (getBits (s.reg (MON_HIST_CFG h)) MON_HIST_CFG_WIDTH) x) ∧
        MON_HIST_BIN h (histBin (getBits (s.reg (MON_HIST_CFG h)) MON_HIST_CFG_LOG != 0)
        (getBits (s.reg (MON_HIST_CFG h)) MON_HIST_CFG_WIDTH) x) < 0x50000 := by simp only [MON_HIST_BIN]; omega
    have hc : 0x40000 ≤ MON_HIST_COUNT h ∧ MON_HIST_COUNT h < 0x50000 := by simp only [MON_HIST_COUNT]; omega
    have hm : 0x40000 ≤ MON_HIST_MINMAX h ∧ MON_HIST_MINMAX h < 0x50000 := by simp only [MON_HIST_MINMAX]; omega
    have ho : 0x40000 ≤ MON_HIST_OVER h ∧ MON_HIST_OVER h < 0x50000 := by simp only [MON_HIST_OVER]; omega
    have h4 : ∀ t v w, SameInside s t → SameInside s ((t.setFld (MON_HIST_MINMAX h) MON_HIST_MINMAX_MIN v).setFld
        (MON_HIST_MINMAX h) MON_HIST_MINMAX_MAX w) := fun t v w k =>
      (k.trans (inside_setFld t _ _ _ hm)).trans (inside_setFld _ _ _ _ hm)
    have h3 : ∀ (t : State) (v : Prop) [Decidable v] (w : Nat), SameInside s t → SameInside s (if v then t.setFld (MON_HIST_COUNT h) MON_HIST_COUNT_COUNT w else
        (t.setFld (MON_HIST_COUNT h) MON_HIST_COUNT_COUNT (2 ^ 48 - 1)).setBit (MON_HIST_COUNT h) MON_HIST_COUNT_SATURATED true) :=
      fun t v _ w k => .ite (k.trans (inside_setFld t _ _ _ hc)) ((k.trans (inside_setFld t _ _ _ hc)).trans (inside_setBit _ _ _ _ hc))
    refine .ite (.trans ?_ (inside_addSat _ _ _ _ ho)) ?_ <;> exact h4 _ _ _ (h3 _ _ _ (inside_addSat s _ _ _ hn))

theorem inside_sampleWhere (p : W64 → Bool) (x : Nat) : SameInside s (s.sampleWhere p x) := by
  simp only [State.sampleWhere]
  refine .foldl _ _ (fun i hi t => ?_) s
  split
  · exact inside_histUnit t i _ (List.mem_range.mp hi)
  · exact .refl t

theorem inside_sample (src ctx unit x : Nat) : SameInside s (s.sample src ctx unit x) := inside_sampleWhere s _ x

theorem inside_mon (m : Mon) : SameInside s { s with mon := m } :=
  ⟨rfl, rfl, rfl, rfl, rfl, rfl, rfl, rfl, rfl, rfl, rfl, rfl, rfl, rfl, fun _ _ => rfl, List.suffix_refl _, rfl⟩

/-- A trace record moves the MON block alone. -/
theorem inside_trace (e : TraceEv) : SameInside s (s.trace e) :=
  .ite (.ite ((inside_addSat s _ _ _ (by decide)).trans (inside_setBit _ _ _ _ (by decide))) (inside_mon s _)) (.refl s)

theorem inside_tlpIn (fn n : Nat) : SameInside s (s.tlpIn fn n) := (inside_countWhere s _ _).trans (inside_bwAdd _ _ _)
theorem inside_tlpOut (fn n : Nat) : SameInside s (s.tlpOut fn n) := (inside_countWhere s _ _).trans (inside_bwAdd _ _ _)

/-! ## Host writes, interrupts and records -/

theorem inside_hostWrite (fn addr : Nat) (bytes : List Byte) : SameInside s (s.hostWrite fn addr bytes) := by
  simp only [State.hostWrite]
  split
  · exact (inside_emit s _).trans (inside_tlpOut _ _ _)
  · exact .refl s

theorem inside_sampleHostRead (fn : Nat) : SameInside s (s.sampleHostRead fn) :=
  (inside_bump s).trans (inside_sampleWhere _ _ _)

theorem inside_hostAsk (fn addr n : Nat) : SameInside s (s.hostAsk fn addr n) := inside_emit s _

theorem inside_hostReceived (fn addr n : Nat) : SameInside s (s.hostReceived fn addr n) :=
  ((inside_hostAsk s _ _ _).trans (inside_tlpIn _ _ _)).trans (inside_sampleHostRead _ _)

theorem inside_msixSend (fn vector : Nat) : SameInside s (s.msixSend fn vector) := by
  simp only [State.msixSend]
  split
  · split
    · exact (inside_emit s _).trans (inside_tlpOut _ _ _)
    · exact .refl s
  · split
    · exact .refl s
    · exact inside_hif s _ rfl

theorem inside_ringInterrupt (r : Nat) : SameInside s (s.ringInterrupt r) := by
  simp only [State.ringInterrupt]
  split
  · exact .refl s
  · split
    · exact inside_setRing s _ _
    · exact (inside_msixSend s _ _).trans (inside_setRing _ _ _)

theorem inside_traceRing (kind r seq : Nat) (tag : W32) (arg : Nat) : SameInside s (s.traceRing kind r seq tag arg) :=
  inside_trace s _

theorem inside_noteAdmit (r seq : Nat) (tag : W32) : SameInside s (s.noteAdmit r seq tag) :=
  (inside_count s _ _ _ _).trans (inside_traceRing _ _ _ _ _ _)

theorem inside_putRecord (r : Nat) (tag : W32) (seq words status cls flags : Nat) (want : Bool) :
    SameInside s (s.putRecord r tag seq words status cls flags want) := by
  simp only [State.putRecord]
  split
  · exact .refl s
  · refine .ite (.trans ?_ (inside_ringInterrupt _ _)) ?_ <;>
      exact .trans (.ite (((inside_hostWrite s _ _ _).trans (inside_hostWrite _ _ _ _)).trans (inside_setRing _ _ _))
        ((((inside_hostWrite s _ _ _).trans (inside_hostWrite _ _ _ _)).trans (inside_setRing _ _ _)).trans
          (inside_count _ _ _ _ _))) (inside_traceRing _ _ _ _ _ _)

theorem inside_noteDone (r seq : Nat) (tag : W32) (cls status : Nat) : SameInside s (s.noteDone r seq tag cls status) :=
  inside_setRing s _ _

theorem inside_recordOf (r seq : Nat) (tag : W32) (cls status flags words : Nat) (intr : Bool) :
    SameInside s (s.recordOf r seq tag cls status flags words intr) :=
  ((inside_putRecord s _ _ _ _ _ _ _ _).trans (inside_noteDone _ _ _ _ _ _)).trans (inside_hif _ _ rfl)

theorem inside_noteCtxFail (r seq status : Nat) : SameInside s (s.noteCtxFail r seq status) := by
  simp only [State.noteCtxFail]
  split
  · split
    · exact inside_hif s _ rfl
    · exact .refl s
  · exact .refl s

theorem inside_dropWork (r seq : Nat) : SameInside s (s.dropWork r seq) := inside_hif s _ rfl
theorem inside_setWork (w : Work) : SameInside s (s.setWork w) := inside_hif s _ rfl
theorem inside_popHead (r : Nat) : SameInside s (s.popHead r) := inside_setRing s _ _
theorem inside_popSeq (r seq : Nat) : SameInside s (s.popSeq r seq) := inside_setRing s _ _

theorem inside_addWork (w : Work) : SameInside s (s.addWork w) :=
  have i := inside_noteAdmit s w.ring w.seq w.tag
  i.trans (inside_hif _ _ rfl)

theorem inside_abortRecords (w : Work) : SameInside s (s.abortRecords w) := by
  simp only [State.abortRecords]
  refine .foldl _ _ (fun a _ t => ?_) s
  split
  · exact (inside_dropWork t _ _).trans (inside_recordOf _ _ _ _ _ _ _ _ _)
  · exact .refl t

theorem inside_finishHead (r : Nat) (f : Fetched) (status flags words : Nat) :
    SameInside s (s.finishHead r f status flags words) :=
  (inside_popSeq s _ _).trans (inside_recordOf _ _ _ _ _ _ _ _ _)

theorem inside_finishFence (w : Work) : SameInside s (s.finishFence w) := by
  simp only [State.finishFence]
  split
  · exact (((inside_dropWork s _ _).trans (inside_recordOf _ _ _ _ _ _ _ _ _)).trans (inside_noteCtxFail _ _ _ _)).trans
      (inside_abortRecords _ _)
  · exact (((inside_dropWork s w.ring w.seq).trans (SameInside.ite (inside_hostWrite _ _ _ _) (.refl _))).trans
      (inside_recordOf _ _ _ _ _ _ _ _ _)).trans (inside_abortRecords _ _)

theorem inside_settleRing (r : Nat) : SameInside s (s.settleRing r) := by
  simp only [State.settleRing]
  split
  · split
    · split
      · exact ((inside_setRing s _ _).trans (inside_dropWork _ _ _)).trans (inside_recordOf _ _ _ _ _ _ _ _ _)
      · exact inside_setRing s _ _
    · exact inside_setRing s _ _
  · exact .refl s

theorem inside_settleOne (t : State) (h : s.settleOne = some t) : SameInside s t := by
  simp only [State.settleOne] at h
  split at h
  · cases h; exact inside_finishFence s _
  · split at h
    · cases h; exact inside_setWork s _
    · split at h
      · cases h; exact inside_finishHead s _ _ _ _ _
      · split at h
        · cases h; exact inside_settleRing s _
        · cases h

theorem inside_settleN (n : Nat) : SameInside s (s.settleN n) := by
  induction n generalizing s with
  | zero => exact .refl s
  | succ n ih =>
    simp only [State.settleN]
    split
    · rename_i t h; exact (inside_settleOne s t h).trans (ih t)
    · exact .refl s

theorem inside_settle : SameInside s s.settle := inside_settleN s _

theorem inside_complete (w : Work) (status flags words : Nat) : SameInside s (s.complete w status flags words) :=
  ((((inside_dropWork s _ _).trans (inside_recordOf _ _ _ _ _ _ _ _ _)).trans (inside_noteCtxFail _ _ _ _)).trans
    (inside_abortRecords _ _)).trans (inside_settle _)

theorem inside_reject (r : Nat) (f : Fetched) (status : Nat) : SameInside s (s.reject r f status) :=
  (inside_finishHead s _ _ _ _ _).trans (inside_settle _)

theorem inside_rejectWith (r : Nat) (f : Fetched) (status words : Nat) : SameInside s (s.rejectWith r f status words) :=
  (inside_finishHead s _ _ _ _ _).trans (inside_settle _)

theorem inside_finishNow (r : Nat) (f : Fetched) (status flags words : Nat) :
    SameInside s (s.finishNow r f status flags words) :=
  (((SameInside.ite (c := status = stDone) (inside_noteAdmit s _ _ _) (.refl s)).trans (inside_finishHead _ _ _ _ _ _)).trans
    (inside_noteCtxFail _ _ _ _)).trans (inside_settle _)

end Sys2Proof.Machine
end

