-- ==== Sys2Proof/Laws/Records.lean ====
section
/-! SUPPORT. When a command acts (whenLive, whenCore), what follows every command (updateLines), and the completion record
that a finished descriptor leaves. -/

namespace Sys2Proof.Machine

variable (s : State)

/-! ## What follows every command -/

theorem updateLines_eq : s.updateLines = s ∨ s.updateLines = s.setFld VRD_STATUS VRD_STATUS_LINES s.lineLevels := by
  unfold State.updateLines; split <;> simp

@[simp] theorem updateLines_pending : s.updateLines.pending = s.pending := by rcases updateLines_eq s with h | h <;> simp [h]
@[simp] theorem updateLines_free : s.updateLines.free = s.free := by rcases updateLines_eq s with h | h <;> simp [h]
@[simp] theorem updateLines_nv : s.updateLines.nv = s.nv := by rcases updateLines_eq s with h | h <;> simp [h]
@[simp] theorem updateLines_aon : s.updateLines.aon = s.aon := by rcases updateLines_eq s with h | h <;> simp [h]
@[simp] theorem updateLines_hif : s.updateLines.hif = s.hif := by rcases updateLines_eq s with h | h <;> simp [h]
@[simp] theorem updateLines_sec : s.updateLines.sec = s.sec := by rcases updateLines_eq s with h | h <;> simp [h]
@[simp] theorem updateLines_mem : s.updateLines.mem = s.mem := by rcases updateLines_eq s with h | h <;> simp [h]
@[simp] theorem updateLines_arr : s.updateLines.arr = s.arr := by rcases updateLines_eq s with h | h <;> simp [h]
@[simp] theorem updateLines_kv : s.updateLines.kv = s.kv := by rcases updateLines_eq s with h | h <;> simp [h]
@[simp] theorem updateLines_vcd : s.updateLines.vcd = s.vcd := by rcases updateLines_eq s with h | h <;> simp [h]
@[simp] theorem updateLines_stn : s.updateLines.stn = s.stn := by rcases updateLines_eq s with h | h <;> simp [h]
@[simp] theorem updateLines_vrd : s.updateLines.vrd = s.vrd := by rcases updateLines_eq s with h | h <;> simp [h]
@[simp] theorem updateLines_merge : s.updateLines.merge = s.merge := by rcases updateLines_eq s with h | h <;> simp [h]
@[simp] theorem updateLines_pair : s.updateLines.pair = s.pair := by rcases updateLines_eq s with h | h <;> simp [h]
@[simp] theorem updateLines_olp : s.updateLines.olp = s.olp := by rcases updateLines_eq s with h | h <;> simp [h]
@[simp] theorem updateLines_pwr : s.updateLines.pwr = s.pwr := by rcases updateLines_eq s with h | h <;> simp [h]
@[simp] theorem updateLines_mon : s.updateLines.mon = s.mon := by rcases updateLines_eq s with h | h <;> simp [h]
@[simp] theorem updateLines_out : s.updateLines.out = s.out := by rcases updateLines_eq s with h | h <;> simp [h]

theorem updateLines_reg {o : Nat} (h : o ≠ VRD_STATUS) : s.updateLines.reg o = s.reg o := by
  rcases updateLines_eq s with e | e <;> simp [e, s.reg_setFld_ne _ _ h]

theorem updateLines_fld {o : Nat} (b : Bits) (h : o ≠ VRD_STATUS) : s.updateLines.fld o b = s.fld o b :=
  s.fld_congr b (updateLines_reg s h)

theorem updateLines_bit {o : Nat} (b : Bits) (h : o ≠ VRD_STATUS) : s.updateLines.bit o b = s.bit o b :=
  s.bit_congr b (updateLines_reg s h)

@[simp] theorem updateLines_ring (r : Nat) : s.updateLines.ring r = s.ring r := by simp [State.ring]
@[simp] theorem updateLines_part (r : Nat) : s.updateLines.part r = s.part r := by simp [State.part]
@[simp] theorem updateLines_ctx (r : Nat) : s.updateLines.ctx r = s.ctx r := by simp [State.ctx]
@[simp] theorem updateLines_seq (r : Nat) : s.updateLines.seq r = s.seq r := by simp [State.seq]
@[simp] theorem updateLines_frame (r : Nat) : s.updateLines.frame r = s.frame r := by simp [State.frame]
@[simp] theorem updateLines_bankSt (r : Nat) : s.updateLines.bankSt r = s.bankSt r := by simp [State.bankSt]
@[simp] theorem updateLines_tile (r : Nat) : s.updateLines.tile r = s.tile r := by simp [State.tile]
@[simp] theorem updateLines_hub (r : Nat) : s.updateLines.hub r = s.hub r := by simp [State.hub]
@[simp] theorem updateLines_port (r : Nat) : s.updateLines.port r = s.port r := by simp [State.port]

/-! ## The weaker frame -/

theorem SameInside.units {s t : State} (h : SameInside s t) : SameUnits s t :=
  ⟨h.pending, h.nv, h.aon, h.sec, h.mem, h.arr, h.kv, h.vcd, h.stn, h.vrd, h.merge, h.pair, h.olp,
    fun o ho _ => h.reg o (by omega), h.out, h.ue⟩

theorem SameUnits.refl (s : State) : SameUnits s s := (SameInside.refl s).units

theorem SameUnits.trans {s t u : State} (h : SameUnits s t) (k : SameUnits t u) : SameUnits s u :=
  ⟨k.pending.trans h.pending, k.nv.trans h.nv, k.aon.trans h.aon, k.sec.trans h.sec, k.mem.trans h.mem, k.arr.trans h.arr,
    k.kv.trans h.kv, k.vcd.trans h.vcd, k.stn.trans h.stn, k.vrd.trans h.vrd, k.merge.trans h.merge, k.pair.trans h.pair,
    k.olp.trans h.olp, fun o ho hv => (k.reg o ho hv).trans (h.reg o ho hv), h.out.trans k.out,
    k.ue.trans h.ue⟩

theorem SameUnits.fld {s t : State} (h : SameUnits s t) (o : Nat) (b : Bits) (ho : o < 0x30000 ∨ 0x50000 ≤ o)
    (hv : o ≠ VRD_STATUS) : t.fld o b = s.fld o b := s.fld_congr b (h.reg o ho hv)

theorem SameUnits.bit {s t : State} (h : SameUnits s t) (o : Nat) (b : Bits) (ho : o < 0x30000 ∨ 0x50000 ≤ o)
    (hv : o ≠ VRD_STATUS) : t.bit o b = s.bit o b := s.bit_congr b (h.reg o ho hv)

theorem SameUnits.part {s t : State} (h : SameUnits s t) (k : Nat) : t.part k = s.part k := by simp [State.part, h.sec]
theorem SameUnits.ctx {s t : State} (h : SameUnits s t) (k : Nat) : t.ctx k = s.ctx k := by simp [State.ctx, h.sec]
theorem SameUnits.seq {s t : State} (h : SameUnits s t) (k : Nat) : t.seq k = s.seq k := by simp [State.seq, h.kv]
theorem SameUnits.frame {s t : State} (h : SameUnits s t) (k : Nat) : t.frame k = s.frame k := by simp [State.frame, h.kv]
theorem SameUnits.bankSt {s t : State} (h : SameUnits s t) (k : Nat) : t.bankSt k = s.bankSt k := by simp [State.bankSt, h.arr]
theorem SameUnits.tile {s t : State} (h : SameUnits s t) (k : Nat) : t.tile k = s.tile k := by simp [State.tile, h.arr]
theorem SameUnits.hub {s t : State} (h : SameUnits s t) (k : Nat) : t.hub k = s.hub k := by simp [State.hub, h.arr]
theorem SameUnits.port {s t : State} (h : SameUnits s t) (k : Nat) : t.port k = s.port k := by simp [State.port, h.olp]

theorem SameUnits.foldl {α : Type} (l : List α) (f : State → α → State) (h : ∀ a ∈ l, ∀ t, SameUnits t (f t a)) (s : State) :
    SameUnits s (l.foldl f s) := by
  induction l generalizing s with
  | nil => exact .refl s
  | cons a l ih =>
    exact (h a (List.mem_cons_self ..) s).trans (ih (fun b hb => h b (List.mem_cons_of_mem _ hb)) _)

theorem units_updateLines : SameUnits s s.updateLines :=
  ⟨by simp, by simp, by simp, by simp, by simp, by simp, by simp, by simp, by simp, by simp, by simp, by simp, by simp,
    fun _ _ hv => updateLines_reg s hv, by simp, by simp⟩

theorem units_setReg_pwr (o : Nat) (w : W64) (ho : 0x30000 ≤ o ∧ o < 0x50000) : SameUnits s (s.setReg o w) :=
  ⟨rfl, rfl, rfl, rfl, rfl, rfl, rfl, rfl, rfl, rfl, rfl, rfl, rfl, fun k hk _ => s.reg_setReg_ne w (by omega), List.suffix_refl _, rfl⟩

theorem units_pwr (x : Pwr) : SameUnits s { s with pwr := x } :=
  ⟨rfl, rfl, rfl, rfl, rfl, rfl, rfl, rfl, rfl, rfl, rfl, rfl, rfl, fun _ _ _ => rfl, List.suffix_refl _, rfl⟩

theorem units_setGuards : SameUnits s s.setGuards := by
  refine SameUnits.foldl _ _ (fun c hc t => ?_) s
  have ho : 0x30000 ≤ PWR_CLU c ∧ PWR_CLU c < 0x50000 := by
    have := List.mem_range.mp hc; simp only [PWR_CLU]; omega
  dsimp only
  split
  · exact .refl t
  · exact (units_setReg_pwr t _ _ ho).trans (units_setReg_pwr _ _ _ ho)

theorem units_hintDone (h : Hint) (level result ready : Nat) : SameUnits s (s.hintDone h level result ready) := by
  simp only [State.hintDone]
  split
  · exact (inside_complete s _ _ _ _).units
  · exact .refl s

theorem units_hintStep (h : Hint) : SameUnits s (s.hintStep h) := by
  have hd : ∀ t : State, SameUnits t (t.dropHint h) := fun t => units_pwr t _
  have ha : ∀ (t : State) (b : Bits) (n : Nat), SameUnits t (t.addSat PWR_HINTS b n) := fun t b n =>
    units_setReg_pwr t _ _ (by decide)
  simp only [State.hintStep]
  split
  · exact hd s
  · split
    · split
      · exact hd s
      · exact (hd s).trans (units_hintDone _ _ _ _ _)
    · split
      · split
        · exact (hd s).trans (ha _ _ _)
        · exact (hd s).trans (units_hintDone _ _ _ _ _)
      · split
        · exact ((units_pwr s _).trans (ha _ _ _)).trans (units_hintDone _ _ _ _ _)
        · exact .refl s

/-- Hints that end or take effect touch only power management, rings and records. -/
theorem units_refreshHints : SameUnits s s.refreshHints :=
  (SameUnits.foldl _ _ (fun h _ t => units_hintStep t h) s).trans (units_setGuards _)

theorem units_showCluster (c : Nat) (hc : c < 8) : SameUnits s (s.showCluster c) := by
  have ho : 0x30000 ≤ PWR_CLU c ∧ PWR_CLU c < 0x50000 := by simp only [PWR_CLU]; omega
  exact (((units_setReg_pwr s _ _ ho).trans (units_setReg_pwr _ _ _ ho)).trans (units_setReg_pwr _ _ _ ho)).trans
    (units_setReg_pwr _ _ _ ho)

theorem units_traceThrottle (before : W64) : SameUnits s (s.traceThrottle before) := by
  simp only [State.traceThrottle]
  split
  · exact .refl s
  · exact (inside_trace s _).units

/-- The actions in force are shown, hints and waiting work follow. -/
theorem units_applyActions : SameUnits s s.applyActions := by
  have hw : ∀ (t : State) o w, (o = PWR_STATUS ∨ o = PWR_THROTTLE_REASON) → SameUnits t (t.setReg o w) := fun t o w h =>
    units_setReg_pwr t o w (by rcases h with h | h <;> subst h <;> decide)
  refine .trans (.trans ((units_refreshHints s).trans (.foldl _ _ (fun c hc t => units_showCluster t c (List.mem_range.mp hc)) _))
    ?_) (inside_settle _).units
  exact (((((hw _ _ _ (.inl rfl)).trans (hw _ _ _ (.inl rfl))).trans (hw _ _ _ (.inr rfl))).trans (units_traceThrottle _ _)).trans
    (hw _ _ _ (.inl rfl))).trans (hw _ _ _ (.inl rfl))

/-! ## When the module acts -/

theorem checkUe_same {t : State} (h : t.hif.ueTimes = s.hif.ueTimes) : s.checkUe t = t := by
  simp [State.checkUe, h]

/-- A command of the switched domains that adds no demand error. -/
theorem whenCore_acts {k : State → State} (h : s.acts) (hu : (k s).hif.ueTimes = s.hif.ueTimes) :
    s.whenCore k = (k s).updateLines := by
  simp [State.whenCore, h.1, h.2, checkUe_same s hu]

/-- Without core rails, and in a Cast freeze, nothing happens. -/
theorem whenCore_idle {k : State → State} (h : s.aon.core = false ∨ s.aon.cast.frozen = true) : s.whenCore k = s := by
  rcases h with h | h <;> simp [State.whenCore, h]

theorem whenLive_live {k : State → State} (h : s.live) : s.whenLive k = (k s).updateLines := by
  simp [State.whenLive, h.1, h.2]

theorem whenLive_idle {k : State → State} (h : s.aon.rails = false ∨ s.aon.cast.frozen = true) : s.whenLive k = s := by
  rcases h with h | h <;> simp [State.whenLive, h]

theorem whenThawed_thawed {k : State → State} (h : s.aon.cast.frozen = false) : s.whenThawed k = (k s).updateLines := by
  simp [State.whenThawed, h]

/-- A command of the switched domains that goes on to `u` and then only completes, signals and settles answers a next state. -/
theorem core_next {s u : State} {c : Instr} {k : State → State} {P : State → Prop} (h : s.acts)
    (he : exec c s = .next (s.whenCore k)) (hu : u.hif.ueTimes = s.hif.ueTimes) (i : SameUnits u (k s))
    (hp : ∀ t, SameUnits u t → P t) : ∃ t, exec c s = .next t ∧ P t :=
  ⟨_, he, by rw [whenCore_acts s h (i.ue.trans hu)]; exact hp _ (i.trans (units_updateLines _))⟩

/-- The same for a command of the always-on domain. -/
theorem live_next {s u : State} {c : Instr} {k : State → State} {P : State → Prop} (h : s.live)
    (he : exec c s = .next (s.whenLive k)) (i : SameUnits u (k s))
    (hp : ∀ t, SameUnits u t → P t) : ∃ t, exec c s = .next t ∧ P t :=
  ⟨_, he, by rw [whenLive_live s h]; exact hp _ (i.trans (units_updateLines _))⟩

/-- A command of the switched domains that goes on to exactly `v`. -/
theorem core_eq {s v : State} {c : Instr} {k : State → State} (h : s.acts) (he : exec c s = .next (s.whenCore k)) (e : k s = v)
    (hu : v.hif.ueTimes = s.hif.ueTimes) : exec c s = .next v.updateLines := by
  rw [he, whenCore_acts s h (by rw [e]; exact hu), e]

theorem live_eq {s v : State} {c : Instr} {k : State → State} (h : s.live) (he : exec c s = .next (s.whenLive k)) (e : k s = v) :
    exec c s = .next v.updateLines := by
  rw [he, whenLive_live s h, e]

theorem SameInside.ring_reads {t : State} (h : SameInside s t) (r : Nat) : t.servingFn r = s.servingFn r ∧ t.linkUp = s.linkUp := by
  have h1 := h.reg HIF_STATUS (by decide)
  constructor
  · unfold State.servingFn State.vfServed State.fld; rw [h1]
  · unfold State.linkUp State.bit State.fld; rw [h1]

/-! ## Operations that leave the host interface's tables alone -/

theorem foldl_hif {α : Type} (l : List α) (f : State → α → State) (h : ∀ a ∈ l, ∀ t, (f t a).hif = t.hif) (s : State) :
    (l.foldl f s).hif = s.hif := by
  induction l generalizing s with
  | nil => rfl
  | cons a l ih => rw [List.foldl_cons, ih (fun b hb => h b (List.mem_cons_of_mem _ hb)), h a (List.mem_cons_self ..)]

@[simp] theorem countWhere_hif (p : W64 → Bool) (n : Nat) : (s.countWhere p n).hif = s.hif := by
  simp only [State.countWhere]
  split
  · refine foldl_hif _ _ (fun i _ t => ?_) s
    split
    · simp only [State.cntAdd]; split <;> rfl
    · rfl
  · rfl

@[simp] theorem count_hif (code ctx unit n : Nat) : (s.count code ctx unit n).hif = s.hif := countWhere_hif s _ n
@[simp] theorem tlpIn_hif (fn n : Nat) : (s.tlpIn fn n).hif = s.hif := countWhere_hif s _ n
@[simp] theorem tlpOut_hif (fn n : Nat) : (s.tlpOut fn n).hif = s.hif := countWhere_hif s _ n

@[simp] theorem trace_hif (e : TraceEv) : (s.trace e).hif = s.hif := by
  simp only [State.trace]; split
  · split <;> rfl
  · rfl

@[simp] theorem noteAdmit_hif (r seq : Nat) (tag : W32) : (s.noteAdmit r seq tag).hif = s.hif := by
  simp [State.noteAdmit, State.traceRing]

@[simp] theorem noteAdmit_ring (r seq : Nat) (tag : W32) (k : Nat) : (s.noteAdmit r seq tag).ring k = s.ring k := by
  simp [State.ring]

@[simp] theorem count_ring (code ctx unit n r : Nat) : (s.count code ctx unit n).ring r = s.ring r := by simp [State.ring]

theorem foldl_out {α : Type} (l : List α) (f : State → α → State) (h : ∀ a ∈ l, ∀ t, (f t a).out = t.out) (s : State) :
    (l.foldl f s).out = s.out := by
  induction l generalizing s with
  | nil => rfl
  | cons a l ih => rw [List.foldl_cons, ih (fun b hb => h b (List.mem_cons_of_mem _ hb)), h a (List.mem_cons_self ..)]

@[simp] theorem countWhere_out (p : W64 → Bool) (n : Nat) : (s.countWhere p n).out = s.out := by
  simp only [State.countWhere]
  split
  · refine foldl_out _ _ (fun i _ t => ?_) s
    split
    · simp only [State.cntAdd]; split <;> rfl
    · rfl
  · rfl

@[simp] theorem count_out (code ctx unit n : Nat) : (s.count code ctx unit n).out = s.out := countWhere_out s _ n
@[simp] theorem tlpIn_out (fn n : Nat) : (s.tlpIn fn n).out = s.out := countWhere_out s _ n
@[simp] theorem tlpOut_out (fn n : Nat) : (s.tlpOut fn n).out = s.out := countWhere_out s _ n

@[simp] theorem trace_out (e : TraceEv) : (s.trace e).out = s.out := by
  simp only [State.trace]; split
  · split <;> rfl
  · rfl

@[simp] theorem hostWrite_hif (fn addr : Nat) (bytes : List Byte) : (s.hostWrite fn addr bytes).hif = s.hif := by
  simp only [State.hostWrite]; split <;> simp

theorem hostWrite_mem_out (fn addr : Nat) {bytes : List Byte} (hl : s.linkUp = true) (hb : bytes ≠ []) :
    Out.hostWrite fn addr bytes ∈ (s.hostWrite fn addr bytes).out := by
  simp [State.hostWrite, hl, hb, State.emit]

/-! ## Records -/

theorem recordSent_units {t u : State} {r seq words status cls flags : Nat} {tag : W32}
    (h : s.recordSent t r tag seq words status cls flags) (k : SameUnits t u) : s.recordSent u r tag seq words status cls flags :=
  ⟨k.out.subset h.1, k.out.subset h.2⟩

theorem recordSent_mono {t u : State} {r seq words status cls flags : Nat} {tag : W32}
    (h : s.recordSent t r tag seq words status cls flags) (k : SameInside t u) : s.recordSent u r tag seq words status cls flags :=
  ⟨k.out.subset h.1, k.out.subset h.2⟩

/-- A record is sent where its ring stood. -/
theorem recordSent_from {t v : State} {r seq words status cls flags : Nat} {tag : W32}
    (h : v.recordSent t r tag seq words status cls flags) (hf : v.servingFn r = s.servingFn r)
    (hc : (v.ring r).cqBase = (s.ring r).cqBase) (hr : (v.ring r).records = (s.ring r).records)
    (hl : (v.ring r).log2 = (s.ring r).log2) : s.recordSent t r tag seq words status cls flags := by
  simpa [State.recordSent, hf, hc, hr, hl] using h

theorem recordSent_putRecord (r : Nat) (tag : W32) (seq words status cls flags : Nat) (want : Bool) (hl : s.linkUp = true)
    (hm : (s.ring r).mute = false) :
    s.recordSent (s.putRecord r tag seq words status cls flags want) r tag seq words status cls flags := by
  have hh : recordHead tag seq words ≠ [] := by simp [recordHead, leBytes]
  have ht : ∀ p, recordTail status cls flags p ≠ [] := by simp [recordTail]
  have h1 := hostWrite_mem_out s (s.servingFn r) ((s.ring r).cqBase.toNat + 32 * ((s.ring r).records.toNat % 2 ^ (s.ring r).log2)) hl hh
  have i1 := inside_hostWrite s (s.servingFn r) ((s.ring r).cqBase.toNat + 32 * ((s.ring r).records.toNat % 2 ^ (s.ring r).log2))
    (recordHead tag seq words)
  have h2 := hostWrite_mem_out _ (s.servingFn r) ((s.ring r).cqBase.toNat + 32 * ((s.ring r).records.toNat % 2 ^ (s.ring r).log2) + 28)
    ((SameInside.ring_reads s i1 r).2.trans hl) (ht (recordPhase (s.ring r).log2 (s.ring r).records.toNat))
  have i2 := inside_hostWrite (s.hostWrite (s.servingFn r) ((s.ring r).cqBase.toNat + 32 * ((s.ring r).records.toNat % 2 ^ (s.ring r).log2))
    (recordHead tag seq words)) (s.servingFn r) ((s.ring r).cqBase.toNat + 32 * ((s.ring r).records.toNat % 2 ^ (s.ring r).log2) + 28)
    (recordTail status cls flags (recordPhase (s.ring r).log2 (s.ring r).records.toNat))
  have h3 : s.recordSent _ r tag seq words status cls flags := ⟨i2.out.subset h1, h2⟩
  refine recordSent_mono s h3 ?_
  simp only [State.putRecord, hm, Bool.false_eq_true, if_false]
  refine .ite (.trans ?_ (inside_ringInterrupt _ _)) ?_ <;>
    exact .trans (.ite (inside_setRing _ _ _) ((inside_setRing _ _ _).trans (inside_count _ _ _ _ _)))
      (inside_traceRing _ _ _ _ _ _)

theorem recordSent_recordOf (r seq : Nat) (tag : W32) (cls status flags words : Nat) (intr : Bool) (hl : s.linkUp = true)
    (hm : (s.ring r).mute = false) :
    s.recordSent (s.recordOf r seq tag cls status flags words intr) r tag seq words status cls flags :=
  recordSent_mono s (recordSent_putRecord s r tag seq words status cls flags intr hl hm)
    ((inside_noteDone _ _ _ _ _ _).trans (inside_hif _ _ rfl))

theorem answered_finishHead (r : Nat) (f : Fetched) (status flags words : Nat) (hl : s.linkUp = true)
    (hm : (s.ring r).mute = false) : s.answered (s.finishHead r f status flags words) r f status flags words := by
  have h := recordSent_recordOf (s.popSeq r f.seq) r f.seq (BitVec.ofNat 32 (dF f.desc 4 4)) (dF f.desc 0 1) status flags words
    (decide (dF f.desc 1 1 % 2 = 1)) hl (by simpa [State.popSeq, State.ring, State.setRing] using hm)
  exact recordSent_from s h rfl (by simp [State.popSeq, State.ring, State.setRing])
    (by simp [State.popSeq, State.ring, State.setRing]) (by simp [State.popSeq, State.ring, State.setRing])

/-- A descriptor that fails a check is answered with the check's status. -/
theorem answered_reject (r : Nat) (f : Fetched) (status : Nat) (hl : s.linkUp = true) (hm : (s.ring r).mute = false) :
    s.answered (s.reject r f status) r f status 0 (s.idleWords r f.desc) :=
  recordSent_mono s (answered_finishHead s r f status 0 _ hl hm) (inside_settle _)

/-- A descriptor that does its work at its admission is answered. -/
theorem answered_finishNow (r : Nat) (f : Fetched) (status flags words : Nat) (hl : s.linkUp = true)
    (hm : (s.ring r).mute = false) : s.answered (s.finishNow r f status flags words) r f status flags words := by
  simp only [State.finishNow]
  split
  · rename_i hd
    have i := inside_noteAdmit s r f.seq (BitVec.ofNat 32 (dF f.desc 4 4))
    have h := answered_finishHead (s.noteAdmit r f.seq (BitVec.ofNat 32 (dF f.desc 4 4))) r f status flags words
      ((SameInside.ring_reads s i r).2.trans hl) (by simpa using hm)
    exact recordSent_mono s (recordSent_from s h (SameInside.ring_reads s i r).1 (by simp) (by simp) (by simp))
      ((inside_noteCtxFail _ _ _ _).trans (inside_settle _))
  · exact recordSent_mono s (answered_finishHead s r f status flags words hl hm)
      ((inside_noteCtxFail _ _ _ _).trans (inside_settle _))

/-- An admitted descriptor that completes is answered. -/
theorem recordSent_complete (w : Work) (status flags words : Nat) (hl : s.linkUp = true) (hm : (s.ring w.ring).mute = false) :
    s.recordSent (s.complete w status flags words) w.ring w.tag w.seq words status w.cls flags := by
  have h := recordSent_recordOf (s.dropWork w.ring w.seq) w.ring w.seq w.tag w.cls status flags words w.intr hl hm
  exact recordSent_mono s (recordSent_from s h rfl rfl rfl rfl)
    (((inside_noteCtxFail _ _ _ _).trans (inside_abortRecords _ _)).trans (inside_settle _))

theorem servingFn_congr {v : State} (r : Nat) (h : v.reg HIF_STATUS = s.reg HIF_STATUS) : v.servingFn r = s.servingFn r := by
  unfold State.servingFn State.vfServed State.fld; rw [h]

theorem linkUp_congr {v : State} (h : v.reg HIF_STATUS = s.reg HIF_STATUS) : v.linkUp = s.linkUp := by
  unfold State.linkUp State.bit State.fld; rw [h]

/-- A descriptor at the head of its ring that is answered after its effect `v`, which left its ring and the link alone. -/
theorem State.DescAt.finishNow {s v : State} {r cls op : Nat} {f : Fetched} (h : s.DescAt r cls op f) (status flags words : Nat)
    (hr : v.ring r = s.ring r) (hs : v.reg HIF_STATUS = s.reg HIF_STATUS) :
    s.answered (v.finishNow r f status flags words) r f status flags words :=
  recordSent_from s (answered_finishNow v r f status flags words ((linkUp_congr s hs).trans h.link) (hr ▸ h.heard))
    (servingFn_congr s r hs) (by rw [hr]) (by rw [hr]) (by rw [hr])

theorem State.DescAt.reject {s v : State} {r cls op : Nat} {f : Fetched} (h : s.DescAt r cls op f) (status : Nat)
    (hr : v.ring r = s.ring r) (hs : v.reg HIF_STATUS = s.reg HIF_STATUS) :
    s.answered (v.reject r f status) r f status 0 (v.idleWords r f.desc) :=
  recordSent_from s (answered_reject v r f status ((linkUp_congr s hs).trans h.link) (hr ▸ h.heard))
    (servingFn_congr s r hs) (by rw [hr]) (by rw [hr]) (by rw [hr])

/-- The class byte of a head. -/
theorem State.DescAt.cls {s : State} {r cls op : Nat} {f : Fetched} (h : s.DescAt r cls op f) : dF f.desc 0 1 = cls := by
  have := h.head
  simp only [State.headOf] at this
  split at this
  · split at this
    · cases this; rename_i hc; simp at hc; exact hc.1.1.1
    · cases this
  · cases this

/-! ## The head of a ring -/

theorem withHead_at {r cls op : Nat} {f : Fetched} {k : Fetched → State} (h : s.DescAt r cls op f) :
    s.withHead r cls op k = k f := by
  simp [State.withHead, h.head, h.op, h.serves]

theorem withAdmin_at {r op : Nat} {f : Fetched} {k : Fetched → State} (h : s.DescAt r clAdmin op f) :
    s.withAdmin r op true k = k f := by
  simp [State.withAdmin, withHead_at s h]

end Sys2Proof.Machine
end

