-- ==== Sys2Proof/Laws/Memory.lean ====
section
/-! SUPPORT. What accesses to module DRAM leave alone (SameHost): rings and the host interface, contexts, the units and their
registers, all but the memory, the links and the counters. -/

namespace Sys2Proof.Machine

variable (s : State)

/-- What the rings, the contexts and the units hold is the same, and what has left the module has left it: the frame of
accesses to module DRAM, which move memory, links and counters only. -/
structure SameHost (s t : State) : Prop where
  pending : t.pending = s.pending
  nv : t.nv = s.nv
  aon : t.aon = s.aon
  hif : t.hif = s.hif
  sec : t.sec = s.sec
  arr : t.arr = s.arr
  kv : t.kv = s.kv
  vcd : t.vcd = s.vcd
  stn : t.stn = s.stn
  vrd : t.vrd = s.vrd
  merge : t.merge = s.merge
  pair : t.pair = s.pair
  pwr : t.pwr = s.pwr
  windows : t.olp.windows = s.olp.windows
  reg : ∀ o, 0x10000 ≤ o ∧ o < 0x40000 → t.reg o = s.reg o
  out : s.out <:+ t.out

theorem SameHost.refl : SameHost s s :=
  ⟨rfl, rfl, rfl, rfl, rfl, rfl, rfl, rfl, rfl, rfl, rfl, rfl, rfl, rfl, fun _ _ => rfl, List.suffix_refl _⟩

theorem SameHost.trans {s t u : State} (h : SameHost s t) (k : SameHost t u) : SameHost s u :=
  ⟨k.pending.trans h.pending, k.nv.trans h.nv, k.aon.trans h.aon, k.hif.trans h.hif, k.sec.trans h.sec, k.arr.trans h.arr,
    k.kv.trans h.kv, k.vcd.trans h.vcd, k.stn.trans h.stn, k.vrd.trans h.vrd, k.merge.trans h.merge, k.pair.trans h.pair,
    k.pwr.trans h.pwr, k.windows.trans h.windows, fun o ho => (k.reg o ho).trans (h.reg o ho), h.out.trans k.out⟩

theorem SameHost.ite {c : Prop} [Decidable c] {s t u : State} (ht : SameHost s t) (hu : SameHost s u) :
    SameHost s (if c then t else u) := by split <;> assumption

theorem SameHost.foldl {α : Type} (l : List α) (f : State → α → State) (h : ∀ a ∈ l, ∀ t, SameHost t (f t a)) (s : State) :
    SameHost s (l.foldl f s) := by
  induction l generalizing s with
  | nil => exact .refl s
  | cons a l ih =>
    exact (h a (List.mem_cons_self ..) s).trans (ih (fun b hb => h b (List.mem_cons_of_mem _ hb)) _)

theorem SameHost.fld {s t : State} (h : SameHost s t) (o : Nat) (b : Bits) (ho : 0x10000 ≤ o ∧ o < 0x40000) :
    t.fld o b = s.fld o b := s.fld_congr b (h.reg o ho)
theorem SameHost.bit {s t : State} (h : SameHost s t) (o : Nat) (b : Bits) (ho : 0x10000 ≤ o ∧ o < 0x40000) :
    t.bit o b = s.bit o b := s.bit_congr b (h.reg o ho)
theorem SameHost.ring {s t : State} (h : SameHost s t) (r : Nat) : t.ring r = s.ring r := by simp [State.ring, h.hif]
theorem SameHost.part {s t : State} (h : SameHost s t) (k : Nat) : t.part k = s.part k := by simp [State.part, h.sec]
theorem SameHost.ctx {s t : State} (h : SameHost s t) (k : Nat) : t.ctx k = s.ctx k := by simp [State.ctx, h.sec]
theorem SameHost.seq {s t : State} (h : SameHost s t) (k : Nat) : t.seq k = s.seq k := by simp [State.seq, h.kv]
theorem SameHost.frame {s t : State} (h : SameHost s t) (k : Nat) : t.frame k = s.frame k := by simp [State.frame, h.kv]
theorem SameHost.bankSt {s t : State} (h : SameHost s t) (k : Nat) : t.bankSt k = s.bankSt k := by simp [State.bankSt, h.arr]

theorem host_setReg (o : Nat) (w : W64) (ho : o < 0x10000 ∨ 0x40000 ≤ o) : SameHost s (s.setReg o w) :=
  ⟨rfl, rfl, rfl, rfl, rfl, rfl, rfl, rfl, rfl, rfl, rfl, rfl, rfl, rfl, fun k hk => s.reg_setReg_ne w (by omega), List.suffix_refl _⟩

theorem host_mem (m : Mem) : SameHost s { s with mem := m } :=
  ⟨rfl, rfl, rfl, rfl, rfl, rfl, rfl, rfl, rfl, rfl, rfl, rfl, rfl, rfl, fun _ _ => rfl, List.suffix_refl _⟩

theorem host_setPort (p : Nat) (x : Port) : SameHost s (s.setPort p x) :=
  ⟨rfl, rfl, rfl, rfl, rfl, rfl, rfl, rfl, rfl, rfl, rfl, rfl, rfl, rfl, fun _ _ => rfl, List.suffix_refl _⟩

theorem host_emit (x : Out) : SameHost s (s.emit x) :=
  ⟨rfl, rfl, rfl, rfl, rfl, rfl, rfl, rfl, rfl, rfl, rfl, rfl, rfl, rfl, fun _ _ => rfl, List.suffix_cons _ _⟩

theorem host_bwAdd (p n : Nat) : SameHost s (s.bwAdd p n) :=
  ⟨rfl, rfl, rfl, rfl, rfl, rfl, rfl, rfl, rfl, rfl, rfl, rfl, rfl, rfl, fun _ _ => rfl, List.suffix_refl _⟩

theorem host_count (code ctx unit n : Nat) : SameHost s (s.count code ctx unit n) :=
  have i := inside_count s code ctx unit n
  ⟨i.pending, i.nv, i.aon, count_hif .., i.sec, i.arr, i.kv, i.vcd, i.stn, i.vrd, i.merge, i.pair, i.pwr, by rw [i.olp],
    fun o ho => i.reg o (by omega), i.out⟩

theorem host_wakeMem (m : Nat) : SameHost s (s.wakeMem m) := by
  refine .ite (.refl s) ((host_setReg s _ _ ?_).trans (host_setReg _ _ _ ?_))
  · left; simp only [domPlace]; decide
  · right; simp only [MEM_STATUS]; omega

/-- An access to a line of module DRAM. -/
theorem host_touchLine (c line : Nat) (write : Bool) : SameHost s (s.touchLine c line write) := by
  have hw := host_wakeMem s (dramChannel (line * 64))
  simp only [State.touchLine]
  split
  · exact (hw.trans (host_count _ _ _ _ _)).trans (host_mem _ _)
  · refine (hw.trans (.trans ?_ (.foldl _ _ (fun e _ t => ?_) _))).trans (host_mem _ _)
    · exact .ite (host_count _ _ _ _ _) (((host_count _ _ _ _ _).trans (host_count _ _ _ _ _)).trans (host_bwAdd _ _ _))
    · exact .ite ((host_count _ _ _ _ _).trans (host_bwAdd _ _ _)) (.refl t)

theorem host_touch (c addr len : Nat) (write : Bool) : SameHost s (s.touch c addr len write) :=
  .foldl _ _ (fun _ _ t => host_touchLine t _ _ _) s

theorem host_purge (gone : Nat × Nat × Bool → Bool) : SameHost s (s.purge gone) :=
  .trans (.foldl _ _ (fun _ _ t => (host_count t _ _ _ _).trans (host_bwAdd _ _ _)) s) (host_mem _ _)

theorem host_heal (addr len : Nat) : SameHost s (s.heal addr len) := host_mem s _

theorem host_dramPut (c a : Nat) (bs : List Byte) : SameHost s (s.dramPut c a bs) := host_mem s _

theorem host_pump (p n : Nat) : SameHost s (State.pump p n s) := by
  induction n generalizing s with
  | zero => exact .refl s
  | succ n ih =>
    simp only [State.pump]
    split
    · exact .refl s
    · refine .trans (.trans ?_ (host_bwAdd _ _ _)) (ih _)
      refine .ite ((host_emit s _).trans (host_setPort _ _ _)) ?_
      exact ((((host_emit s _).trans (host_setPort _ _ _)).trans (host_setReg _ _ _ (by simp only [OLP_PORT_TX_BYTES]; omega))).trans
        (host_count _ _ _ _ _))

theorem host_sendFrame (p : Nat) (f : LinkFrame) : SameHost s (s.sendFrame p f) :=
  .ite ((host_setPort s _ _).trans (host_pump _ _ _)) (.refl s)

theorem host_wakePort (p : Nat) : SameHost s (s.wakePort p) := by
  refine .ite (.refl s) ((host_setReg s _ _ ?_).trans (host_setReg _ _ _ ?_))
  · left; simp only [domPlace]; decide
  · right; simp only [OLP_PORT_STATUS]; omega

theorem host_sendData (p : Nat) (f : LinkFrame) : SameHost s (s.sendData p f) :=
  .ite (host_sendFrame s p f) ((host_wakePort s p).trans (host_setPort _ _ _))

theorem host_sendRange (p win c base size n lo hi : Nat) : SameHost s (State.sendRange p win c base size n s lo hi) := by
  induction n generalizing s lo with
  | zero => exact .refl s
  | succ n ih => exact .ite (.refl s) ((host_sendData s _ _).trans (ih _ _))

theorem host_carry (c addr len : Nat) : SameHost s (s.carry c addr len) :=
  .foldl _ _ (fun _ _ t => .ite (host_sendRange t _ _ _ _ _ _ _ _) (.refl t)) s

/-- A write to module DRAM: objects that it overlaps leave the verified-object caches first (R58). -/
theorem host_dramWrite (c addr : Nat) (bs : List Byte) :
    SameHost (s.evictObjects addr bs.length) (s.dramWrite c addr bs) :=
  (((host_touch _ _ _ _ _).trans (host_heal _ _ _)).trans (host_dramPut _ _ _ _)).trans (host_carry _ _ _ _)

theorem tabGet?_map {α : Type} (t : Tab α) (g : α → α) (k : Nat) :
    tabGet? (t.map fun e => (e.1, g e.2)) k = (tabGet? t k).map g := by
  induction t with
  | nil => rfl
  | cons e t ih =>
    obtain ⟨a, v⟩ := e
    simp only [List.map_cons, tabGet?]
    split
    · rfl
    · rw [ih]

/-- The write watch changes the verified-object cache of a context, and nothing else of it. -/
theorem ctx_evictObjects (addr len c : Nat) : (s.evictObjects addr len).ctx c =
    { s.ctx c with cache := (s.ctx c).cache.filter fun o => !(overlaps addr len o.addr o.len) } := by
  simp only [State.ctx, State.evictObjects, tabGetD]
  rw [tabGet?_map s.sec.ctxs (fun x => { x with cache := x.cache.filter fun o => !(overlaps addr len o.addr o.len) })]
  cases tabGet? s.sec.ctxs c <;> rfl

@[simp] theorem evictObjects_hif (addr len : Nat) : (s.evictObjects addr len).hif = s.hif := rfl
@[simp] theorem evictObjects_reg (addr len o : Nat) : (s.evictObjects addr len).reg o = s.reg o := rfl
@[simp] theorem dramUndef_hif (c addr len : Nat) : (s.dramUndef c addr len).hif = s.hif := rfl
@[simp] theorem dramUndef_reg (c addr len o : Nat) : (s.dramUndef c addr len).reg o = s.reg o := rfl
@[simp] theorem dramUndef_ctx (c addr len k : Nat) : (s.dramUndef c addr len).ctx k = (s.evictObjects addr len).ctx k := rfl

/-! ## DRAM contents -/

theorem touchLine_dram (c l w) : (s.touchLine c l w).mem.dram = s.mem.dram := by
  have h1 : ∀ (t : State) a b x d, (t.count a b x d).mem = t.mem := fun t a b x d => (inside_count t a b x d).mem
  have h2 : ∀ (t : State) m, (t.wakeMem m).mem = t.mem := by
    intro t m; simp only [State.wakeMem]; split <;> rfl
  simp only [State.touchLine]
  split
  · dsimp only; rw [h2]
  · have h3 : ∀ (l : List (Nat × Nat × Bool)) (m : Nat) (t : State), (l.foldl (fun t e => if e.2.2 then (t.count 0x13 e.2.1 m 1).bwAdd (2 + m) 64 else t) t).mem = t.mem := by
      intro l m; induction l with
      | nil => intro t; rfl
      | cons e l ih =>
        intro t; rw [List.foldl_cons, ih]; split
        · rw [show ∀ (t : State) a b, (t.bwAdd a b).mem = t.mem from fun _ _ _ => rfl, h1]
        · rfl
    dsimp only
    rw [h3]
    split
    · rw [h1, h2]
    · rw [show ∀ (t : State) a b, (t.bwAdd a b).mem = t.mem from fun _ _ _ => rfl, h1, h1, h2]

theorem touch_dram (c a l w) : (s.touch c a l w).mem.dram = s.mem.dram := by
  simp only [State.touch]
  generalize linesOf a l = ls
  induction ls generalizing s with
  | nil => rfl
  | cons x ls ih => rw [List.foldl_cons, ih, touchLine_dram]

theorem pump_mem (p n : Nat) : (State.pump p n s).mem = s.mem := by
  induction n generalizing s with
  | zero => rfl
  | succ n ih =>
    simp only [State.pump]
    split
    · rfl
    · rw [ih]
      split
      · rfl
      · show (State.count _ _ _ _ _).mem = _; rw [(inside_count _ _ _ _ _).mem]; rfl

theorem sendFrame_mem (p f) : (s.sendFrame p f).mem = s.mem := by
  simp only [State.sendFrame]; split
  · rw [pump_mem]; rfl
  · rfl

theorem sendData_mem (p f) : (s.sendData p f).mem = s.mem := by
  simp only [State.sendData]; split
  · rw [sendFrame_mem]
  · show (s.wakePort p).mem = _; simp only [State.wakePort]; split <;> rfl

theorem sendRange_mem (p win c base size n : Nat) (lo hi : Nat) : (State.sendRange p win c base size n s lo hi).mem = s.mem := by
  induction n generalizing s lo with
  | zero => rfl
  | succ n ih =>
    simp only [State.sendRange]; split
    · rfl
    · rw [ih, sendData_mem]

theorem carry_mem (c a l) : (s.carry c a l).mem = s.mem := by
  simp only [State.carry]
  generalize s.olp.windows = ws
  induction ws generalizing s with
  | nil => rfl
  | cons x ws ih =>
    rw [List.foldl_cons, ih]; split
    · rw [sendRange_mem]
    · rfl

/-- What a DRAM write leaves in DRAM. -/
theorem dramWrite_dram (c a) (bs : List Byte) : (s.dramWrite c a bs).mem.dram = memWrite s.mem.dram a bs := by
  simp only [State.dramWrite]
  rw [carry_mem]
  show memWrite ((s.evictObjects a bs.length).touch c a bs.length true).mem.dram a bs = _
  rw [touch_dram]; rfl

/-! ## Operations answered at their admission -/

theorem SameHost.answers {s v : State} (h : SameHost s v) : v.reg HIF_STATUS = s.reg HIF_STATUS := h.reg _ (by decide)

/-- A descriptor that does its work at its admission and is answered after its effect `v`. -/
theorem done_next {s v : State} {c : Instr} {k : State → State} {r cls op : Nat} {f : Fetched} {P : State → Prop}
    (h : s.DescAt r cls op f) (status flags words : Nat) (he : exec c s = .next (s.whenCore k))
    (hk : SameUnits (v.finishNow r f status flags words) (k s)) (hu : v.hif.ueTimes = s.hif.ueTimes)
    (hr : v.ring r = s.ring r) (hs : v.reg HIF_STATUS = s.reg HIF_STATUS) (hp : ∀ t, SameUnits v t → P t) :
    ∃ t, exec c s = .next t ∧ s.answered t r f status flags words ∧ P t :=
  have i := inside_finishNow v r f status flags words
  core_next h.acts he (i.ue.trans hu) hk fun t j => ⟨recordSent_units s (h.finishNow status flags words hr hs) j, hp t (i.units.trans j)⟩

/-- A descriptor that a check refuses, after what the check leaves in `v`. -/
theorem reject_next {s v : State} {c : Instr} {k : State → State} {r cls op : Nat} {f : Fetched} {P : State → Prop}
    (h : s.DescAt r cls op f) (status : Nat) (he : exec c s = .next (s.whenCore k))
    (hk : SameUnits (v.reject r f status) (k s)) (hu : v.hif.ueTimes = s.hif.ueTimes)
    (hr : v.ring r = s.ring r) (hs : v.reg HIF_STATUS = s.reg HIF_STATUS) (hp : ∀ t, SameUnits v t → P t) :
    ∃ t, exec c s = .next t ∧ s.answered t r f status 0 (v.idleWords r f.desc) ∧ P t :=
  have i := inside_reject v r f status
  core_next h.acts he (i.ue.trans hu) hk fun t j =>
    ⟨recordSent_units s (h.reject status hr hs) j, hp t (i.units.trans j)⟩

end Sys2Proof.Machine
end

