-- ==== Sys2Proof/Laws/Admission.lean ====
section
/-! SUPPORT. A descriptor that is admitted with nothing else in flight, and what settles then. -/

namespace Sys2Proof.Machine

variable (s : State)

/-- No ring is being closed. -/
def State.openRings (s : State) : Prop := ∀ p ∈ s.hif.rings, p.2.closing = false

theorem mem_tabSet {α : Type} (t : Tab α) (k : Nat) (v : α) (p : Nat × α) (h : p ∈ tabSet t k v) : p = (k, v) ∨ p ∈ t := by
  induction t with
  | nil => simp [tabSet] at h; exact .inl h
  | cons e t ih =>
    obtain ⟨a, x⟩ := e
    simp only [tabSet] at h
    split at h
    · rcases List.mem_cons.mp h with h | h
      · exact .inl h
      · exact .inr (List.mem_cons_of_mem _ h)
    · split at h
      · rcases List.mem_cons.mp h with h | h
        · exact .inl h
        · exact .inr h
      · rcases List.mem_cons.mp h with h | h
        · exact .inr (h ▸ List.mem_cons_self ..)
        · rcases ih h with h | h
          · exact .inl h
          · exact .inr (List.mem_cons_of_mem _ h)

theorem mem_of_tabGet? {α : Type} (t : Tab α) (k : Nat) (v : α) (h : tabGet? t k = some v) : (k, v) ∈ t := by
  induction t with
  | nil => simp [tabGet?] at h
  | cons e t ih =>
    obtain ⟨a, x⟩ := e
    simp only [tabGet?] at h
    split at h
    · rename_i hk; cases h; subst hk; exact List.mem_cons_self ..
    · exact List.mem_cons_of_mem _ (ih h)

theorem closing_of_open (h : s.openRings) (r : Nat) : (s.ring r).closing = false := by
  simp only [State.ring, tabGetD]
  cases hg : tabGet? s.hif.rings r with
  | none => rfl
  | some g => exact h _ (mem_of_tabGet? _ _ _ hg)

theorem open_setRing (h : s.openRings) (r : Nat) (g : Ring) (hg : g.closing = false) : (s.setRing r g).openRings := by
  intro p hp
  rcases mem_tabSet _ _ _ _ hp with h1 | h1
  · subst h1; exact hg
  · exact h p h1

/-- Works and ring closing are what they were: what records and counts keep. -/
structure KeepsWorks (s t : State) : Prop where
  works : t.hif.works = s.hif.works
  opens : s.openRings → t.openRings

theorem KeepsWorks.refl : KeepsWorks s s := ⟨rfl, id⟩
theorem KeepsWorks.trans {s t u : State} (h : KeepsWorks s t) (k : KeepsWorks t u) : KeepsWorks s u :=
  ⟨k.works.trans h.works, fun o => k.opens (h.opens o)⟩
theorem KeepsWorks.ite {c : Prop} [Decidable c] {s t u : State} (ht : KeepsWorks s t) (hu : KeepsWorks s u) :
    KeepsWorks s (if c then t else u) := by split <;> assumption
theorem KeepsWorks.of_hif {s t : State} (h : t.hif = s.hif) : KeepsWorks s t :=
  ⟨by rw [h], by simp only [State.openRings, h]; exact id⟩

/-- An update of a ring that keeps its closing. -/
theorem works_setRing (r : Nat) (g : Ring) (hg : g.closing = (s.ring r).closing) : KeepsWorks s (s.setRing r g) :=
  ⟨rfl, fun h => open_setRing s h r g (hg.trans (closing_of_open s h r))⟩

theorem works_count (code ctx unit n : Nat) : KeepsWorks s (s.count code ctx unit n) := .of_hif (count_hif ..)
theorem works_hostWrite (fn addr : Nat) (bytes : List Byte) : KeepsWorks s (s.hostWrite fn addr bytes) := .of_hif (hostWrite_hif ..)

theorem works_msixSend (fn vector : Nat) : KeepsWorks s (s.msixSend fn vector) := by
  simp only [State.msixSend]
  split
  · split
    · exact .of_hif (tlpOut_hif ..)
    · exact .refl s
  · split
    · exact .refl s
    · exact ⟨rfl, id⟩

theorem msixSend_ring (fn vector r : Nat) : (s.msixSend fn vector).ring r = s.ring r := by
  simp only [State.msixSend]
  split
  · split
    · simp only [State.ring, tlpOut_hif]; rfl
    · rfl
  · split <;> rfl

theorem works_ringInterrupt (r : Nat) : KeepsWorks s (s.ringInterrupt r) := by
  simp only [State.ringInterrupt]
  split
  · exact .refl s
  · split
    · exact works_setRing s r _ rfl
    · exact (works_msixSend s _ _).trans (works_setRing _ r _ (by rw [msixSend_ring]))

theorem works_putRecord (r : Nat) (tag : W32) (seq words status cls flags : Nat) (want : Bool) :
    KeepsWorks s (s.putRecord r tag seq words status cls flags want) := by
  have hr : ∀ (t : State) fn a b k, (t.hostWrite fn a b).ring k = t.ring k := fun t fn a b k => by simp [State.ring]
  have h2 : ∀ (a b : Nat) (x y : List Byte) (fn : Nat) (n : W32),
      KeepsWorks s (((s.hostWrite fn a x).hostWrite fn b y).setRing r { s.ring r with records := n }) := fun a b x y fn n =>
    ((works_hostWrite s _ _ _).trans (works_hostWrite _ _ _ _)).trans (works_setRing _ r _ (by rw [hr, hr]))
  simp only [State.putRecord]
  split
  · exact .refl s
  · refine .ite (.trans ?_ (works_ringInterrupt _ _)) ?_ <;>
      exact .trans (.ite (h2 _ _ _ _ _ _) ((h2 _ _ _ _ _ _).trans (works_count _ _ _ _ _))) (.of_hif (trace_hif _ _))

theorem works_noteDone (r seq : Nat) (tag : W32) (cls status : Nat) : KeepsWorks s (s.noteDone r seq tag cls status) :=
  works_setRing s r _ rfl

theorem works_popSeq (r seq : Nat) : KeepsWorks s (s.popSeq r seq) := works_setRing s r _ rfl

theorem works_finishHead (r : Nat) (f : Fetched) (status flags words : Nat) (hf : ∀ w ∈ s.hif.works, w.cls ≠ clFence) :
    KeepsWorks s (s.finishHead r f status flags words) := by
  simp only [State.finishHead, State.recordOf]
  have h2 := ((works_popSeq s r f.seq).trans (works_putRecord _ r (BitVec.ofNat 32 (dF f.desc 4 4)) f.seq words status
    (dF f.desc 0 1) flags (decide (dF f.desc 1 1 % 2 = 1)))).trans
    (works_noteDone _ r f.seq (BitVec.ofNat 32 (dF f.desc 4 4)) (dF f.desc 0 1) status)
  refine ⟨?_, h2.opens⟩
  show List.map _ (State.hif _).works = _
  rw [h2.works]
  refine (List.map_congr_left fun w hw => ?_).trans (List.map_id _)
  simp [noteFence, hf w hw]

/-- With one descriptor in flight that is no FENCE, and no ring closing, settling starts a DMA that waits for nothing and
leaves other work alone. -/
theorem settleN_single (n : Nat) (w : Work) (hw : s.hif.works = [w]) (hf : w.cls ≠ clFence) (hc : s.openRings)
    (hd : s.dmaReady w = false) : (s.settleN n).hif.works = [w] ∧ (s.settleN n).openRings := by
  induction n generalizing s with
  | zero => exact ⟨hw, hc⟩
  | succ n ih =>
    simp only [State.settleN]
    split
    · rename_i t ht
      have hfr : s.fenceReady w = false := by simp [State.fenceReady, hf]
      simp only [State.settleOne, hw] at ht
      rw [show List.find? s.fenceReady [w] = none by simp [hfr], show List.find? s.dmaReady [w] = none by simp [hd]] at ht
      dsimp only at ht
      split at ht
      · rename_i r f st _
        have k := works_finishHead s r f st 0 (s.idleWords r f.desc) (by rw [hw]; simpa using hf)
        have i := inside_finishHead s r f st 0 (s.idleWords r f.desc)
        cases ht
        refine ih _ (k.works.trans hw) (k.opens hc) ?_
        unfold State.dmaReady State.gateClosed State.claimedBanks State.bit State.fld
        rw [i.reg _ (by decide), k.works]
        exact hd
      · split at ht
        · rename_i p hp
          have h1 := List.mem_of_find?_eq_some hp
          have h2 := List.find?_some hp
          rw [hc p h1] at h2; simp at h2
        · cases ht
    · exact ⟨hw, hc⟩

theorem settle_single (w : Work) (hw : s.hif.works = [w]) (hf : w.cls ≠ clFence) (hc : s.openRings) :
    s.settle.hif.works = [if s.dmaReady w then { w with phase := .running, startAt := s.now } else w] ∧ s.settle.openRings := by
  cases hd : s.dmaReady w with
  | false => rw [if_neg (by decide)]; exact settleN_single s _ w hw hf hc hd
  | true =>
    have hfr : s.fenceReady w = false := by simp [State.fenceReady, hf]
    have h1 : s.settleOne = some (s.setWork { w with phase := .running, startAt := s.now }) := by
      simp only [State.settleOne, hw]
      rw [show List.find? s.fenceReady [w] = none by simp [hfr], show List.find? s.dmaReady [w] = some w by simp [hd]]
    have hn : ∃ m, 2 * s.hif.works.length + s.hif.rings.length + (s.hif.rings.map fun p => p.2.queue.length).sum = m + 1 :=
      ⟨2 * s.hif.works.length + s.hif.rings.length + (s.hif.rings.map fun p => p.2.queue.length).sum - 1, by rw [hw]; simp; omega⟩
    obtain ⟨m, hm⟩ := hn
    simp only [State.settle, hm, State.settleN, h1, if_true]
    have hs : (s.setWork { w with phase := .running, startAt := s.now }).hif.works =
        [{ w with phase := .running, startAt := s.now }] := by
      simp [State.setWork, hw, Work.is]
    refine settleN_single _ m _ hs hf hc ?_
    simp [State.dmaReady]

theorem addWork_hif (w : Work) : (s.addWork w).hif = { s.hif with
    works := s.hif.works ++ [{ w with age := s.hif.nextAge, at_ := (s.addWork w).now, gate0 := s.pwr.gateUs }], nextAge := s.hif.nextAge + 1 } := by
  have i := inside_noteAdmit s w.ring w.seq w.tag
  have h : (s.addWork w).now = (s.noteAdmit w.ring w.seq w.tag).now := rfl
  rw [h]
  simp [State.addWork, i.pwr]

theorem popHead_works (r : Nat) : KeepsWorks s (s.popHead r) := works_setRing s r _ rfl

/-- A descriptor admitted with nothing else in flight is the one in flight. -/
theorem admit_next {s : State} {c : Instr} {k : State → State} {r cls op : Nat} {f : Fetched} (w : Work) {P : State → Prop}
    (h : s.DescAt r cls op f) (hi : s.idle) (he : exec c s = .next (s.whenCore k))
    (hk : k s = ((s.popHead r).addWork w).settle) (hf : w.cls ≠ clFence)
    (hp : ∀ (u t : State) (a b g : Nat), SameInside s u → SameUnits u t →
      u.hif.works = [{ w with age := a, at_ := b, gate0 := g }] →
      t.hif.works = [if u.dmaReady { w with age := a, at_ := b, gate0 := g } then
        { w with age := a, at_ := b, gate0 := g, phase := .running, startAt := u.now } else { w with age := a, at_ := b, gate0 := g }] →
      P t) : ∃ t, exec c s = .next t ∧ P t := by
  have h0 := addWork_hif (s.popHead r) w
  have hp0 : (s.popHead r).hif.works = [] := (popHead_works s r).works.trans hi.1
  have h1 := congrArg HostIf.works h0
  rw [hp0] at h1
  have ho : ((s.popHead r).addWork w).openRings := by
    have := (popHead_works s r).opens hi.2
    intro p hp; rw [h0] at hp; exact this p hp
  have i1 : SameInside s ((s.popHead r).addWork w) := (inside_popHead s r).trans (inside_addWork _ _)
  have i2 := inside_settle ((s.popHead r).addWork w)
  have hs := (settle_single _ _ h1 hf ho).1
  refine ⟨_, he, ?_⟩
  rw [whenCore_acts s h.acts (by rw [hk, i2.ue, i1.ue]), hk]
  exact hp _ _ _ _ _ i1 (i2.units.trans (units_updateLines _)) h1 (by rw [updateLines_hif]; exact hs)

/-! ## What records and settling keep of a ring -/

/-- Every ring that is not closing keeps its set-up, its HEAD and its TAIL. -/
def KeepsRings (s t : State) : Prop := ∀ r, (s.ring r).closing = false → (t.ring r).still = (s.ring r).still

theorem KeepsRings.refl : KeepsRings s s := fun _ _ => rfl
theorem still_closing {g h : Ring} (e : g.still = h.still) : g.closing = h.closing := by
  show g.still.closing = h.still.closing; rw [e]
theorem KeepsRings.trans {s t u : State} (h : KeepsRings s t) (k : KeepsRings t u) : KeepsRings s u :=
  fun r hr => (k r ((still_closing (h r hr)).trans hr)).trans (h r hr)
theorem KeepsRings.ite {c : Prop} [Decidable c] {s t u : State} (ht : KeepsRings s t) (hu : KeepsRings s u) :
    KeepsRings s (if c then t else u) := by split <;> assumption
theorem KeepsRings.of_rings {s t : State} (h : t.hif.rings = s.hif.rings) : KeepsRings s t := fun r _ => by simp only [State.ring, h]
theorem KeepsRings.foldl {α : Type} (l : List α) (f : State → α → State) (h : ∀ a ∈ l, ∀ t, KeepsRings t (f t a)) (s : State) :
    KeepsRings s (l.foldl f s) := by
  induction l generalizing s with
  | nil => exact .refl s
  | cons a l ih => exact (h a (List.mem_cons_self ..) s).trans (ih (fun b hb => h b (List.mem_cons_of_mem _ hb)) _)

theorem still_setRing (k : Nat) (g : Ring) (h : g.still = (s.ring k).still) : KeepsRings s (s.setRing k g) := by
  intro r _
  by_cases hr : r = k
  · subst hr; rw [State.ring_setRing_same, h]
  · rw [State.ring_setRing_ne _ _ hr]

theorem still_dropWork (r seq : Nat) : KeepsRings s (s.dropWork r seq) := .of_rings rfl
theorem still_works (ws : List Work) : KeepsRings s { s with hif := { s.hif with works := ws } } := .of_rings rfl

theorem still_count (code ctx unit n : Nat) : KeepsRings s (s.count code ctx unit n) := .of_rings (by rw [count_hif])
theorem still_hostWrite (fn addr : Nat) (bytes : List Byte) : KeepsRings s (s.hostWrite fn addr bytes) := .of_rings (by rw [hostWrite_hif])

theorem still_msixSend (fn vector : Nat) : KeepsRings s (s.msixSend fn vector) := fun r _ => by rw [msixSend_ring]

theorem still_ringInterrupt (r : Nat) : KeepsRings s (s.ringInterrupt r) := by
  simp only [State.ringInterrupt]
  split
  · exact .refl s
  · split
    · exact still_setRing s r _ rfl
    · exact (still_msixSend s _ _).trans (still_setRing _ r _ (by rw [msixSend_ring]; rfl))

theorem still_putRecord (r : Nat) (tag : W32) (seq words status cls flags : Nat) (want : Bool) :
    KeepsRings s (s.putRecord r tag seq words status cls flags want) := by
  have hr : ∀ (t : State) fn a b k, (t.hostWrite fn a b).ring k = t.ring k := fun t fn a b k => by simp [State.ring]
  have h2 : ∀ (a b : Nat) (x y : List Byte) (fn : Nat) (n : W32),
      KeepsRings s (((s.hostWrite fn a x).hostWrite fn b y).setRing r { s.ring r with records := n }) := fun a b x y fn n =>
    ((still_hostWrite s _ _ _).trans (still_hostWrite _ _ _ _)).trans (still_setRing _ r _ (by rw [hr, hr]; rfl))
  simp only [State.putRecord]
  split
  · exact .refl s
  · refine .ite (.trans ?_ (still_ringInterrupt _ _)) ?_ <;>
      exact .trans (.ite (h2 _ _ _ _ _ _) ((h2 _ _ _ _ _ _).trans (still_count _ _ _ _ _)))
        (.of_rings (congrArg HostIf.rings (trace_hif _ _)))

theorem still_noteDone (r seq : Nat) (tag : W32) (cls status : Nat) : KeepsRings s (s.noteDone r seq tag cls status) :=
  still_setRing s r _ rfl

theorem still_recordOf (r seq : Nat) (tag : W32) (cls status flags words : Nat) (intr : Bool) :
    KeepsRings s (s.recordOf r seq tag cls status flags words intr) :=
  ((still_putRecord s r tag seq words status cls flags intr).trans (still_noteDone _ r seq tag cls status)).trans (still_works _ _)

theorem still_popSeq (r seq : Nat) : KeepsRings s (s.popSeq r seq) := still_setRing s r _ rfl
theorem still_popHead (r : Nat) : KeepsRings s (s.popHead r) := still_setRing s r _ rfl
theorem still_addWork (w : Work) : KeepsRings s (s.addWork w) := .of_rings (by rw [addWork_hif])

theorem still_finishHead (r : Nat) (f : Fetched) (status flags words : Nat) : KeepsRings s (s.finishHead r f status flags words) :=
  (still_popSeq s _ _).trans (still_recordOf _ _ _ _ _ _ _ _ _)

theorem still_noteCtxFail (r seq status : Nat) : KeepsRings s (s.noteCtxFail r seq status) := by
  simp only [State.noteCtxFail]
  split
  · split
    · exact .of_rings rfl
    · exact .refl s
  · exact .refl s

theorem still_abortRecords (w : Work) : KeepsRings s (s.abortRecords w) := by
  refine .foldl _ _ (fun a _ t => ?_) s
  split
  · exact (still_dropWork t _ _).trans (still_recordOf _ _ _ _ _ _ _ _ _)
  · exact .refl t

theorem still_finishFence (w : Work) : KeepsRings s (s.finishFence w) := by
  have hd := still_dropWork s w.ring w.seq
  simp only [State.finishFence]
  split
  · exact ((hd.trans (still_recordOf _ _ _ _ _ _ _ _ _)).trans (still_noteCtxFail _ _ _ _)).trans (still_abortRecords _ _)
  · refine (KeepsRings.trans ?_ (still_recordOf _ _ _ _ _ _ _ _ _)).trans (still_abortRecords _ _)
    exact .ite (hd.trans (still_hostWrite _ _ _ _)) hd

/-- A ring that closes is the only one that settling resets. -/
theorem still_settleRing (r : Nat) : KeepsRings s (s.settleRing r) := by
  have hs : ∀ g, (s.ring r).closing = true → KeepsRings s (s.setRing r g) := fun g hc k hk => by
    rw [State.ring_setRing_ne _ _ (by rintro rfl; rw [hc] at hk; cases hk)]
  simp only [State.settleRing]
  split
  · rename_i h
    have hc : (s.ring r).closing = true := by simp at h; exact h.1
    split
    · split
      · exact ((hs _ hc).trans (still_dropWork _ _ _)).trans (still_recordOf _ _ _ _ _ _ _ _ _)
      · exact hs _ hc
    · exact hs _ hc
  · exact .refl s

theorem still_settleN (n : Nat) : KeepsRings s (s.settleN n) := by
  induction n generalizing s with
  | zero => exact .refl s
  | succ n ih =>
    simp only [State.settleN]
    split
    · rename_i t ht
      refine .trans ?_ (ih t)
      simp only [State.settleOne] at ht
      split at ht
      · cases ht; exact still_finishFence _ _
      · split at ht
        · cases ht; exact still_works _ _
        · split at ht
          · cases ht; exact still_finishHead _ _ _ _ _ _
          · split at ht
            · cases ht; exact still_settleRing _ _
            · cases ht
    · exact .refl s

theorem still_settle : KeepsRings s s.settle := still_settleN s _

theorem still_finishNow (r : Nat) (f : Fetched) (status flags words : Nat) : KeepsRings s (s.finishNow r f status flags words) := by
  simp only [State.finishNow]
  refine KeepsRings.trans (.trans (.trans ?_ (still_finishHead _ _ _ _ _ _)) (still_noteCtxFail _ _ _ _)) (still_settle _)
  exact .ite (.of_rings (congrArg HostIf.rings (noteAdmit_hif _ _ _ _))) (.refl s)

theorem still_complete (w : Work) (status flags words : Nat) : KeepsRings s (s.complete w status flags words) :=
  (((still_dropWork s _ _).trans (still_recordOf _ _ _ _ _ _ _ _ _)).trans (still_noteCtxFail _ _ _ _)).trans
    ((still_abortRecords _ _).trans (still_settle _))

end Sys2Proof.Machine
end

