-- ==== Sys2Proof/Laws/Bus.lean ====
section
/-! SUPPORT. A write that a command names reaches its register (R28, R29). -/

namespace Sys2Proof.Machine

variable (s : State)

/-- The offset is that of a register of a block that PD_HCX serves, with an access of its own width. -/
def hcxReg (off : Nat) (b : Block) (r : RegRow) : Bool :=
  decide (off < 0x4000000) && decide (regFind off = some r) && decide (regCover off = some (off, r)) &&
    decide ((blockAt off).map (·.1) = some b) && accessFits off r.width && decide (blockDomain b = some .hcx)

/-- A physical-function write of such a register, its payload counted first. -/
theorem writeBy_hcx (off : Nat) (v : W64) (r : RegRow) (b : Block) (h1 : s.isOn .hcx = true) (h2 : s.linkUp = true)
    (h : hcxReg off b r = true) : s.writeBy 0 off v = (s.tlpIn 0 (r.width / 8)).regWrite 0 off b r (narrowTo r v) := by
  simp only [hcxReg, Bool.and_eq_true, decide_eq_true_eq] at h
  obtain ⟨⟨⟨⟨⟨ho, hr⟩, hc⟩, hb⟩, hf⟩, hd⟩ := h
  cases hb' : blockAt off with
  | none => rw [hb'] at hb; cases hb
  | some p =>
    obtain ⟨b', x⟩ := p
    rw [hb'] at hb; cases hb
    have h3 : (s.tlpIn 0 (r.width / 8)).isOn .hcx = true :=
      ((inside_tlpIn s 0 (r.width / 8)).bit _ _ (by simp [domPlace, GLB_PWR_DOMAIN_STATUS2])).trans h1
    simp only [State.writeBy, hr, registerWrite, h1, h2, State.fnAccess, ho, State.pfAccess, hc, hb', hf, State.blockOn, hd, h3]
    simp [fnPedestal, State.regAccess]

end Sys2Proof.Machine
end

