-- ==== Sys2Proof/Laws/Bytes.lean ====
section
/-! SUPPORT. Every operation on a byte memory keeps its canonical form, and a byte reads as it was last written (R16, R17). -/

namespace Sys2Proof.Machine

/-- Cells in canonical form, all within a range: strictly rising addresses and no zero byte. -/
def cellsIn (lo hi : Nat) (m : List Host.Cell) : Prop :=
  m.Pairwise (fun p q => p.1 < q.1) ∧ ∀ p ∈ m, lo ≤ p.1 ∧ p.1 < hi ∧ p.2 ≠ 0

theorem memWfFrom_some (lo : Nat) (m : List Host.Cell) :
    memWfFrom (some lo) m = true ↔ m.Pairwise (fun p q => p.1 < q.1) ∧ ∀ p ∈ m, lo < p.1 ∧ p.2 ≠ 0 := by
  induction m generalizing lo with
  | nil => simp [memWfFrom]
  | cons e t ih =>
    obtain ⟨i, v⟩ := e
    simp only [memWfFrom, Bool.and_eq_true, decide_eq_true_eq, ih, List.pairwise_cons, List.forall_mem_cons]
    constructor
    · rintro ⟨⟨h1, h2⟩, h3, h4⟩
      exact ⟨⟨fun q hq => (h4 q hq).1, h3⟩, ⟨h1, h2⟩, fun q hq => ⟨Nat.lt_trans h1 (h4 q hq).1, (h4 q hq).2⟩⟩
    · rintro ⟨⟨h1, h2⟩, ⟨h3, h4⟩, h5⟩
      exact ⟨⟨h3, h4⟩, h2, fun q hq => ⟨h1 q hq, (h5 q hq).2⟩⟩

/-- The canonical form, as a relation between the cells. -/
theorem wf_iff (m : List Host.Cell) :
    Memory.wf m = true ↔ m.Pairwise (fun p q => p.1 < q.1) ∧ ∀ p ∈ m, p.2 ≠ 0 := by
  cases m with
  | nil => simp [Memory.wf, memWfFrom]
  | cons e t =>
    obtain ⟨i, v⟩ := e
    simp only [Memory.wf, memWfFrom, Bool.and_eq_true, decide_eq_true_eq, memWfFrom_some, List.pairwise_cons,
      List.forall_mem_cons]
    constructor
    · rintro ⟨h1, h2, h3⟩
      exact ⟨⟨fun q hq => (h3 q hq).1, h2⟩, h1, fun q hq => (h3 q hq).2⟩
    · rintro ⟨⟨h1, h2⟩, h3, h4⟩
      exact ⟨h3, h2, fun q hq => ⟨h1 q hq, h4 q hq⟩⟩

/-- The cells of written bytes are canonical and stand where the bytes go. -/
theorem cellsIn_memCells (a : Nat) (bs : List Byte) : cellsIn a (a + bs.length) (memCells a bs) := by
  induction bs generalizing a with
  | nil => simp [cellsIn, memCells]
  | cons b bs ih =>
    have h := ih (a + 1)
    unfold memCells
    split
    · refine ⟨h.1, fun p hp => ?_⟩
      have := h.2 p hp
      simp only [List.length_cons]; exact ⟨by omega, by omega, this.2.2⟩
    · rename_i hb
      refine ⟨List.pairwise_cons.2 ⟨fun q hq => ?_, h.1⟩, ?_⟩
      · have := (h.2 q hq).1; show a < q.1; omega
      · intro p hp
        rcases List.mem_cons.1 hp with rfl | hp
        · refine ⟨Nat.le_refl a, ?_, hb⟩
          simp only [List.length_cons]; omega
        · have := h.2 p hp
          simp only [List.length_cons]; exact ⟨by omega, by omega, this.2.2⟩

/-- A write keeps the canonical form. -/
theorem wf_memWrite (m : List Host.Cell) (a : Nat) (bs : List Byte) (h : Memory.wf m = true) :
    Memory.wf (memWrite m a bs) = true := by
  rw [wf_iff] at h ⊢
  have c := cellsIn_memCells a bs
  unfold memWrite splice
  refine ⟨?_, ?_⟩
  · rw [List.pairwise_append]
    refine ⟨List.pairwise_append.2 ⟨h.1.filter _, c.1, ?_⟩, h.1.filter _, ?_⟩
    · intro p hp q hq
      have := (c.2 q hq).1
      simp only [List.mem_filter, decide_eq_true_eq] at hp; omega
    · intro p hp q hq
      simp only [List.mem_filter, decide_eq_true_eq, List.mem_append] at hp hq
      rcases hp with hp | hp
      · omega
      · have := (c.2 p hp).2.1; omega
  · intro p hp
    simp only [List.mem_append, List.mem_filter] at hp
    rcases hp with (hp | hp) | hp
    · exact h.2 p hp.1
    · exact (c.2 p hp).2.2
    · exact h.2 p hp.1

/-- Dropping a range keeps the canonical form. -/
theorem wf_memZero (m : List Host.Cell) (lo hi : Nat) (h : Memory.wf m = true) : Memory.wf (memZero m lo hi) = true := by
  rw [wf_iff] at h ⊢
  exact ⟨h.1.filter _, fun p hp => h.2 p (List.mem_filter.1 hp).1⟩

/-- A byte of a range that was dropped reads zero, and any other as before. -/
theorem memGet_memZero (m : List Host.Cell) (lo hi a : Nat) :
    memGet (memZero m lo hi) a = if lo ≤ a ∧ a < hi then 0 else memGet m a := by
  induction m with
  | nil => simp [memZero, memGet]
  | cons e m ih =>
    simp only [memGet, memZero] at ih ⊢
    rw [List.filter_cons, List.find?_cons]
    by_cases hk : (decide (e.1 < lo) || decide (hi ≤ e.1)) = true
    · rw [if_pos hk, List.find?_cons]
      cases he : (e.1 == a)
      · simp only [ih]
      · have : e.1 = a := by simpa using he
        simp only [Bool.or_eq_true, decide_eq_true_eq] at hk
        exact (if_neg (by omega)).symm
    · rw [if_neg hk, ih]
      cases he : (e.1 == a)
      · rfl
      · have : e.1 = a := by simpa using he
        simp only [Bool.or_eq_true, decide_eq_true_eq] at hk
        rw [if_pos (by omega), if_pos (by omega)]

end Sys2Proof.Machine
end

