-- ==== Sys2Proof/Laws/Units.lean ====
section
/-! SUPPORT. What operations of tiles, banks, hubs, sequences and module DRAM leave alone (SameRings): rings and records, the
host interface, the units that take no part in a claim, and their registers; and that a stop or a finish of claimed work
answers its descriptor. -/

namespace Sys2Proof.Machine

variable (s : State)

/-- What rings and the units outside the array hold is the same, and what has left the module has left it. -/
structure SameRings (s t : State) : Prop where
  pending : t.pending = s.pending
  nv : t.nv = s.nv
  aon : t.aon = s.aon
  hif : t.hif = s.hif
  vcd : t.vcd = s.vcd
  stn : t.stn = s.stn
  vrd : t.vrd = s.vrd
  merge : t.merge = s.merge
  pair : t.pair = s.pair
  pwr : t.pwr = s.pwr
  reg : ∀ o, 0x10000 ≤ o ∧ o < 0x20000 → t.reg o = s.reg o
  out : s.out <:+ t.out

theorem SameRings.refl : SameRings s s :=
  ⟨rfl, rfl, rfl, rfl, rfl, rfl, rfl, rfl, rfl, rfl, fun _ _ => rfl, List.suffix_refl _⟩

theorem SameRings.trans {s t u : State} (h : SameRings s t) (k : SameRings t u) : SameRings s u :=
  ⟨k.pending.trans h.pending, k.nv.trans h.nv, k.aon.trans h.aon, k.hif.trans h.hif, k.vcd.trans h.vcd, k.stn.trans h.stn,
    k.vrd.trans h.vrd, k.merge.trans h.merge, k.pair.trans h.pair, k.pwr.trans h.pwr,
    fun o ho => (k.reg o ho).trans (h.reg o ho), h.out.trans k.out⟩

theorem SameRings.ite {c : Prop} [Decidable c] {s t u : State} (ht : SameRings s t) (hu : SameRings s u) :
    SameRings s (if c then t else u) := by split <;> assumption

theorem SameRings.foldl {α : Type} (l : List α) (f : State → α → State) (h : ∀ a ∈ l, ∀ t, SameRings t (f t a)) (s : State) :
    SameRings s (l.foldl f s) := by
  induction l generalizing s with
  | nil => exact .refl s
  | cons a l ih =>
    exact (h a (List.mem_cons_self ..) s).trans (ih (fun b hb => h b (List.mem_cons_of_mem _ hb)) _)

theorem SameRings.each (ns : List Nat) (f : State → Nat → State) (h : ∀ n ∈ ns, ∀ t, SameRings t (f t n)) (s : State) :
    SameRings s (s.each ns f) := .foldl ns f h s

theorem SameHost.rings {s t : State} (h : SameHost s t) : SameRings s t :=
  ⟨h.pending, h.nv, h.aon, h.hif, h.vcd, h.stn, h.vrd, h.merge, h.pair, h.pwr, fun o ho => h.reg o (by omega), h.out⟩

theorem SameRings.ring {s t : State} (h : SameRings s t) (r : Nat) : t.ring r = s.ring r := by simp [State.ring, h.hif]

theorem SameRings.fld {s t : State} (h : SameRings s t) (o : Nat) (b : Bits) (ho : 0x10000 ≤ o ∧ o < 0x20000) :
    t.fld o b = s.fld o b := s.fld_congr b (h.reg o ho)

theorem SameRings.bit {s t : State} (h : SameRings s t) (o : Nat) (b : Bits) (ho : 0x10000 ≤ o ∧ o < 0x20000) :
    t.bit o b = s.bit o b := s.bit_congr b (h.reg o ho)

/-! ## Primitive updates -/

theorem rings_setReg (o : Nat) (w : W64) (ho : o < 0x10000 ∨ 0x20000 ≤ o) : SameRings s (s.setReg o w) :=
  ⟨rfl, rfl, rfl, rfl, rfl, rfl, rfl, rfl, rfl, rfl, fun k hk => s.reg_setReg_ne w (by omega), List.suffix_refl _⟩

theorem rings_setFld (o : Nat) (b : Bits) (v : Nat) (ho : o < 0x10000 ∨ 0x20000 ≤ o) : SameRings s (s.setFld o b v) :=
  rings_setReg s o _ ho
theorem rings_setBit (o : Nat) (b : Bits) (v : Bool) (ho : o < 0x10000 ∨ 0x20000 ≤ o) : SameRings s (s.setBit o b v) :=
  rings_setReg s o _ ho
theorem rings_addSat (o : Nat) (b : Bits) (n : Nat) (ho : o < 0x10000 ∨ 0x20000 ≤ o) : SameRings s (s.addSat o b n) :=
  rings_setReg s o _ ho
theorem rings_addWrap (o : Nat) (b : Bits) (n : Nat) (ho : o < 0x10000 ∨ 0x20000 ≤ o) : SameRings s (s.addWrap o b n) :=
  rings_setReg s o _ ho

theorem rings_mem (m : Mem) : SameRings s { s with mem := m } :=
  ⟨rfl, rfl, rfl, rfl, rfl, rfl, rfl, rfl, rfl, rfl, fun _ _ => rfl, List.suffix_refl _⟩
theorem rings_arr (a : Arr) : SameRings s { s with arr := a } :=
  ⟨rfl, rfl, rfl, rfl, rfl, rfl, rfl, rfl, rfl, rfl, fun _ _ => rfl, List.suffix_refl _⟩
theorem rings_sec (a : Sec) : SameRings s { s with sec := a } :=
  ⟨rfl, rfl, rfl, rfl, rfl, rfl, rfl, rfl, rfl, rfl, fun _ _ => rfl, List.suffix_refl _⟩
theorem rings_kv (a : Kv) : SameRings s { s with kv := a } :=
  ⟨rfl, rfl, rfl, rfl, rfl, rfl, rfl, rfl, rfl, rfl, fun _ _ => rfl, List.suffix_refl _⟩
theorem rings_olp (a : Olp) : SameRings s { s with olp := a } :=
  ⟨rfl, rfl, rfl, rfl, rfl, rfl, rfl, rfl, rfl, rfl, fun _ _ => rfl, List.suffix_refl _⟩
theorem rings_mon (a : Mon) : SameRings s { s with mon := a } :=
  ⟨rfl, rfl, rfl, rfl, rfl, rfl, rfl, rfl, rfl, rfl, fun _ _ => rfl, List.suffix_refl _⟩
theorem rings_free (n : Nat) : SameRings s { s with free := n } :=
  ⟨rfl, rfl, rfl, rfl, rfl, rfl, rfl, rfl, rfl, rfl, fun _ _ => rfl, List.suffix_refl _⟩
theorem rings_setTile (t : Nat) (x : Tile) : SameRings s (s.setTile t x) := rings_arr s _
theorem rings_setHub (t : Nat) (x : Hub) : SameRings s (s.setHub t x) := rings_arr s _
theorem rings_setBank (t : Nat) (x : BankSt) : SameRings s (s.setBank t x) := rings_arr s _
theorem rings_setSeq (t : Nat) (x : Seq) : SameRings s (s.setSeq t x) := rings_kv s _
theorem rings_setFrame (t : Nat) (x : Frame) : SameRings s (s.setFrame t x) := rings_kv s _
theorem rings_setCtx (t : Nat) (x : Ctx) : SameRings s (s.setCtx t x) := rings_sec s _
theorem rings_emit (x : Out) : SameRings s (s.emit x) := (host_emit s x).rings
theorem rings_count (code ctx unit n : Nat) : SameRings s (s.count code ctx unit n) := (host_count s code ctx unit n).rings
theorem rings_bwAdd (p n : Nat) : SameRings s (s.bwAdd p n) := rings_mon s _
theorem rings_touch (c addr len : Nat) (write : Bool) : SameRings s (s.touch c addr len write) := (host_touch s c addr len write).rings
theorem rings_sendFrame (p : Nat) (f : LinkFrame) : SameRings s (s.sendFrame p f) := (host_sendFrame s p f).rings

theorem hif_cntAdd (i n : Nat) : (s.cntAdd i n).hif = s.hif := by simp only [State.cntAdd]; split <;> rfl

theorem hif_histUnit (h x : Nat) : (s.histUnit h x).hif = s.hif := by
  simp only [State.histUnit]
  split
  · rfl
  · split <;> (split <;> rfl)

theorem rings_sample (src ctx unit x : Nat) : SameRings s (s.sample src ctx unit x) := by
  have i := inside_sample s src ctx unit x
  refine ⟨i.pending, i.nv, i.aon, ?_, i.vcd, i.stn, i.vrd, i.merge, i.pair, i.pwr, fun o ho => i.reg o (by omega), i.out⟩
  simp only [State.sample]
  refine foldl_hif _ _ (fun h _ t => ?_) s
  split
  · exact hif_histUnit t h _
  · rfl

/-! ## Domains and banks -/

theorem rings_setOn (d : Domain) (v : Bool) : SameRings s (s.setOn d v) := by
  refine rings_setBit s _ _ _ (.inl ?_)
  cases d <;> simp only [domPlace] <;> (try split) <;> simp only [GLB_PWR_DOMAIN_STATUS0, GLB_PWR_DOMAIN_STATUS1, GLB_PWR_DOMAIN_STATUS2] <;> omega

theorem rings_memOn (m : Nat) : SameRings s (s.memOn m) :=
  (rings_setOn s _ _).trans (rings_setBit _ _ _ _ (by simp only [MEM_STATUS]; omega))

/-- A domain that switches ON; a hub is one of the eight. -/
theorem rings_powerOn (d : Domain) (h : ∀ c, d = .hub c → c < 8) : SameRings s (s.powerOn d) := by
  cases d with
  | hub c =>
    have := h c rfl
    exact (rings_setOn s _ _).trans (rings_setFld _ _ _ _ (by simp only [GLB_CLU_FREQ]; omega))
  | mem m => exact rings_memOn s m
  | tile t => exact rings_setOn s _ _
  | codec t => exact rings_setOn s _ _
  | port t => exact rings_setOn s _ _
  | hcx => exact rings_setOn s _ _

theorem rings_wakeTile (t : Nat) (h : t < 64) : SameRings s (s.wakeTile t) := by
  have hc : ∀ c, Domain.hub (tileCluster t) = .hub c → c < 8 := by
    intro c hc; cases hc; simp only [tileCluster]; omega
  have ht : ∀ c, Domain.tile t = .hub c → c < 8 := by intro c hc; cases hc
  have h1 : ∀ u : State, SameRings u (if u.isOn (.tile t) then u else u.powerOn (.tile t)) := fun u =>
    .ite (.refl u) (rings_powerOn u _ ht)
  exact (SameRings.ite (c := s.isOn (.hub (tileCluster t)) = true) (.refl s) (rings_powerOn s _ hc)).trans (h1 _)

theorem bankOwner_high (g : Nat) : bankOwner g < 0x10000 ∨ 0x20000 ≤ bankOwner g := by simp only [bankOwner, BANK_OWNER]; omega
theorem bankState_high (g : Nat) : bankState g < 0x10000 ∨ 0x20000 ≤ bankState g := by simp only [bankState, BANK_STATE]; omega

theorem rings_freeBank (g : Nat) : SameRings s (s.freeBank g) := by
  refine .ite (.refl s) (.ite ?_ (rings_setFld s _ _ _ (bankState_high g)))
  exact ((rings_mem s _).trans (rings_setFld _ _ _ _ (bankState_high g))).trans (rings_setBit _ _ _ _ (bankState_high g))

theorem rings_handoverDone (g : Nat) : SameRings s (s.handoverDone g) := by
  have h := bankOwner_high g
  simp only [State.handoverDone]
  have k := (((rings_setFld s (bankOwner g) BANK_OWNER_CTX (if s.bit (bankOwner g) BANK_OWNER_PEND_VALID = true then
      s.fld (bankOwner g) BANK_OWNER_PEND_CTX else s.fld (bankOwner g) BANK_OWNER_CTX) h).trans (rings_setBit _ (bankOwner g)
      BANK_OWNER_VALID (s.bit (bankOwner g) BANK_OWNER_PEND_VALID) h)).trans (rings_setBit _ (bankOwner g) BANK_OWNER_HANDOVER
      false h)).trans (rings_setBit _ (bankOwner g) BANK_OWNER_PEND_VALID false h)
  exact .ite (k.trans (rings_setBank _ _ _)) (k.trans (rings_freeBank _ _))

theorem rings_startClear (g : Nat) : SameRings s (s.startClear g) :=
  ((rings_setBit s _ _ _ (bankState_high g)).trans (rings_setFld _ _ _ _ (bankState_high g))).trans (rings_setBank _ _ _)

theorem rings_advanceHandover (g : Nat) (h : g < 512) : SameRings s (s.advanceHandover g) := by
  simp only [State.advanceHandover]
  refine .ite (.refl s) (.ite (.refl s) (.ite (rings_handoverDone s g) (.ite ?_ (.ite (.refl s) (.ite (rings_startClear s g)
    (rings_handoverDone s g))))))
  exact (rings_wakeTile s _ (by omega)).trans (rings_setBit _ _ _ _ (bankState_high g))

theorem rings_writeOwner (g : Nat) (o : Option Nat) (h : g < 512) : SameRings s (s.writeOwner g o) := by
  refine .ite (.refl s) (.trans ?_ (rings_advanceHandover _ g h))
  exact ((rings_setBit s _ _ _ (bankOwner_high g)).trans (rings_setBit _ _ _ _ (bankOwner_high g))).trans
    (rings_setFld _ _ _ _ (bankOwner_high g))

theorem rings_handTo (c g : Nat) (h : g < 512) : SameRings s (s.handTo c g) :=
  .ite (.refl s) (.ite (rings_advanceHandover s g h) (rings_writeOwner s g _ h))

theorem rings_bankDirty (g : Nat) : SameRings s (s.bankDirty g) :=
  (rings_setBit s _ _ _ (bankOwner_high g)).trans (rings_setFld _ _ _ _ (bankOwner_high g))

theorem rings_bankWrite (a : Nat) (bs : List Byte) : SameRings s (s.bankWrite a bs) :=
  ((rings_mem s _).trans (rings_bankDirty _ _)).trans (rings_setBank _ _ _)

theorem rings_bankUndef (a n : Nat) : SameRings s (s.bankUndef a n) := (rings_mem s _).trans (rings_free _ _)

/-! ## Module DRAM -/

theorem rings_evictObjects (a n : Nat) : SameRings s (s.evictObjects a n) := rings_sec s _
theorem rings_dramPut (c a : Nat) (bs : List Byte) : SameRings s (s.dramPut c a bs) := rings_mem s _
theorem rings_dramWrite (c a : Nat) (bs : List Byte) : SameRings s (s.dramWrite c a bs) :=
  (rings_evictObjects s _ _).trans (host_dramWrite s c a bs).rings
theorem rings_dramUndef (c a n : Nat) : SameRings s (s.dramUndef c a n) :=
  ((rings_evictObjects s _ _).trans (rings_mem _ _)).trans (rings_free _ _)

theorem rings_raise (st : Nat) (b : Bits) (info : Nat) (ib : Bits) (v : Nat) (h1 : st < 0x10000 ∨ 0x20000 ≤ st)
    (h2 : info < 0x10000 ∨ 0x20000 ≤ info) : SameRings s (s.raise st b info ib v) :=
  (SameRings.ite (c := s.reg st = 0) (rings_setFld s _ _ _ h2) (.refl s)).trans (rings_setBit _ _ _ _ h1)

theorem rings_protErr (c : Nat) : SameRings s (s.protErr c) := rings_raise s _ _ _ _ _ (by decide) (by decide)
theorem rings_noteProt (c a n : Nat) : SameRings s (s.noteProt c a n) := .ite (rings_protErr s c) (.refl s)
theorem rings_noteProtW (c a n : Nat) : SameRings s (s.noteProtW c a n) := .ite (rings_protErr s c) (.refl s)

/-! ## Registers that accesses to module DRAM leave alone -/

theorem setOn_reg (d : Domain) (v : Bool) (o : Nat) (ho : 0x10000 ≤ o) : (s.setOn d v).reg o = s.reg o := by
  refine State.reg_setBit_ne _ _ _ ?_
  cases d <;> simp only [domPlace] <;> (try split) <;> simp only [GLB_PWR_DOMAIN_STATUS0, GLB_PWR_DOMAIN_STATUS1, GLB_PWR_DOMAIN_STATUS2] <;> omega

/-- A register outside the blocks GLB, MON and MEM. -/
def unitReg (o : Nat) : Prop := 0x10000 ≤ o ∧ (o < 0x40000 ∨ 0x50000 ≤ o) ∧ (o < 0xA0000 ∨ 0xB0000 ≤ o)

theorem touchLine_reg (c l : Nat) (w : Bool) (o : Nat) (ho : unitReg o) : (s.touchLine c l w).reg o = s.reg o := by
  obtain ⟨h1, h2, h3⟩ := ho
  have hm : dramChannel (l * 64) < 12 := by simp only [dramChannel]; omega
  have hw : (s.wakeMem (dramChannel (l * 64))).reg o = s.reg o := by
    unfold State.wakeMem State.memOn
    split
    · rfl
    · rw [State.reg_setBit_ne _ _ _ (by simp only [MEM_STATUS]; omega), setOn_reg _ _ _ _ h1]
  have hc : ∀ (t : State) a b c d, (t.count a b c d).reg o = t.reg o := fun t a b c d => (inside_count t a b c d).reg o (by omega)
  have hf : ∀ (gone : List (Nat × Nat × Bool)) (t : State), (gone.foldl (fun t e => if e.2.2 then (t.count 0x13 e.2.1
      (dramChannel (l * 64)) 1).bwAdd (2 + (dramChannel (l * 64))) 64 else t) t).reg o = t.reg o := by
    intro gone
    induction gone with
    | nil => intro t; rfl
    | cons e gone ih =>
      intro t; rw [List.foldl_cons, ih]
      split
      · exact hc _ _ _ _ _
      · rfl
  unfold State.touchLine
  dsimp only
  split
  · exact (hc _ _ _ _ _).trans hw
  · refine (hf _ _).trans ?_
    split
    · exact (hc _ _ _ _ _).trans hw
    · exact ((hc _ _ _ _ _).trans (hc _ _ _ _ _)).trans hw

theorem touch_reg (c a n : Nat) (w : Bool) (o : Nat) (ho : unitReg o) : (s.touch c a n w).reg o = s.reg o := by
  unfold State.touch
  generalize linesOf a n = l
  induction l generalizing s with
  | nil => rfl
  | cons x l ih => rw [List.foldl_cons, ih]; exact touchLine_reg _ _ _ _ _ ho

theorem roleGated_congr {s t : State} (h : ∀ o, unitReg o → t.reg o = s.reg o) (c : Nat) : t.roleGated c = s.roleGated c := by
  have h1 := h OLP_ROLE (by unfold unitReg; decide)
  have h2 := h OLP_PAIR (by unfold unitReg; decide)
  have h3 := h STN_CTRL (by unfold unitReg; decide)
  unfold State.roleGated State.role State.sentCtx State.bit State.fld
  rw [h1, h2, h3]

theorem keyTiles_congr {s t : State} (h : ∀ o, unitReg o → t.reg o = s.reg o) (c key : Nat) : t.keyTiles c key = s.keyTiles c key := by
  unfold State.keyTiles
  have : ∀ x b, t.fld (TILE_STATUS x) b = s.fld (TILE_STATUS x) b := fun x b =>
    State.fld_congr _ _ (h _ (by unfold unitReg; simp only [TILE_STATUS]; omega))
  simp only [this]

/-! ## Claims -/

theorem rings_dramUndefOwn (c a n : Nat) : SameRings s (s.dramUndefOwn c a n) :=
  .foldl _ _ (fun _ _ t => .ite (rings_dramUndef t _ _ _) (.refl t)) s

theorem rings_slotUndef (c : Nat) (tiles : List Nat) (space a n : Nat) : SameRings s (s.slotUndef c tiles space a n) :=
  .ite (rings_dramUndefOwn s _ _ _) (.ite (.foldl _ _ (fun _ _ t => .ite ((rings_bankUndef t _ _).trans (rings_bankDirty _ _))
    (.refl t)) s) (.refl s))

theorem rings_argsUndef (w : Work) : SameRings s (s.argsUndef w) := by
  simp only [State.argsUndef]
  split
  · exact .foldl _ _ (fun _ _ t => .ite (rings_slotUndef t _ _ _ _ _) (.refl t)) s
  · exact .refl s

theorem rings_tilesErr (w : Work) (b : Bits) : SameRings s (s.tilesErr w b) :=
  .each _ _ (fun _ _ t => rings_setBit t _ _ _ (by simp only [TILE_ERR_STATUS]; omega)) s

theorem rings_tilesAborted (w : Work) (ran : Bool) (st : Nat) : SameRings s (s.tilesAborted w ran st) :=
  .ite (rings_tilesErr s w _) (.refl s)

theorem bankOf_lt (a : Nat) : bankOf a < 512 := by simp only [bankOf]; omega

theorem rings_drainStores (c t : Nat) : SameRings s (s.drainStores c t) := by
  refine .foldl _ _ (fun r _ u => ?_) s
  split
  · exact ((rings_setTile u _ _).trans (rings_dramWrite _ _ _ _)).trans (rings_setFld _ _ _ _ (by simp only [PE_STATUS]; omega))
  · exact .refl u

theorem rings_endRequests (g : Nat) : SameRings s (s.endRequests g) := by
  simp only [State.endRequests]
  split
  · exact .refl s
  · rename_i h
    have hg : g < 512 := by simp at h; omega
    refine .trans (.trans (.foldl _ _ (fun v _ u => ?_) s) (rings_setBank _ _ _)) (rings_advanceHandover _ _ hg)
    split
    · exact rings_bankWrite u _ _
    · exact .refl u

/-- What a work has issued completes. -/
theorem rings_drainWork (w : Work) : SameRings s (s.drainWork w) :=
  (SameRings.each _ _ (fun _ _ t => rings_drainStores t _ _) s).trans (.each _ _ (fun _ _ t => rings_endRequests t _) _)

theorem rings_dropFills (n : Nat) : SameRings s (s.dropFills n) :=
  (rings_setTile s _ _).trans (rings_setFld _ _ _ _ (by simp only [PE_STATUS]; omega))

theorem rings_freeKey (c key : Nat) : SameRings s (s.freeKey c key) :=
  .each _ _ (fun _ _ t => rings_setFld t _ _ _ (by simp only [TILE_STATUS]; omega)) s

theorem rings_releaseTile (w : Work) (n : Nat) : SameRings s (s.releaseTile w n) := by
  have h : TILE_STATUS n < 0x10000 ∨ 0x20000 ≤ TILE_STATUS n := by simp only [TILE_STATUS]; omega
  exact .ite ((((((rings_setBit s (TILE_STATUS n) TILE_STATUS_CLAIMED false h).trans (rings_setBit _ (TILE_STATUS n)
    TILE_STATUS_RUNNING false h)).trans (rings_setBit _ (TILE_STATUS n) TILE_STATUS_AT_BARRIER false h)).trans (rings_setFld _
    (TILE_STATUS n) TILE_STATUS_ME_CLAIMED 0 h)).trans (rings_setFld _ (TILE_STATUS n) TILE_STATUS_ME_BUSY 0 h)).trans
    (rings_setTile _ _ _)) (.refl s)

theorem rings_releaseHub (w : Work) (c : Nat) : SameRings s (s.releaseHub w c) := by
  have h : SET_STATUS c < 0x10000 ∨ 0x20000 ≤ SET_STATUS c := by simp only [SET_STATUS]; omega
  have h2 : HUB_BARRIER_ARMED c < 0x10000 ∨ 0x20000 ≤ HUB_BARRIER_ARMED c := by simp only [HUB_BARRIER_ARMED]; omega
  have k : ∀ (x : Hub) (n : Nat) (b own : Bool), SameRings s
      (if own then ((((s.setHub c x).setFld (SET_STATUS c) SET_STATUS_QUEUED n).setBit (SET_STATUS c) SET_STATUS_BUSY b).setBit
        (SET_STATUS c) SET_STATUS_CLAIMED false).setBit (SET_STATUS c) SET_STATUS_BY_SORT false else
        ((s.setHub c x).setFld (SET_STATUS c) SET_STATUS_QUEUED n).setBit (SET_STATUS c) SET_STATUS_BUSY b) := fun x n b own => by
    have k1 := ((rings_setHub s c x).trans (rings_setFld _ (SET_STATUS c) SET_STATUS_QUEUED n h)).trans (rings_setBit _
      (SET_STATUS c) SET_STATUS_BUSY b h)
    exact .ite ((k1.trans (rings_setBit _ _ _ _ h)).trans (rings_setBit _ _ _ _ h)) k1
  exact (k _ _ _ _).trans (rings_setFld _ _ _ _ h2)

theorem rings_releaseClaim (w : Work) (k : Bool) : SameRings s (s.releaseClaim w k) :=
  (((SameRings.ite (c := k = true) (rings_freeKey s _ _) (.refl s)).trans (rings_drainWork _ w)).trans (.each _ _ (fun _ _ t =>
    (rings_dropFills t _).trans (rings_releaseTile _ _ _)) _)).trans (.each _ _ (fun _ _ t => rings_releaseHub t _ _) _)

theorem rings_releaseHolds (w : Work) : SameRings s (s.releaseHolds w) :=
  .foldl _ _ (fun _ _ t => .ite (rings_setSeq t _ _) (.refl t)) s

theorem rings_takeHolds (qs : List Nat) : SameRings s (s.takeHolds qs) := .foldl _ _ (fun _ _ t => rings_setSeq t _ _) s

/-! ## Work that begins -/

/-- A descriptor admitted with nothing else in flight is the one in flight, after operations that left the rings alone. -/
theorem SameRings.admits {s v : State} {c : Instr} {k : State → State} {r : Nat} (w : Work) {P : State → Prop}
    (h : s.acts) (hi : s.idle) (hv : SameRings s v) (he : exec c s = .next (s.whenCore k))
    (hk : k s = ((v.popHead r).addWork w).settle) (hf : w.cls ≠ clFence)
    (hp : ∀ (u t : State) (a b g : Nat), SameInside v u → SameUnits u t →
      u.hif.works = [{ w with age := a, at_ := b, gate0 := g }] →
      t.hif.works = [if u.dmaReady { w with age := a, at_ := b, gate0 := g } then
        { w with age := a, at_ := b, gate0 := g, phase := .running, startAt := u.now } else { w with age := a, at_ := b, gate0 := g }] →
      P t) : ∃ t, exec c s = .next t ∧ P t := by
  have h0 := addWork_hif (v.popHead r) w
  have hp0 : (v.popHead r).hif.works = [] := ((popHead_works v r).works.trans (by rw [hv.hif])).trans hi.1
  have h1 := congrArg HostIf.works h0
  rw [hp0] at h1
  have ho : ((v.popHead r).addWork w).openRings := by
    have := (popHead_works v r).opens (by intro p hp; rw [hv.hif] at hp; exact hi.2 p hp)
    intro p hp; rw [h0] at hp; exact this p hp
  have i1 : SameInside v ((v.popHead r).addWork w) := (inside_popHead v r).trans (inside_addWork _ _)
  have i2 := inside_settle ((v.popHead r).addWork w)
  have hs := (settle_single _ _ h1 hf ho).1
  refine ⟨_, he, ?_⟩
  rw [whenCore_acts s h (by rw [hk, i2.ue, i1.ue, hv.hif]), hk]
  exact hp _ _ _ _ _ i1 (i2.units.trans (units_updateLines _)) h1 (by rw [updateLines_hif]; exact hs)

/-! ## Work that ends answers its descriptor -/

/-- The class byte of a head. -/
theorem headOf_cls {r cls : Nat} {f : Fetched} (h : s.headOf r cls = some f) : dF f.desc 0 1 = cls := by
  simp only [State.headOf] at h
  split at h
  · split at h
    · rename_i g hg hc; cases h; simp at hc; exact hc.1.1.1
    · cases h
  · cases h

/-- An admitted descriptor that a ring and a sequence number name. -/
theorem work_is {r seq : Nat} {w : Work} (h : s.work? r seq = some w) : w.ring = r ∧ w.seq = seq := by
  have := List.find?_some h; simpa [Work.is] using this

/-- A descriptor that completes after operations which left the rings alone is answered where its ring stands. -/
theorem SameRings.completes {s v : State} (h : SameRings s v) (w : Work) (status flags words : Nat) (hl : s.linkUp = true)
    (hm : (s.ring w.ring).mute = false) :
    s.recordSent (v.complete w status flags words) w.ring w.tag w.seq words status w.cls flags :=
  recordSent_from s (recordSent_complete v w status flags words ((linkUp_congr s (h.reg _ (by decide))).trans hl)
    ((congrArg Ring.mute (h.ring _)).trans hm)) (servingFn_congr s _ (h.reg _ (by decide))) (by rw [h.ring]) (by rw [h.ring])
    (by rw [h.ring])

/-- A descriptor that fails a check, after operations that left the rings alone, is answered where its ring stands. -/
theorem SameRings.rejects {s v : State} (h : SameRings s v) (r : Nat) (f : Fetched) (status : Nat) (hl : s.linkUp = true)
    (hm : (s.ring r).mute = false) : s.answered (v.reject r f status) r f status 0 (v.idleWords r f.desc) :=
  recordSent_from s (answered_reject v r f status ((linkUp_congr s (h.reg _ (by decide))).trans hl)
    ((congrArg Ring.mute (h.ring _)).trans hm)) (servingFn_congr s _ (h.reg _ (by decide))) (by rw [h.ring]) (by rw [h.ring])
    (by rw [h.ring])

/-- The same for one that does its work at its admission. -/
theorem SameRings.finishes {s v : State} (h : SameRings s v) (r : Nat) (f : Fetched) (status flags words : Nat)
    (hl : s.linkUp = true) (hm : (s.ring r).mute = false) :
    s.answered (v.finishNow r f status flags words) r f status flags words :=
  recordSent_from s (answered_finishNow v r f status flags words ((linkUp_congr s (h.reg _ (by decide))).trans hl)
    ((congrArg Ring.mute (h.ring _)).trans hm)) (servingFn_congr s _ (h.reg _ (by decide))) (by rw [h.ring]) (by rw [h.ring])
    (by rw [h.ring])

/-- What a stopped KERNEL completes from. -/
theorem rings_stopKernel (w : Work) (status : Nat) : ∃ v flags words, SameRings s v ∧
    s.stopKernel w status = v.complete w status flags words := by
  have h : ∀ ran : Bool, SameRings s ((((if ran then (s.drainWork w).argsUndef w else s.drainWork w).tilesAborted w ran
      status).releaseClaim w w.freesKey).releaseHolds w) := fun ran =>
    ((((rings_drainWork s w).trans (SameRings.ite (rings_argsUndef _ w) (.refl _))).trans (rings_tilesAborted _ _ _ _)).trans (rings_releaseClaim _ _ _)).trans
      (rings_releaseHolds _ _)
  simp only [State.stopKernel]
  by_cases hr : (w.stage == Stage.running || w.stage == Stage.finishing) = true
  · simp only [hr, if_true]
    exact ⟨_, _, _, (by simpa using h true : SameRings s _).trans (rings_free _ _), rfl⟩
  · simp only [hr]
    exact ⟨_, _, _, (by simpa using h false : SameRings s _), rfl⟩

/-- What a stopped ATTN completes from. -/
theorem rings_stopAttn (w : Work) (status : Nat) : ∃ v flags words, SameRings s v ∧
    s.stopAttn w status = v.complete w status flags words := by
  have h := (((SameRings.each w.tiles (fun t i => t.setBit (ATTN_STATUS i) ⟨31, 30⟩ false) (fun _ _ t => rings_setBit t _ _ _
    (by simp only [ATTN_STATUS]; omega)) s).trans (rings_tilesAborted _ w (w.stage == .running || w.stage == .finishing) status)).trans
    (rings_releaseClaim _ w false)).trans (rings_releaseHolds _ w)
  simp only [State.stopAttn]
  split
  · exact ⟨_, _, _, h.trans (rings_free _ _), rfl⟩
  · exact ⟨_, _, _, h, rfl⟩

/-- What a stopped SORT completes from. -/
theorem rings_stopSort (w : Work) (status : Nat) : ∃ v, SameRings s v ∧ s.stopSort w status = v.complete w status 0 0 :=
  ⟨_, (SameRings.ite ((rings_slotUndef s _ _ _ _ _).trans (rings_slotUndef _ _ _ _ _ _)) (.refl s)).trans
    (rings_releaseClaim _ _ _), rfl⟩

/-- A stopped KERNEL is answered with the status. -/
theorem sent_stopKernel (w : Work) (status : Nat) (hl : s.linkUp = true) (hm : (s.ring w.ring).mute = false) :
    ∃ flags words, s.recordSent (s.stopKernel w status) w.ring w.tag w.seq words status w.cls flags := by
  obtain ⟨v, fl, wd, h, e⟩ := rings_stopKernel s w status
  exact ⟨fl, wd, by rw [e]; exact h.completes w status fl wd hl hm⟩

/-- A stopped ATTN is answered with the status. -/
theorem sent_stopAttn (w : Work) (status : Nat) (hl : s.linkUp = true) (hm : (s.ring w.ring).mute = false) :
    ∃ flags words, s.recordSent (s.stopAttn w status) w.ring w.tag w.seq words status w.cls flags := by
  obtain ⟨v, fl, wd, h, e⟩ := rings_stopAttn s w status
  exact ⟨fl, wd, by rw [e]; exact h.completes w status fl wd hl hm⟩

end Sys2Proof.Machine
end

