-- ==== Sys2Proof/Laws/Moves.lean ====
section
/-! SUPPORT. Frames compose: State.moves of the primitive updates, of one operation after another, and of a completion. -/

namespace Sys2Proof.Machine

theorem State.moves_refl (s : State) (as : List Area) (rs : List (Nat × Nat)) : s.moves s as rs :=
  ⟨rfl, fun a _ => by cases a <;> simp [Area.same], fun _ _ _ _ => rfl⟩

theorem Area.same_trans {s t u : State} {a : Area} (h : a.same s t) (k : a.same t u) : a.same s u := by
  cases a <;> simp only [Area.same] at * <;> (first | exact k.trans h | exact ⟨k.1.trans h.1, k.2.trans h.2⟩)

theorem State.moves_trans {s t u : State} {as : List Area} {rs : List (Nat × Nat)} (h : s.moves t as rs) (k : t.moves u as rs) :
    s.moves u as rs :=
  ⟨k.1.trans h.1, fun a ha => Area.same_trans (h.2.1 a ha) (k.2.1 a ha), fun o ho hm hr => (k.2.2 o ho hm hr).trans (h.2.2 o ho hm hr)⟩

/-- A frame may be widened. -/
theorem State.moves_mono {s t : State} {as bs : List Area} {rs qs : List (Nat × Nat)} (h : s.moves t as rs) (ha : ∀ a ∈ as, a ∈ bs)
    (hr : ∀ g ∈ rs, g ∈ qs) : s.moves t bs qs :=
  ⟨h.1, fun a hb => h.2.1 a fun k => hb (ha a k), fun o ho hm hq => h.2.2 o ho hm fun g hg => hq g (hr g hg)⟩

/-- A register write within the ranges. -/
theorem State.moves_setReg (s : State) (o : Nat) (w : W64) (as : List Area) (rs : List (Nat × Nat))
    (h : o = VRD_STATUS ∨ ∃ g ∈ rs, g.1 ≤ o ∧ o ≤ g.2) : s.moves (s.setReg o w) as rs := by
  refine ⟨rfl, fun a _ => by cases a <;> simp [Area.same, State.setReg], fun k hk hm hr => s.reg_setReg_ne w ?_⟩
  rintro rfl
  rcases h with h | ⟨g, hg, h1, h2⟩
  · exact hk h
  · have := hr g hg; omega

theorem State.moves_setFld (s : State) (o : Nat) (b : Bits) (v : Nat) (as : List Area) (rs : List (Nat × Nat))
    (h : o = VRD_STATUS ∨ ∃ g ∈ rs, g.1 ≤ o ∧ o ≤ g.2) : s.moves (s.setFld o b v) as rs := s.moves_setReg o _ as rs h

theorem State.moves_setBit (s : State) (o : Nat) (b : Bits) (v : Bool) (as : List Area) (rs : List (Nat × Nat))
    (h : o = VRD_STATUS ∨ ∃ g ∈ rs, g.1 ≤ o ∧ o ≤ g.2) : s.moves (s.setBit o b v) as rs := s.moves_setReg o _ as rs h

/-- A field of the state that belongs to an area named. -/
theorem State.moves_area {s t : State} {as : List Area} {rs : List (Nat × Nat)} (hp : t.pending = s.pending) (hr : t.regs = s.regs)
    (ha : ∀ a, a ∉ as → a.same s t) : s.moves t as rs :=
  ⟨hp, ha, fun o _ _ _ => by simp [State.reg, hr]⟩

theorem State.moves_updateLines (s : State) (as : List Area) (rs : List (Nat × Nat)) : s.moves s.updateLines as rs := by
  unfold State.updateLines; split
  · exact s.moves_refl as rs
  · exact s.moves_setFld _ _ _ as rs (.inl rfl)

/-- What only completes, counts or signals moves what a record moves. -/
theorem SameUnits.moves {s t : State} (h : SameUnits s t) (as : List Area) (rs : List (Nat × Nat))
    (ha : ∀ a ∈ recordAreas, a ∈ as) (hr : ∀ g ∈ recordRegs, g ∈ rs) : s.moves t as rs := by
  refine ⟨h.pending, fun a hn => ?_, fun o ho hm hg => h.reg o ?_ ho⟩
  · have hx : a ∉ recordAreas := fun k => hn (ha a k)
    cases a <;> simp [recordAreas] at hx <;> simp [Area.same, h.nv, h.aon, h.sec, h.mem, h.arr, h.kv, h.vcd, h.stn, h.vrd, h.merge,
      h.pair, h.olp]
  · have h1 := hg pwrRegs (hr _ (by simp [recordRegs]))
    simp [pwrRegs] at h1; omega

end Sys2Proof.Machine
end

