-- ==== Sys2Proof/Laws/PerInstr.lean ====
section
/-! SUPPORT. One lemma per command: a well-formed command names only rings that the module has (Host Interface, R239). -/

namespace Sys2Proof.Laws.RingNumber

/-- The submission ring that a command names. -/
def ring? : Instr → Option Nat
  | .kernel ring _ => some ring
  | .barrierArrive ring _ _ _ _ => some ring
  | .kernelFinish ring _ _ => some ring
  | .kernelTimeout ring _ => some ring
  | .sequencerTrap ring _ _ _ => some ring
  | .sort ring => some ring
  | .topk ring => some ring
  | .merge ring => some ring
  | .intersect ring => some ring
  | .segreduce ring => some ring
  | .attend ring => some ring
  | .verify ring => some ring
  | .accept ring => some ring
  | .attnCommit ring _ _ => some ring
  | .attnTimeout ring _ => some ring
  | .seqRegister ring => some ring
  | .seqExtend ring => some ring
  | .seqFork ring => some ring
  | .seqRelease ring => some ring
  | .seqPreempt ring => some ring
  | .seqSwapOut ring => some ring
  | .seqSwapIn ring _ => some ring
  | .seqRemap ring => some ring
  | .seqStart ring _ _ => some ring
  | .seqFrameTimeout ring _ => some ring
  | .swapImageFlushed ring _ _ => some ring
  | .sentConfigure ring => some ring
  | .sentEnable ring => some ring
  | .sentDisable ring => some ring
  | .sentReset ring => some ring
  | .sentAck ring => some ring
  | .sentLoadModel ring _ => some ring
  | .sentUnloadModel ring => some ring
  | .sentReadState ring => some ring
  | .codecRegister ring => some ring
  | .codecDecode ring => some ring
  | .codecEncode ring => some ring
  | .codecFlush ring => some ring
  | .codecUnregister ring => some ring
  | .descriptorFetch ring _ _ => some ring
  | .holdoffExpiry ring => some ring
  | .dmaCopy ring => some ring
  | .dmaFill ring => some ring
  | .dmaDone ring _ _ _ _ => some ring
  | .fence ring => some ring
  | .abort ring _ => some ring
  | .ringCreate ring => some ring
  | .ringDelete ring => some ring
  | .partDefine ring => some ring
  | .partSchedule ring => some ring
  | .ctxGrant ring => some ring
  | .ctxScrub ring => some ring
  | .provReport ring => some ring
  | .provCert ring => some ring
  | .keyInstall ring => some ring
  | .keyRemove ring => some ring
  | .weightImport ring => some ring
  | .ctxDebug ring => some ring
  | .hint ring => some ring
  | .hintExpiry ring _ => some ring
  | .powerMode ring => some ring
  | .energySnapshot ring => some ring
  | .pairConfig ring => some ring
  | .roleSwap ring => some ring
  | .isolate ring => some ring
  | .rejoin ring => some ring
  | .cascadeConfig ring => some ring
  | .windowOpen ring => some ring
  | .windowClose ring => some ring
  | .linkRetrain ring => some ring
  | .imageInject ring _ => some ring
  | .arm ring _ => some ring
  | .disarm ring => some ring
  | .ownerLock ring => some ring
  | .svnCommit ring => some ring
  | .eventRead ring => some ring
  | .dmaTimeout ring _ _ => some ring
  | _ => none

/-- A well-formed command names a ring of a context or the management ring. -/
def Statement (i : Instr) : Prop := i.wellFormed = true → ∀ r, ring? i = some r → r ≤ 4096

theorem inRange {n r : Nat} (h : decide (n ≤ 4096) = true) (hr : some n = some r) : r ≤ 4096 := by
  cases hr; exact of_decide_eq_true h

theorem nothing {r : Nat} {p : Prop} (h : (none : Option Nat) = some r) : p := by cases h

theorem left {a b : Bool} (h : (a && b) = true) : a = true := (Bool.and_eq_true_iff.mp h).1

theorem registerWrite (fn off bits : Nat) (acc : RegAccess) : Statement (.registerWrite fn off bits acc) := fun _ _ h => nothing h
theorem glbSetupLockSet (fn : Nat) (v : W32) : Statement (.glbSetupLockSet fn v) := fun _ _ h => nothing h
theorem aonStart (a : AonFacts) (f : StartFacts) : Statement (.aonStart a f) := fun _ _ h => nothing h
theorem holdupCharged (f : StartFacts) : Statement (.holdupCharged f) := fun _ _ h => nothing h
theorem inputBelowReset : Statement (.inputBelowReset) := fun _ _ h => nothing h
theorem inputOverVoltage : Statement (.inputOverVoltage) := fun _ _ h => nothing h
theorem inputRestored (a : AonFacts) (f : StartFacts) : Statement (.inputRestored a f) := fun _ _ h => nothing h
theorem startPermit (f : StartFacts) : Statement (.startPermit f) := fun _ _ h => nothing h
theorem startPermitWithdrawn : Statement (.startPermitWithdrawn) := fun _ _ h => nothing h
theorem ddrTraining (ok : BitVec 12) (temp : Int) (ms : BitVec 16) : Statement (.ddrTraining ok temp ms) := fun _ _ h => nothing h
theorem startReady (selfTestOk : Bool) : Statement (.startReady selfTestOk) := fun _ _ h => nothing h
theorem domainOff (d : Domain) : Statement (.domainOff d) := fun _ _ h => nothing h
theorem domainOn (d : Domain) : Statement (.domainOn d) := fun _ _ h => nothing h
theorem kernel (ring : Nat) (obj : ObjFacts) : Statement (.kernel ring obj) := fun h _ hr => inRange h hr
theorem claimGrant (part : Nat) : Statement (.claimGrant part) := fun _ _ h => nothing h
theorem staggerWave (cluster : Nat) : Statement (.staggerWave cluster) := fun _ _ h => nothing h
theorem barrierArrive (ring seq tile bar : Nat) (queued : BitVec 4) : Statement (.barrierArrive ring seq tile bar queued) := fun h _ hr => inRange (left (left h)) hr
theorem kernelFinish (ring seq : Nat) (fin : KernelFin) : Statement (.kernelFinish ring seq fin) := fun h _ hr => inRange h hr
theorem kernelTimeout (ring seq : Nat) : Statement (.kernelTimeout ring seq) := fun h _ hr => inRange h hr
theorem sequencerTrap (ring seq tile : Nat) (cause : BitVec 8) : Statement (.sequencerTrap ring seq tile cause) := fun h _ hr => inRange (left h) hr
theorem icacheFill (tile line : Nat) : Statement (.icacheFill tile line) := fun _ _ h => nothing h
theorem peRequest (tile step q : Nat) (req : PeReq) : Statement (.peRequest tile step q req) := fun _ _ h => nothing h
theorem fallbackHoldExpiry (cluster : Nat) : Statement (.fallbackHoldExpiry cluster) := fun _ _ h => nothing h
theorem peFillReturn (tile q : Nat) (ecc : Ecc) : Statement (.peFillReturn tile q ecc) := fun _ _ h => nothing h
theorem bankAccessRequest (bank clock : Nat) (reqs : List BankReq) (ecc : Ecc) (group : Nat) : Statement (.bankAccessRequest bank clock reqs ecc group) := fun _ _ h => nothing h
theorem bankOwnerWrite (bank : Nat) (owner : Option Nat) : Statement (.bankOwnerWrite bank owner) := fun _ _ h => nothing h
theorem handoverDrain (bank : Nat) : Statement (.handoverDrain bank) := fun _ _ h => nothing h
theorem bankWake (bank : Nat) : Statement (.bankWake bank) := fun _ _ h => nothing h
theorem bankClear (bank : Nat) : Statement (.bankClear bank) := fun _ _ h => nothing h
theorem bankIdleRet (bank : Nat) : Statement (.bankIdleRet bank) := fun _ _ h => nothing h
theorem freeOffSet (tile : Nat) : Statement (.freeOffSet tile) := fun _ _ h => nothing h
theorem freeOffClear (tile : Nat) : Statement (.freeOffClear tile) := fun _ _ h => nothing h
theorem setEngineCommand (tile : Nat) (cmd : SetCmd) : Statement (.setEngineCommand tile cmd) := fun _ _ h => nothing h
theorem setOperationDone (cluster : Nat) : Statement (.setOperationDone cluster) := fun _ _ h => nothing h
theorem sort (ring : Nat) : Statement (.sort ring) := fun h _ hr => inRange h hr
theorem topk (ring : Nat) : Statement (.topk ring) := fun h _ hr => inRange h hr
theorem merge (ring : Nat) : Statement (.merge ring) := fun h _ hr => inRange h hr
theorem intersect (ring : Nat) : Statement (.intersect ring) := fun h _ hr => inRange h hr
theorem segreduce (ring : Nat) : Statement (.segreduce ring) := fun h _ hr => inRange h hr
theorem attend (ring : Nat) : Statement (.attend ring) := fun h _ hr => inRange h hr
theorem verify (ring : Nat) : Statement (.verify ring) := fun h _ hr => inRange h hr
theorem accept (ring : Nat) : Statement (.accept ring) := fun h _ hr => inRange h hr
theorem attnCommit (ring seq cycles : Nat) : Statement (.attnCommit ring seq cycles) := fun h _ hr => inRange h hr
theorem attnTimeout (ring seq : Nat) : Statement (.attnTimeout ring seq) := fun h _ hr => inRange h hr
theorem pftW0Write (fn frame : Nat) (v : W64) : Statement (.pftW0Write fn frame v) := fun _ _ h => nothing h
theorem pftCheckDone : Statement (.pftCheckDone) := fun _ _ h => nothing h
theorem seqRegister (ring : Nat) : Statement (.seqRegister ring) := fun h _ hr => inRange h hr
theorem seqExtend (ring : Nat) : Statement (.seqExtend ring) := fun h _ hr => inRange h hr
theorem seqFork (ring : Nat) : Statement (.seqFork ring) := fun h _ hr => inRange h hr
theorem seqRelease (ring : Nat) : Statement (.seqRelease ring) := fun h _ hr => inRange h hr
theorem seqPreempt (ring : Nat) : Statement (.seqPreempt ring) := fun h _ hr => inRange h hr
theorem seqSwapOut (ring : Nat) : Statement (.seqSwapOut ring) := fun h _ hr => inRange h hr
theorem seqSwapIn (ring : Nat) (image : HostRd) : Statement (.seqSwapIn ring image) := fun h _ hr => inRange h hr
theorem seqRemap (ring : Nat) : Statement (.seqRemap ring) := fun h _ hr => inRange h hr
theorem seqStart (ring seq : Nat) (image : HostRd) : Statement (.seqStart ring seq image) := fun h _ hr => inRange h hr
theorem holdEnd (seqId : Nat) (image : HostRd) : Statement (.holdEnd seqId image) := fun _ _ h => nothing h
theorem seqFrameTimeout (ring seq : Nat) : Statement (.seqFrameTimeout ring seq) := fun h _ hr => inRange h hr
theorem swapImageFlushed (ring seq : Nat) (image : HostRd) : Statement (.swapImageFlushed ring seq image) := fun h _ hr => inRange h hr
theorem stnCtrlEnable (v : W32) : Statement (.stnCtrlEnable v) := fun _ _ h => nothing h
theorem stnCtrlDisable (v : W32) : Statement (.stnCtrlDisable v) := fun _ _ h => nothing h
theorem sentinelRunning : Statement (.sentinelRunning) := fun _ _ h => nothing h
theorem sentinelDoorbell (fn off bits : Nat) (v : W64) : Statement (.sentinelDoorbell fn off bits v) := fun _ _ h => nothing h
theorem windowFetchDone (chan : Nat) (rd : HostRd) : Statement (.windowFetchDone chan rd) := fun _ _ h => nothing h
theorem modelDone (chan latency : Nat) : Statement (.modelDone chan latency) := fun _ _ h => nothing h
theorem modelFault (chan : Nat) (kind : FaultKind) (offset : Nat) : Statement (.modelFault chan kind offset) := fun _ _ h => nothing h
theorem staleTimeout (chan : Nat) : Statement (.staleTimeout chan) := fun _ _ h => nothing h
theorem sentConfigure (ring : Nat) : Statement (.sentConfigure ring) := fun h _ hr => inRange h hr
theorem sentEnable (ring : Nat) : Statement (.sentEnable ring) := fun h _ hr => inRange h hr
theorem sentDisable (ring : Nat) : Statement (.sentDisable ring) := fun h _ hr => inRange h hr
theorem sentReset (ring : Nat) : Statement (.sentReset ring) := fun h _ hr => inRange h hr
theorem sentAck (ring : Nat) : Statement (.sentAck ring) := fun h _ hr => inRange h hr
theorem sentLoadModel (ring : Nat) (obj : ObjFacts) : Statement (.sentLoadModel ring obj) := fun h _ hr => inRange h hr
theorem sentUnloadModel (ring : Nat) : Statement (.sentUnloadModel ring) := fun h _ hr => inRange h hr
theorem sentReadState (ring : Nat) : Statement (.sentReadState ring) := fun h _ hr => inRange h hr
theorem codecRegister (ring : Nat) : Statement (.codecRegister ring) := fun h _ hr => inRange h hr
theorem codecDecode (ring : Nat) : Statement (.codecDecode ring) := fun h _ hr => inRange h hr
theorem codecEncode (ring : Nat) : Statement (.codecEncode ring) := fun h _ hr => inRange h hr
theorem codecFlush (ring : Nat) : Statement (.codecFlush ring) := fun h _ hr => inRange h hr
theorem codecUnregister (ring : Nat) : Statement (.codecUnregister ring) := fun h _ hr => inRange h hr
theorem pictureStart (shape : PicShape) : Statement (.pictureStart shape) := fun _ _ h => nothing h
theorem pictureDone (res : PicResult) : Statement (.pictureDone res) := fun _ _ h => nothing h
theorem pictureTimeout : Statement (.pictureTimeout) := fun _ _ h => nothing h
theorem pcieLinkUp (width speed : Nat) : Statement (.pcieLinkUp width speed) := fun _ _ h => nothing h
theorem pcieLinkDown : Statement (.pcieLinkDown) := fun _ _ h => nothing h
theorem perstN (low : Bool) : Statement (.perstN low) := fun _ _ h => nothing h
theorem vfFlr (v : Nat) : Statement (.vfFlr v) := fun _ _ h => nothing h
theorem pfFlr : Statement (.pfFlr) := fun _ _ h => nothing h
theorem servingFunctionChange (numVfs : Nat) (enable : Bool) : Statement (.servingFunctionChange numVfs enable) := fun _ _ h => nothing h
theorem submissionTailDoorbell (fn off bits : Nat) (v : W64) : Statement (.submissionTailDoorbell fn off bits v) := fun _ _ h => nothing h
theorem completionHeadDoorbell (fn off bits : Nat) (v : W64) : Statement (.completionHeadDoorbell fn off bits v) := fun _ _ h => nothing h
theorem descriptorFetch (ring count : Nat) (rd : HostRd) : Statement (.descriptorFetch ring count rd) := fun h _ hr => inRange (left h) hr
theorem holdoffExpiry (ring : Nat) : Statement (.holdoffExpiry ring) := fun h _ hr => inRange h hr
theorem dmaCopy (ring : Nat) : Statement (.dmaCopy ring) := fun h _ hr => inRange h hr
theorem dmaFill (ring : Nat) : Statement (.dmaFill ring) := fun h _ hr => inRange h hr
theorem dmaDone (ring seq : Nat) (rd : HostRd) (ecc : Ecc) (byte : Nat) : Statement (.dmaDone ring seq rd ecc byte) := fun h _ hr => inRange h hr
theorem fence (ring : Nat) : Statement (.fence ring) := fun h _ hr => inRange h hr
theorem abort (ring : Nat) (rd : HostRd) : Statement (.abort ring rd) := fun h _ hr => inRange h hr
theorem ringCreate (ring : Nat) : Statement (.ringCreate ring) := fun h _ hr => inRange h hr
theorem ringDelete (ring : Nat) : Statement (.ringDelete ring) := fun h _ hr => inRange h hr
theorem mgmtRingEnable (v : W64) : Statement (.mgmtRingEnable v) := fun _ _ h => nothing h
theorem ctxRingEnable (fn ctx : Nat) (v : W64) : Statement (.ctxRingEnable fn ctx v) := fun _ _ h => nothing h
theorem versionSelectWrite (fn ctx : Nat) (v : W32) : Statement (.versionSelectWrite fn ctx v) := fun _ _ h => nothing h
theorem patrolRead (chan : Nat) (ecc : Ecc) : Statement (.patrolRead chan ecc) := fun _ _ h => nothing h
theorem partDefine (ring : Nat) : Statement (.partDefine ring) := fun h _ hr => inRange h hr
theorem partSchedule (ring : Nat) : Statement (.partSchedule ring) := fun h _ hr => inRange h hr
theorem ctxGrant (ring : Nat) : Statement (.ctxGrant ring) := fun h _ hr => inRange h hr
theorem ctxScrub (ring : Nat) : Statement (.ctxScrub ring) := fun h _ hr => inRange h hr
theorem provReport (ring : Nat) : Statement (.provReport ring) := fun h _ hr => inRange h hr
theorem provCert (ring : Nat) : Statement (.provCert ring) := fun h _ hr => inRange h hr
theorem keyInstall (ring : Nat) : Statement (.keyInstall ring) := fun h _ hr => inRange h hr
theorem keyRemove (ring : Nat) : Statement (.keyRemove ring) := fun h _ hr => inRange h hr
theorem weightImport (ring : Nat) : Statement (.weightImport ring) := fun h _ hr => inRange h hr
theorem ctxDebug (ring : Nat) : Statement (.ctxDebug ring) := fun h _ hr => inRange h hr
theorem sliceExpiry (part : Nat) : Statement (.sliceExpiry part) := fun _ _ h => nothing h
theorem tenantSwitch (part time : Nat) : Statement (.tenantSwitch part time) := fun _ _ h => nothing h
theorem contextBecomesCurrent (part : Nat) : Statement (.contextBecomesCurrent part) := fun _ _ h => nothing h
theorem rngFail : Statement (.rngFail) := fun _ _ h => nothing h
theorem powerSample (m : PowerMeas) : Statement (.powerSample m) := fun _ _ h => nothing h
theorem peakProjection (worstUJ : Nat) : Statement (.peakProjection worstUJ) := fun _ _ h => nothing h
theorem supplyWarn (voltage10mV : Nat) : Statement (.supplyWarn voltage10mV) := fun _ _ h => nothing h
theorem holdRelease (voltage10mV micros : Nat) : Statement (.holdRelease voltage10mV micros) := fun _ _ h => nothing h
theorem tjHighStep (cluster temp : Nat) : Statement (.tjHighStep cluster temp) := fun _ _ h => nothing h
theorem tjTrip (sensor : Nat) : Statement (.tjTrip sensor) := fun _ _ h => nothing h
theorem inletShutdown : Statement (.inletShutdown) := fun _ _ h => nothing h
theorem airflowEstimate (a : AirFacts) : Statement (.airflowEstimate a) := fun _ _ h => nothing h
theorem airStopCountdown : Statement (.airStopCountdown) := fun _ _ h => nothing h
theorem voltageLoopUpdate (cluster marginMV slackMHz : Nat) : Statement (.voltageLoopUpdate cluster marginMV slackMHz) := fun _ _ h => nothing h
theorem droopDetect (cluster marginMV clocks : Nat) : Statement (.droopDetect cluster marginMV clocks) := fun _ _ h => nothing h
theorem modeChangeCluster (cluster : Nat) : Statement (.modeChangeCluster cluster) := fun _ _ h => nothing h
theorem hint (ring : Nat) : Statement (.hint ring) := fun h _ hr => inRange h hr
theorem hintExpiry (ring seq : Nat) : Statement (.hintExpiry ring seq) := fun h _ hr => inRange h hr
theorem energyAccumulate (parts ctxs : List Nat) : Statement (.energyAccumulate parts ctxs) := fun _ _ h => nothing h
theorem powerMode (ring : Nat) : Statement (.powerMode ring) := fun h _ hr => inRange h hr
theorem energySnapshot (ring : Nat) : Statement (.energySnapshot ring) := fun h _ hr => inRange h hr
theorem portTraining (port : Nat) (lanes : BitVec 8) (ringsLocked : Bool) : Statement (.portTraining port lanes ringsLocked) := fun _ _ h => nothing h
theorem trainingRetry (port : Nat) (lanes : BitVec 8) : Statement (.trainingRetry port lanes) := fun _ _ h => nothing h
theorem hello (port : Nat) (h : Hello) : Statement (.hello port h) := fun _ _ h => nothing h
theorem proof (port : Nat) (p : BitVec 256) : Statement (.proof port p) := fun _ _ h => nothing h
theorem lightRegained (port : Nat) (lanes : BitVec 8) : Statement (.lightRegained port lanes) := fun _ _ h => nothing h
theorem idle (port : Nat) (h : OlpHdr) : Statement (.idle port h) := fun _ _ h => nothing h
theorem replayTimeout (port : Nat) : Statement (.replayTimeout port) := fun _ _ h => nothing h
theorem laneDrop (port lane : Nat) : Statement (.laneDrop port lane) := fun _ _ h => nothing h
theorem data (port : Nat) (h : OlpHdr) (win offset : Nat) (bytes : List Byte) : Statement (.data port h win offset bytes) := fun _ _ h => nothing h
theorem barrier (port : Nat) (h : OlpHdr) (ring bar origin : Nat) (gen : W32) : Statement (.barrier port h ring bar origin gen) := fun _ _ h => nothing h
theorem digest (port : Nat) (h : OlpHdr) (chan block : Nat) (skip : Bool) (d : W64) : Statement (.digest port h chan block skip d) := fun _ _ h => nothing h
theorem heartbeatSend : Statement (.heartbeatSend) := fun _ _ h => nothing h
theorem heartbeat (h : OlpHdr) (b : Heart) : Statement (.heartbeat h b) := fun _ _ h => nothing h
theorem partnerLost : Statement (.partnerLost) := fun _ _ h => nothing h
theorem standbyWaitTimeout : Statement (.standbyWaitTimeout) := fun _ _ h => nothing h
theorem swapTimeout : Statement (.swapTimeout) := fun _ _ h => nothing h
theorem revertTimer : Statement (.revertTimer) := fun _ _ h => nothing h
theorem leavingTimeout : Statement (.leavingTimeout) := fun _ _ h => nothing h
theorem swapDue : Statement (.swapDue) := fun _ _ h => nothing h
theorem swapDeferred : Statement (.swapDeferred) := fun _ _ h => nothing h
theorem pairConfig (ring : Nat) : Statement (.pairConfig ring) := fun h _ hr => inRange h hr
theorem roleSwap (ring : Nat) : Statement (.roleSwap ring) := fun h _ hr => inRange h hr
theorem isolate (ring : Nat) : Statement (.isolate ring) := fun h _ hr => inRange h hr
theorem rejoin (ring : Nat) : Statement (.rejoin ring) := fun h _ hr => inRange h hr
theorem cascadeConfig (ring : Nat) : Statement (.cascadeConfig ring) := fun h _ hr => inRange h hr
theorem cascadeDegraded (port : Nat) : Statement (.cascadeDegraded port) := fun _ _ h => nothing h
theorem windowOpen (ring : Nat) : Statement (.windowOpen ring) := fun h _ hr => inRange h hr
theorem windowClose (ring : Nat) : Statement (.windowClose ring) := fun h _ hr => inRange h hr
theorem linkRetrain (ring : Nat) : Statement (.linkRetrain ring) := fun h _ hr => inRange h hr
theorem verdictFrameSend : Statement (.verdictFrameSend) := fun _ _ h => nothing h
theorem claimFrameIdle : Statement (.claimFrameIdle) := fun _ _ h => nothing h
theorem mergeFrame (input : Nat) (bytes : List Byte) : Statement (.mergeFrame input bytes) := fun _ _ h => nothing h
theorem mergeAgeOut : Statement (.mergeAgeOut) := fun _ _ h => nothing h
theorem mergeEpochReset : Statement (.mergeEpochReset) := fun _ _ h => nothing h
theorem trayLatchN : Statement (.trayLatchN) := fun _ _ h => nothing h
theorem entdaa (addr : Nat) : Statement (.entdaa addr) := fun _ _ h => nothing h
theorem pldmSensorRead (sensor : Nat) : Statement (.pldmSensorRead sensor) := fun _ _ h => nothing h
theorem platformEventMessage : Statement (.platformEventMessage) := fun _ _ h => nothing h
theorem getState : Statement (.getState) := fun _ _ h => nothing h
theorem setCap (watts : Nat) (malformed : Bool) : Statement (.setCap watts malformed) := fun _ _ h => nothing h
theorem mctpArm (r : ArmReq) (malformed : Bool) : Statement (.mctpArm r malformed) := fun _ _ h => nothing h
theorem mctpDisarm (changeId : W32) (malformed : Bool) : Statement (.mctpDisarm changeId malformed) := fun _ _ h => nothing h
theorem setLock (lock : Nat) : Statement (.setLock lock) := fun _ _ h => nothing h
theorem getEvents (first count : Nat) : Statement (.getEvents first count) := fun _ _ h => nothing h
theorem link (h : RelayHdr) (slot : Nat) (serial : W64) : Statement (.link h slot serial) := fun _ _ h => nothing h
theorem linkSend : Statement (.linkSend) := fun _ _ h => nothing h
theorem managerTimeout : Statement (.managerTimeout) := fun _ _ h => nothing h
theorem status (h : RelayHdr) (st : RelayStatus) : Statement (.status h st) := fun _ _ h => nothing h
theorem statusBroadcast : Statement (.statusBroadcast) := fun _ _ h => nothing h
theorem command (h : RelayHdr) (code : Nat) (passed : Bool) : Statement (.command h code passed) := fun _ _ h => nothing h
theorem response (h : RelayHdr) (result : Nat) (ports : List W32) (peers : List W64) : Statement (.response h result ports peers) := fun _ _ h => nothing h
theorem imgOffer (h : RelayHdr) (imageId : W32) (offset : Nat) (bytes : List Byte) : Statement (.imgOffer h imageId offset bytes) := fun _ _ h => nothing h
theorem imgData (h : RelayHdr) (imageId : W32) (offset : Nat) (bytes : List Byte) (a : AonFacts) (f : StartFacts) : Statement (.imgData h imageId offset bytes a f) := fun _ _ h => nothing h
theorem imgAck (h : RelayHdr) (imageId : W32) (index : Nat) : Statement (.imgAck h imageId index) := fun _ _ h => nothing h
theorem imgEnd (h : RelayHdr) (imageId : W32) (abandoned : Bool) : Statement (.imgEnd h imageId abandoned) := fun _ _ h => nothing h
theorem chunkResend (index : Nat) : Statement (.chunkResend index) := fun _ _ h => nothing h
theorem offerPartialDiscard : Statement (.offerPartialDiscard) := fun _ _ h => nothing h
theorem recoveryImageSend (slot : Nat) : Statement (.recoveryImageSend slot) := fun _ _ h => nothing h
theorem imageInject (ring : Nat) (rd : HostRd) : Statement (.imageInject ring rd) := fun h _ hr => inRange h hr
theorem arm (ring : Nat) (rd : HostRd) : Statement (.arm ring rd) := fun h _ hr => inRange h hr
theorem disarm (ring : Nat) : Statement (.disarm ring) := fun h _ hr => inRange h hr
theorem ownerLock (ring : Nat) : Statement (.ownerLock ring) := fun h _ hr => inRange h hr
theorem svnCommit (ring : Nat) : Statement (.svnCommit ring) := fun h _ hr => inRange h hr
theorem eventRead (ring : Nat) : Statement (.eventRead ring) := fun h _ hr => inRange h hr
theorem armExpiry : Statement (.armExpiry) := fun _ _ h => nothing h
theorem actStrobe (a : AonFacts) (f : StartFacts) : Statement (.actStrobe a f) := fun _ _ h => nothing h
theorem reserveOk (high : Bool) : Statement (.reserveOk high) := fun _ _ h => nothing h
theorem accelerometerShock (milliG : Nat) (roll pitch : Int) : Statement (.accelerometerShock milliG roll pitch) := fun _ _ h => nothing h
theorem movingExpiry : Statement (.movingExpiry) := fun _ _ h => nothing h
theorem castN (lowNanos : Nat) : Statement (.castN lowNanos) := fun _ _ h => nothing h
theorem castFreeze : Statement (.castFreeze) := fun _ _ h => nothing h
theorem castRelease : Statement (.castRelease) := fun _ _ h => nothing h
theorem castAddr (v : BitVec 48) : Statement (.castAddr v) := fun _ _ h => nothing h
theorem castData : Statement (.castData) := fun _ _ h => nothing h
theorem extest (cells : BitVec 32) : Statement (.extest cells) := fun _ _ h => nothing h
theorem idcode : Statement (.idcode) := fun _ _ h => nothing h
theorem samplePreload (cells : BitVec 32) : Statement (.samplePreload cells) := fun _ _ h => nothing h
theorem bypass (code : BitVec 8) : Statement (.bypass code) := fun _ _ h => nothing h
theorem tapReset : Statement (.tapReset) := fun _ _ h => nothing h
theorem monCntSelWrite (i : Nat) (v : W32) : Statement (.monCntSelWrite i v) := fun _ _ h => nothing h
theorem clearAll : Statement (.clearAll) := fun _ _ h => nothing h
theorem countEn (on : Bool) : Statement (.countEn on) := fun _ _ h => nothing h
theorem histFreeze (on : Bool) : Statement (.histFreeze on) := fun _ _ h => nothing h
theorem compat (v : BitVec 16) : Statement (.compat v) := fun _ _ h => nothing h
theorem monBwWindowWrite (v : W32) : Statement (.monBwWindowWrite v) := fun _ _ h => nothing h
theorem bwWindowEnd : Statement (.bwWindowEnd) := fun _ _ h => nothing h
theorem monHistCfgWrite (h : Nat) (v : W64) : Statement (.monHistCfgWrite h v) := fun _ _ h => nothing h
theorem traceRecord : Statement (.traceRecord) := fun _ _ h => nothing h
theorem latchClosed (f : StartFacts) : Statement (.latchClosed f) := fun _ _ h => nothing h
theorem mergeLinePin (input line : Nat) (high : Bool) : Statement (.mergeLinePin input line high) := fun _ _ h => nothing h
theorem cascadeTakeoverFlag (port : Nat) (h : OlpHdr) : Statement (.cascadeTakeoverFlag port h) := fun _ _ h => nothing h
theorem dmaTimeout (ring seq written : Nat) : Statement (.dmaTimeout ring seq written) := fun h _ hr => inRange h hr
theorem aonPowerLoss : Statement (.aonPowerLoss) := fun _ _ h => nothing h
theorem freshDraw : Statement (.freshDraw) := fun _ _ h => nothing h
theorem digestBlockTimeout (chan block : Nat) : Statement (.digestBlockTimeout chan block) := fun _ _ h => nothing h
theorem restartCondition (f : StartFacts) : Statement (.restartCondition f) := fun _ _ h => nothing h
theorem msixUnmask (fn vector : Nat) : Statement (.msixUnmask fn vector) := fun _ _ h => nothing h

end Sys2Proof.Laws.RingNumber
end

