-- ==== Sys2Proof/Tests/Slice0.lean ====
section
/-! SUPPORT. Tests: small states, the witnesses that meet the hypotheses of the statements, ill-formed commands refused, and
small steps. One theorem, or a few, per statement with hypotheses: wit_<Name> for Obligations.<Name>; a statement's clauses
are met in the order in which it has them. -/

open Sys2Proof Sys2Proof.Machine

namespace Sys2Proof.Tests

set_option Elab.async false

/-! ## Small states -/

/-- A descriptor from its fields: byte offset and value. -/
def desc (fs : List (Nat × Nat)) : Desc := BitVec.ofNat 512 (fs.map fun p => p.2 * 256 ^ p.1).sum

/-- A fetched descriptor of sequence number 0 whose header passed. -/
def item (fs : List (Nat × Nat)) : Fetched := { seq := 0, desc := desc fs, header := none, aborted := false }

/-- The always-on domain up with its core rails, as after READY. -/
def aon : Aon :=
  { rails := true, input := true, core := true, level := .pedestal, holdupOk := true, fresh := true, latch := true, secDone := true
    trained := 0xFFF }

/-- A module in phase READY with PD_HCX and its memory channels ON and the data link up. -/
def base : State :=
  let s : State := { State.reset with aon := aon }
  let s := ((s.setReg GLB_PWR_DOMAIN_STATUS2 0x800FFF00).setBit HIF_STATUS HIF_STATUS_LINK_UP true).setBit HIF_STATUS HIF_STATUS_READY true
  (((s.setPhase phReady).setBit SEC_STATUS SEC_STATUS_RNG_OK true).setBit SEC_STATUS SEC_STATUS_READY true).setReg MGT_UPTIME 4000000000

/-- The same module with one descriptor at the head of a ring. -/
def onRing (s : State) (r : Nat) (fs : List (Nat × Nat)) : State :=
  s.setRing r { exists_ := true, enabled := true, tail := 1, head := 1, queue := [item fs] }

/-- What State.DescAt and State.alone ask, as a test. -/
def atHead (s : State) (r cls op : Nat) (f : Fetched) : Bool :=
  s.aon.core && !s.aon.cast.frozen && s.linkUp && !(s.ring r).mute && decide (s.headOf r cls = some f) && decide (dF f.desc 8 1 = op) &&
    !(s.isolates cls) && decide (s.hif.works = []) && (s.hif.rings.all fun p => !p.2.closing) && decide ((s.ring r).queue = [f])

theorem atHead_sound (s : State) (r cls op : Nat) (f : Fetched) (h : atHead s r cls op f = true) :
    s.DescAt r cls op f ∧ s.idle ∧ s.alone r f := by
  simp only [atHead, Bool.and_eq_true, decide_eq_true_eq, Bool.not_eq_true', List.all_eq_true, and_assoc] at h
  obtain ⟨core, thawed, link, heard, head, opIs, serves, works, rings, queue⟩ := h
  have still : s.idle := ⟨works, rings⟩
  exact ⟨⟨⟨core, thawed⟩, link, heard, head, opIs, serves⟩, still, still, queue⟩

/-- A frozen module. -/
def frozen : State := { base with aon := { aon with cast := { frozen := true } } }

theorem test_base : base.acts ∧ base.live ∧ base.reaches ∧ base.reachesCore ∧ base.idle ∧ base.noLaunch ∧ base.setupLocked = false := by
  simp only [State.reaches, State.reachesCore, State.live, State.acts, State.idle, State.noLaunch]
  decide +kernel

/-! ## Witnesses: states and operands that meet the hypotheses of the statements, by statement -/

theorem wit_IdleStepTicks : base.pending = [] ∧ base.live ∧ frozen.aon.cast.frozen = true ∧ State.reset.aon.rails = false := by
  simp only [State.live]; decide +kernel

/-- A state that meets both invariants of StepKeepsMemories and StepKeepsLines, with a command in front. -/
theorem wit_StepKeeps : base.memoriesOk ∧ base.linesShown ∧ stepsTo { base with pending := [.startPermitWithdrawn] }
    (match step { base with pending := [.startPermitWithdrawn] } with | .next t => t | _ => base) := by
  simp only [State.memoriesOk, State.linesShown]
  exact ⟨by decide +kernel, by decide +kernel, rfl⟩

theorem wit_CommandsKeepQueue : ∃ t, exec .getState base = .next t := ⟨_, rfl⟩

theorem wit_FreezeHoldsState : frozen.aon.cast.frozen = true ∧ outlivesFreeze .clearAll = false ∧ outlivesFreeze .castData = true := by
  decide +kernel

/-- A module whose registers the physical function reaches. -/
theorem wit_SetupLockSets : base.reaches := test_base.2.2.1

/-- What RegisterWriteFields asks of an offset and a state. -/
def writable (s : State) (off : Nat) : Bool :=
  match regFind off, blockAt off with
  | some r, some (b, _) => decide (off < 0x4000000) && decide (regCover off = some (off, r)) && accessFits off r.width && s.blockOn b &&
      plainReg b off
  | _, _ => false

/-- The setup lock set. -/
def lockedBase : State := base.setBit GLB_SETUP_LOCK GLB_SETUP_LOCK_LOCK true

/-- RW, RW1C and RO fields; RWL fields with the lock clear and set; the last register of an array. -/
theorem wit_RegisterWriteFields : base.reaches ∧ lockedBase.reaches ∧ lockedBase.setupLocked = true ∧
    ([HIF_ERR_STATUS, KVP_WALK_POLICY, HIF_CTRL, GLB_ERR_ADDR, GLB_ERR_STATUS].all fun o => writable base o && writable lockedBase o) := by
  simp only [State.reaches, State.live]; decide +kernel

/-- A hole of the map at its last word, a 64-bit access of a 32-bit register, and a tile that is OFF. -/
theorem wit_RegisterAccessErrors : base.reaches ∧ regCover 0x3FFFFFC = none ∧ accessFits GLB_ID 64 = false ∧
    accessFits (TILE_STATUS 63) 32 = true ∧ (regCover (TILE_STATUS 63)).isSome = true ∧ base.blockOn (.tile 63) = false := by
  simp only [State.reaches, State.live]; decide +kernel

/-- What the AON start finds, good; and a start that passes. -/
def goodImage : ImageFacts :=
  { magicOk := true, rootOk := true, componentsOk := true, signaturesOk := true, svns := [], imageId := 7, settingsVersion := 3, digests := [] }
def goodAon : AonFacts := { slotPins := 5, loaderOk := true, holdupOk := true, image := goodImage }
def goodStart : StartFacts := { katOk := true, rngOk := true, certOk := true, microcodeOk := true }

/-- The always-on domain without power, and up but not started; bad and good images. -/
theorem wit_AonStartPhases : State.reset.aon.cast.frozen = false ∧ State.reset.aonIdle = true ∧ State.reset.aon.permit = false ∧
    State.reset.imageOk (State.reset.imageFacts goodImage) = true ∧
    State.reset.imageOk (State.reset.imageFacts { goodImage with magicOk := false }) = false := by decide +kernel

/-- WAIT_PERMIT: the always-on domain up, the core rails down, START_FAIL by choice, input there or not. -/
def waiting (fail : Nat) (input : Bool) : State :=
  (({ State.reset with aon := { aon with core := false, input := input } }).setPhase phWaitPermit).setStartFail fail

theorem wit_InputComesAndGoes : (waiting sfHoldupLow true).live ∧ (waiting sfHoldupLow true).aon.permit = false ∧
    (waiting sfHoldupLow true).phase = phWaitPermit ∧ (waiting sfHoldupLow true).fld MGT_STATE MGT_STATE_START_FAIL = sfHoldupLow ∧
    (waiting 0 false).live ∧ (waiting 0 false).aon.input = false ∧ (waiting 0 false).aon.level = .pedestal ∧ base.aon.input = true := by
  simp only [State.live]; decide +kernel

theorem wit_PowerLossAndTrip : base.aon.rails = true ∧ base.live ∧ 84 < 85 := by simp only [State.live]; decide +kernel

/-- The module waits for the permit; for the latch with the permit there; and for the restart condition. -/
theorem wit_StartPermitActs :
    let s := waiting 0 true
    let u : State := { s with aon := { s.aon with permit := true, latch := false } }
    let v : State := { s with aon := { s.aon with permit := true, restartHeld := true } }
    s.live ∧ s.waitsForPermit ∧ s.aon.latch = true ∧ s.aon.permit = false ∧ u.live ∧ u.waitsForPermit ∧ u.aon.fresh = true ∧
      v.live ∧ v.aon.restartHeld = true ∧ v.aon.latch = true ∧ v.aon.fresh = true ∧
      State.waitsForPermit { v with aon := { v.aon with restartHeld := false } } := by
  simp only [State.live, State.waitsForPermit]; decide +kernel

/-- Phase STARTING before and after training; the link narrow or not. -/
def starting (trained : BitVec 12) : State := ({ base with aon := { aon with trained := trained } }).setPhase phStarting

theorem wit_StartSequenceEnds : (starting 0).acts ∧ (starting 0).phase = phStarting ∧ (starting 0).isOn .hcx = true ∧
    (starting 0).aon.trained = 0 ∧ (starting 0xFFF).acts ∧ (starting 0xFFF).phase = phStarting ∧ (starting 0xFFF).aon.secDone = true ∧
    (starting 0xFFF).role = roleSolo ∧ (starting 0xFFF).bit HIF_STATUS HIF_STATUS_NARROW = false ∧
    ((starting 0xFFF).setBit HIF_STATUS HIF_STATUS_NARROW true).bit HIF_STATUS HIF_STATUS_NARROW = true := by
  simp only [State.acts]; decide +kernel

/-- A channel that may go OFF and PD_HCX that may not; a hub that may come ON and a tile that may not. -/
theorem wit_DomainSwitches : base.live ∧ base.noLaunch ∧ base.aon.level = .pedestal ∧ domValid (.mem 11) = true ∧ base.isOn (.mem 11) = true ∧
    base.mayPowerOff (.mem 11) = true ∧ base.isOn .hcx = true ∧ base.mayPowerOff .hcx = false ∧ base.isOn (.hub 7) = false ∧
    base.mayPowerOn (.hub 7) = true ∧ base.isOn (.tile 63) = false ∧ base.mayPowerOn (.tile 63) = false := by
  simp only [State.live, State.noLaunch]; decide +kernel

/-- A module on its way out of service. -/
def leaving (why : LeaveFor) : State :=
  (({ base with pair := { leaving := some why } }).setFld OLP_ROLE OLP_ROLE_ROLE roleActive).setFld OLP_PAIR OLP_PAIR_PAIRED 1

theorem wit_ServiceLeft :
    let p := { base.setBit PWR_SHUTDOWN PWR_SHUTDOWN_PENDING true with pwr := { base.pwr with stopAt := 4000000001, inletHot := true } }
    let q := { p with pwr := { p.pwr with stopAt := 4000000000 } }
    base.live ∧ base.aon.core = true ∧ base.servesPair = false ∧ base.hif.works = [] ∧ base.pair.leaving = none ∧ base.pair.held = [] ∧
      base.bit PWR_SHUTDOWN PWR_SHUTDOWN_SHUTTING = false ∧ (starting 0).phase = phStarting ∧ base.phase ≠ phStarting ∧
      p.live ∧ p.bit PWR_SHUTDOWN PWR_SHUTDOWN_PENDING = true ∧ p.now < p.pwr.stopAt ∧ p.pwr.stopAt ≤ p.now + 655350000 ∧
      q.pwr.stopAt ≤ q.now ∧ p.pwr.inletHot = true ∧ p.pwr.inletOkAt + 10000000 ≤ p.now ∧
      (waiting 0 true).live ∧ (waiting 0 true).aon.core = false ∧
      (∀ why ∈ [LeaveFor.pcie, .ue], (leaving why).acts ∧ (leaving why).pair.leaving = some why ∧
        (leaving why).pair.leaveAt + 500 ≤ (leaving why).now ∧ (leaving why).hif.works = [] ∧ (leaving why).pair.swap = none ∧
        (leaving why).servesPair = true) := by
  simp only [State.live, State.acts]; decide +kernel

theorem wit_CastFreeze : base.live ∧ frozen.aon.rails = true ∧ frozen.aon.cast.frozen = true := by
  simp only [State.live]; decide +kernel

/-- A code that selects BYPASS; EXTEST acts before the start and in a freeze, and not in phase READY. -/
theorem wit_TapPort : base.aon.rails = true ∧ selectsBypass 0xFF = true ∧ (waiting 0 true).extestActs = true ∧ base.extestActs = false ∧
    frozen.aon.cast.frozen = true ∧ base.aon.cast.frozen = false ∧ 6 ≤ (0x600000000000#48).toNat / 2 ^ 44 := by decide +kernel

theorem wit_MonBlock :
    let e : TraceEv := { kind := 7, ctx := 0, ring := 0, seq := 0, tag := 0, arg := 0 }
    let h := base.setBit (MON_HIST_CFG 7) MON_HIST_CFG_ENABLE true
    let t := (base.setBit MON_TRACE_CTRL MON_TRACE_CTRL_ENABLE true).setFld MON_TRACE_CTRL MON_TRACE_CTRL_SOURCES 0xFF
    let q : State := { (t.setBit MON_TRACE_CTRL MON_TRACE_CTRL_STOP_FULL true) with mon := { trace := [e] } }
    let full := q.setFld MON_TRACE_HEAD MON_TRACE_HEAD_WRITTEN (2 ^ q.fld MON_TRACE_CTRL MON_TRACE_CTRL_LOG2_RECORDS)
    base.reachesCore ∧ base.setupLocked = false ∧ selectOk 0x20 = true ∧ selectOk 0xFFFF = false ∧
      base.bit MON_CTRL MON_CTRL_CLEAR_ALL = false ∧ base.bit (MON_CNT_SEL 15) MON_CNT_SEL_CTX_EN = false ∧
      base.bit (MON_HIST_CFG 7) MON_HIST_CFG_ENABLE = false ∧ h.reachesCore ∧ h.bit (MON_HIST_CFG 7) MON_HIST_CFG_ENABLE = true ∧
      putBits (histWord 0x20000) MON_HIST_CFG_ENABLE 1 ≠ h.reg (MON_HIST_CFG 7) ∧ t.reachesCore ∧
      t.bit MON_TRACE_CTRL MON_TRACE_CTRL_ENABLE = true ∧ t.maskBit MON_TRACE_CTRL MON_TRACE_CTRL_SOURCES 7 = true ∧
      t.mon.trace.length < 64 ∧ 64 ≤ (List.replicate 64 e).length ∧ base.mon.bwAt + base.windowUs ≤ base.now ∧
      q.reachesCore ∧ q.mon.trace = [e] ∧ full.bit MON_TRACE_CTRL MON_TRACE_CTRL_STOP_FULL = true ∧
      (full.fld MON_TRACE_HEAD MON_TRACE_HEAD_WRITTEN + 2 ^ 32 - full.fld MON_TRACE_TAIL MON_TRACE_TAIL_READ) % 2 ^ 32 =
        2 ^ full.fld MON_TRACE_CTRL MON_TRACE_CTRL_LOG2_RECORDS ∧
      (q.fld MON_TRACE_HEAD MON_TRACE_HEAD_WRITTEN + 2 ^ 32 - q.fld MON_TRACE_TAIL MON_TRACE_TAIL_READ) % 2 ^ 32 ≠
        2 ^ q.fld MON_TRACE_CTRL MON_TRACE_CTRL_LOG2_RECORDS := by
  simp only [State.reachesCore, State.acts]; decide +kernel

/-- Half way between two integers, both signs, and beyond the range. -/
theorem wit_IntegerConversion : (Fmt.int8, (-128 : Int), (127 : Int)) ∈
    [(Fmt.int8, -128, 127), (.uint8, 0, 255), (.int4, -8, 7), (.uint4, 0, 15), (.int32, -2147483648, 2147483647)] ∧
    (toElem .int8 true (.fin false 5 (-1))).1 = 2 ∧ (toElem .int8 true (.fin false 7 (-1))).1 = 4 ∧
    (toElem .int8 true (.fin true 1 9)).1 = 0x80 := by decide +kernel

/-! ### Kernels, Pointing Engines, banks and Set Engines -/

/-- Context 1 with a grant of 16 MiB, current on partition 0, whose one cluster is 0; its DRAM is under its key. -/
def ctx1 : State :=
  let s := base.setPart 0 { clusters := 1, ctxMask := 2, slice := 1, current := some 1 }
  let s := s.setCtx 1 { s.ctx 1 with grants := [(0, (0, 0x1000000))] }
  { s with mem := { s.mem with dramKey := [{ lo := 0, hi := 0x1000000, key := (s.ctx 1).nonce }] } }

/-- An entry that asks for nothing, one that holds sequence 9, and their objects. -/
def plainEntry : EntryDecl := { slots := [], engines := 0, banks := 0, hub := false, conv := false, steps := [], barriers := [.kernel] }
def obj (e : EntryDecl) : ObjFacts := { signed := true, wrapper := .openCode, version := 1, digest := 0, entries := [e], model := none }

/-- KERNEL descriptors of version 1 on one tile: whole, with a TILE_COUNT of 3, and with an unknown object's entry missing. -/
def kernelFs (tiles : Nat) : List (Nat × Nat) := [(0, 1), (2, 1), (4, 77), (8, 0x2000), (16, 4096), (22, tiles), (23, 0xFF), (24, 0xF), (32, 0x1000)]

/-- The early and late checks as KernelAdmits names them. -/
def early (s : State) (f : Fetched) (o : ObjFacts) : Option Nat :=
  firstFail (s.kernelChecks 1 f (s.objFacts 1 f.desc o) (s.objHit 1 (kObjAddr f.desc) (kObjLen f.desc)).isSome [])
def late (s : State) (f : Fetched) (o : ObjFacts) : Option Nat := firstFail (s.kernelLate 1 f (s.objFacts 1 f.desc o) [] [] [])

/-- A KERNEL work of ring 128, descriptor 0, waiting for its claim, with an entry of one kernel barrier. -/
def kernelWaits : Work :=
  { mkWork 128 (item (kernelFs 1)) 0 .waiting with kern := some { obj := obj plainEntry, entry := plainEntry, args := [] } }
def kernelOn : Work := { kernelWaits with stage := .running, phase := .running, tiles := [0, 1], hubs := [0], banks := [0, 1] }

/-- It runs on tiles 0 and 1 of cluster 0. -/
def kernelState (w : Work) : State :=
  let s := { ctx1 with hif := { ctx1.hif with works := [w] } }
  let s := ((s.setTile 0 { claim := some (128, 0) }).setTile 1 { claim := some (128, 0) }).setReg GLB_PWR_DOMAIN_STATUS0 3
  ((s.setOn (.hub 0) true).setBit (TILE_STATUS 0) TILE_STATUS_RUNNING true).setHub 0 { claim := some (128, 0), waves := [[(0, 3)]] }

/-- What State.kernelRuns and State.hears ask, as a test. -/
def runsB (s : State) (w : Work) : Bool :=
  s.aon.core && !s.aon.cast.frozen && decide (s.work? w.ring w.seq = some w) && w.stage == .running && w.kern.isSome &&
    (w.tiles.all fun t => decide (t < 64)) && (w.hubs.all fun t => decide (t < 8)) && (w.banks.all fun t => decide (t < 512)) &&
    s.linkUp && !(s.ring w.ring).mute

theorem wit_KernelAdmits :
    let f := item (kernelFs 1)
    let s := onRing ctx1 128 (kernelFs 1)
    let iso := s.setFld OLP_ROLE OLP_ROLE_ROLE roleIsolated
    let g := kernelState kernelWaits
    let g := { g with arr := {} }
    s.mem.bad = [] ∧ (∀ q ∈ entryKv plainEntry, (s.seq q.seqId).holds < 255) ∧ atHead s 128 clKernel 0 f = true ∧ atHead (onRing ctx1 128 (kernelFs 3)) 128 clKernel 0 (item (kernelFs 3)) = true ∧ ringCtx 128 = some 1 ∧
      early ctx1 (item (kernelFs 3)) (obj plainEntry) = some stBadDescriptor ∧ early s f (obj plainEntry) = none ∧
      late s f { obj plainEntry with entries := [] } = some stBadDescriptor ∧ late s f (obj plainEntry) = none ∧
      s.roleGated 1 = false ∧ iso.roleGated 1 = true ∧ early iso f (obj plainEntry) = none ∧
      (g.part 0).current = some 1 ∧ (g.part 0).switching = false ∧ g.gateClosed = false ∧ g.sentPart 0 = false ∧ g.barred 0 = false ∧
      (g.firstGrant 0 1 [] (g.waitingClaims 1)).isSome = true ∧ g.bankPwr 0 ≠ pwrOn := by decide +kernel

/-- A running kernel: a wave that waits, a barrier with another tile and without one, a missing line, and its record's ring. -/
theorem wit_KernelRuns :
    let one : Work := { kernelOn with tiles := [0] }
    let s := kernelState kernelOn
    runsB s kernelOn = true ∧ runsB (kernelState one) one = true ∧ (s.hub 0).waves = [[(0, 3)]] ∧
      s.bit (TILE_STATUS 0) TILE_STATUS_RUNNING = true ∧ plainEntry.barriers[0]? = some .kernel ∧ 0 ∈ kernelOn.tiles ∧
      (kernelOn.kern.map KernelWork.barriers) = some [] ∧ s.tileWork 1 = some kernelOn ∧ 0 ∉ (s.tile 1).lines ∧ 0 * 4096 < kObjLen kernelOn.desc ∧
      (kernelOn.kern.map KernelWork.layer) = some [] ∧ (kernelOn.kern.bind (s.convRefused kernelOn)) = none ∧
      (kernelOn.kern.bind (s.convReadFails kernelOn)).isNone = true ∧ kernelOn.late s.now (dF kernelOn.desc 28 4) = true := by decide +kernel

/-- A RESIZE_NEAREST kernel that reads a map of one pixel in DRAM: the line is bad, or it lies beyond the grant. -/
def convOn (addr : Nat) : Work :=
  let slot := fun a : Nat => ({ addr := a, len := 64, fmt := 0, space := 0, dir := 0 } : ArgSlot)
  { kernelOn with kern := kernelOn.kern.map fun k => { k with layer := leBytes 64 (5 + 256 ^ 4 + 256 ^ 6 + 256 ^ 8 + 64 * 256 ^ 10 + 2 * 256 ^ 28), args := (List.range 5).map fun _ => slot addr } }

theorem wit_KernelRuns_conv :
    let bad := kernelState (convOn 0x4000)
    let bad : State := { bad with mem := { bad.mem with bad := [0x4000 / 64] } }
    let far := kernelState (convOn 0x1000000)
    runsB bad (convOn 0x4000) = true ∧ ((convOn 0x4000).kern.bind (bad.convReadFails (convOn 0x4000))).isSome = true ∧
      runsB far (convOn 0x1000000) = true ∧ ((convOn 0x1000000).kern.bind (far.convReadFails (convOn 0x1000000))).isNone = true ∧
      ((convOn 0x1000000).kern.bind (far.convRefused (convOn 0x1000000))).isSome = true := by decide +kernel

/-- A queue of tile 0 by its type, of 16 entries at the start of bank 0, with one consumer; its next step; and a request in
flight. -/
def decl (kind : Nat) : QueueDecl :=
  { q := 7, kind := kind, depthLog2 := 4, users := 1, stageBank := 0, stageAt := 0, len := 8, indexLen := 8, rows := 8, lastRow := 7 }
def queueOf (kind : Nat) : PeQueue := { decl := decl kind }
def flight (use : PeUse) : PeOut := { q := 7, addr := 0x4000, use := use, n := 1, at_ := 0 }
def peState (x : PeQueue) (out : List PeOut) : State :=
  ((kernelState kernelOn).setTile 0 { claim := some (128, 0), queues := [(7, x)], inFlight := out }).setFld
    (PE_STATUS 0) PE_STATUS_OUTSTANDING out.length

/-- Each step of a stream, and what holds a read back: a mark, no free slot, the limit, an outstanding write, a granule beyond
the grant; the last granule within it. -/
theorem wit_PeQueueAccess :
    let x := queueOf 0
    let s := peState x []
    let pushed := fun kind : Nat => { queueOf kind with seen := [(0, 1)] }
    let list := fun v : W32 => { queueOf 2 with indices := [(0, v)] }
    runsB s kernelOn = true ∧ kernelOn.attn = none ∧ s.tileWork 0 = some kernelOn ∧ tabGet? (s.tile 0).queues 7 = some x ∧
      s.fld (PE_STATUS 0) PE_STATUS_OUTSTANDING = (s.tile 0).inFlight.length ∧ queueWrites x.decl = false ∧ x.next = .granule 0 8 0 ∧
      s.unmarked 0 { x with decl := { x.decl with marks := [{ entry := 0, bar := 0, uses := 1 }] } } 1 = 0 ∧ s.unmarked 0 x 1 = 1 ∧
      x.room = 16 ∧ { x with issued := 16 }.room < 1 ∧ s.peFull 0 = false ∧
      (peState x (List.replicate 256 (flight .fill))).peFull 0 = true ∧
      (peState x (List.replicate 256 (flight .fill))).fld (PE_STATUS 0) PE_STATUS_OUTSTANDING = 256 ∧
      (peState x [flight (.store [])]).storing 0 0x4000 = true ∧ s.storing 0 0 = false ∧
      s.peRefused kernelOn 0x1000000 64 false = some false ∧ s.peRefused kernelOn 0xFFFFC0 64 false = none ∧
      (queueOf 2).next = .index false 0 ∧ (queueOf 3).next = .index true 0 ∧ (pushed 8).next = .granule 0 8 0 ∧
      (pushed 8).issued < (pushed 8).common ∧ s.bankFails [(slotAddr 0 (decl 8) 0, 64)] = none ∧
      s.peRefused kernelOn 0x1000000 64 true = some false ∧ s.peRefused kernelOn 0xFFFFC0 64 true = none ∧
      (list padIndex).next = .pad 0 ∧ ({ pushed 7 with indices := [(0, padIndex)] } : PeQueue).next = .pad 0 ∧
      queueWrites (decl 7) = true ∧ (decl 7).stageAt + 64 * 2 ^ (decl 7).depthLog2 ≤ 0x100000 ∧ (list 7).next = .granule 7 1 0 ∧
      (list 8).next = .range 8 ∧ ({ queueOf 3 with ptrs := [(0, 2), (1, 1)] } : PeQueue).next = .skip true ∧ s.hears 128 := by
  simp only [State.hears]; decide +kernel

/-- A read that returns to a free bank, a write that is accepted, and a hub in fall-back mode. -/
theorem wit_PeQueueAccess_returns :
    let s := (peState (queueOf 0) [flight .fill]).setFld (bankState 0) BANK_STATE_PWR_STATE pwrOn
    let w := peState (queueOf 8) [flight (.store (List.replicate 64 7))]
    runsB s kernelOn = true ∧ (s.tile 0).inFlight.find? (fun y => y.q == 7 && y.left.isNone) = some (flight .fill) ∧
      s.badLine 0x4000 64 = none ∧ s.bankFree (bankOf (slotAddr 0 (decl 0) 0)) = true ∧ s.bankHandover 0 = false ∧
      oldestStore (w.tile 0).inFlight 0x4000 = some (flight (.store (List.replicate 64 7))) ∧ (flight .fill).use.reads = true ∧
      (s.setFld HIF_CTRL HIF_CTRL_UE_LIMIT 0).fld HIF_CTRL HIF_CTRL_UE_LIMIT = 0 ∧
      (s.setBit (WALK_STATUS 7) WALK_STATUS_FALLBACK true).inFallback 7 = true := by decide +kernel

/-- Bank 511: owned by context 31 or none, ON or not, with a handover under way, waking, clearing, or with an access out. -/
def bank (owner : Option Nat) (pwr : Nat) : State :=
  let s := base.setFld (bankState 511) BANK_STATE_PWR_STATE pwr
  match owner with
  | some c => (s.setBit (bankOwner 511) BANK_OWNER_VALID true).setFld (bankOwner 511) BANK_OWNER_CTX c
  | none => s
def handing (owner : Option Nat) (pend : Option Nat) : State :=
  let s := (bank owner pwrOn).setBit (bankOwner 511) BANK_OWNER_HANDOVER true
  match pend with
  | some c => (s.setBit (bankOwner 511) BANK_OWNER_PEND_VALID true).setFld (bankOwner 511) BANK_OWNER_PEND_CTX c
  | none => s

theorem wit_BankPower :
    let b := bank (some 31) pwrOn
    let dirty := (bank none pwrOn).setBit (bankOwner 511) BANK_OWNER_CLEAN false
    let busy := b.setBank 511 { outstanding := 1 }
    let v : BankWait := { req := { who := .vector, ctx := 31, addr := 511 * 0x100000, len := 64, write := none }, since := 0, passed := true }
    let drains := ((handing none (some 31)).setBank 511 { waiting := [v] })
    let waking := (bank none pwrOff).setBit (bankState 511) BANK_STATE_WAKING true
    let clearing := (bank none pwrOn).setBit (bankState 511) BANK_STATE_CLEARING true
    let claimed := kernelState kernelOn
    b.bankHandover 511 = false ∧ b.bankWork 511 = none ∧ (busy.bankSt 511).quiet = false ∧ (b.bankSt 511).quiet = true ∧
      drains.bankHandover 511 = true ∧ (drains.bankSt 511).waiting = [v] ∧ v.rest = none ∧ bankOf v.req.addr = 511 ∧
      drains.bankPwr 511 = pwrOn ∧ (drains.bankSt 511).outstanding = 0 ∧ drains.reqFails 511 v.req = false ∧
      drains.bankOwnerSeen 511 = some 31 ∧ drains.needsClear 511 31 = false ∧ (drains.tile 63).queues = [] ∧ (bank none pwrOff).bankPwr 511 ≠ pwrOn ∧ b.bankPwr 511 = pwrOn ∧
      b.bankClearing 511 = false ∧ b.needsClear 511 31 = false ∧ dirty.needsClear 511 31 = true ∧
      claimed.bankHandover 1 = false ∧ claimed.bankWork 1 = some kernelOn ∧
      (handing (some 0) none).bankHandover 511 = true ∧ (handing (some 0) none).bankOwnerSeen 511 = none ∧
      (handing none (some 31)).bankOwnerSeen 511 = some 31 ∧ (handing none (some 31)).needsClear 511 31 = false ∧
      waking.bit (bankState 511) BANK_STATE_WAKING = true ∧ (waking.setOn (.tile 63) true).isOn (.tile 63) = true ∧
      waking.bankHandover 511 = false ∧ clearing.bankClearing 511 = true ∧
      b.bankValid 511 = true ∧ 511 ∉ b.heldBanks ∧ b.bankOfSentinel 511 = false ∧
      b.fld (BANK_PWR_POLICY 63) BANK_PWR_POLICY_IDLE_RET_US ≠ 0 ∧
      (b.bankSt 511).lastAccess + b.fld (BANK_PWR_POLICY 63) BANK_PWR_POLICY_IDLE_RET_US ≤ b.now ∧ lockedBase.setupLocked = true := by
  decide +kernel

/-- Bank 0 of the running kernel, owned by its context and ON, or owned by another. -/
def kernelBank (owner : Nat) : State :=
  let s := (kernelState kernelOn).setFld (bankState 0) BANK_STATE_PWR_STATE pwrOn
  (s.setBit (bankOwner 0) BANK_OWNER_VALID true).setFld (bankOwner 0) BANK_OWNER_CTX owner
def bankReq (w : Option (List Byte)) : BankReq := { who := .vector, ctx := 1, addr := 0xFFF80, len := 64, write := w }

/-- A request of one word and one that crosses into the next, a group that is read, and a bank of another context. -/
theorem wit_BankAccess :
    let s := kernelBank 1
    let bs : List Byte := List.replicate 64 7
    let r := bankReq none
    let far := kernelBank 2
    s.acts ∧ (∀ w ∈ s.hif.works, w.stage ≠ .launching) ∧ bankOf r.addr = 0 ∧ (s.bankSt 0).clock < 1 ∧ (s.bankSt 0).waiting = [] ∧
      (s.bankSt 0).rmwAt = none ∧ s.bankHandover 0 = false ∧ s.reqGated 0 .vector = false ∧ s.queueHolds 0 .vector r.addr false = false ∧
      (∀ p ∈ (s.tile 0).queues, p.1 < 8) ∧ s.bankFate 0 r = .pass ∧ s.bankFate 0 (bankReq (some bs)) = .pass ∧ s.bankServes 0 = true ∧
      s.reqFails 0 r = false ∧ ({ req := r, since := 1, passed := true } : BankWait).rest = none ∧
      ({ req := { r with addr := 0xFFF81 }, since := 1, passed := true } : BankWait).rest.isSome = true ∧
      reqReads r (8 * reqWord r + 7) = true ∧ s.reqWork 0 .vector = some kernelOn ∧ far.bankFate 0 r = .deny ∧
      far.reqWork 0 .vector = some kernelOn ∧ kernelOn.cls = clKernel ∧ kernelOn.attn = none ∧ runsB far kernelOn = true ∧
      far.bit (TILE_ERR_STATUS 0) TILE_ERR_STATUS_BANK_DENIED = false := by
  simp only [State.acts]; decide +kernel

/-- Sort four pairs within bank 0, and a destination outside the kernel's banks. -/
def setCmd (dst : Nat) : SetCmd :=
  { op := 1, keyType := 0, flags := 0, redOp := 0, nA := 4, nB := 0, k := 0, thresh := 0, srcA := 0, srcB := 0x100, dst := dst }
def setQueued : SetQueued := { cmd := setCmd 0x200, owner := (128, 0), tile := some 0 }

theorem wit_SetEngineRuns :
    let s := kernelState kernelOn
    let mine := kernelOn.banks.filter fun g => g / 64 == 0
    runsB s kernelOn = true ∧ s.tileWork 0 = some kernelOn ∧ 0 ∈ kernelOn.hubs ∧ setCmdOk (setCmd 0x200) = true ∧
      inBanks mine 0 (setBytesA 1 4) = true ∧ inBanks mine 0x100 (max (setBytesB 1 0) (setScratch 1 4 0)) = true ∧
      inBanks mine 0x200 (setBytesDst 1 4 0 0) = true ∧ inBanks mine 0x200000 (setBytesDst 1 4 0 0) = false ∧
      (s.hub 0).setRunning = none ∧ (List.replicate 16 setQueued).length = 16 ∧
      ((s.setHub 0 { setRunning := some setQueued, setQueue := List.replicate 16 setQueued }).hub 0).setRunning = some setQueued := by
  decide +kernel

/-- SORT descriptors of four keys in DRAM, whole and with a key type of 3; each operation. -/
def sortFs (op ty : Nat) : List (Nat × Nat) :=
  [(0, 7), (2, 2), (8, op), (9, ty), (16, 4), (20, if op < 3 then 0 else 4), (24, if op = 2 then 2 else 0), (32, 0x1000), (40, 0x2000), (48, 0x3000)]

theorem wit_SortRuns :
    let w : Work := { mkWork 128 (item (sortFs 1 0)) 1 .running with stage := .running, hubs := [0], tiles := [0] }
    let s := ({ ctx1 with hif := { works := [w] } }).setHub 0 { setRunning := some { setQueued with tile := none } }
    ([1, 2, 3, 4, 5].all fun op =>
      let fs := sortFs op (if op = 5 then 1 else 0)
      let s := onRing ctx1 128 fs
      atHead s 128 clSort op (item fs) && decide (firstFail (s.sortChecks 1 op (desc fs)) = none) && !(s.roleGated 1)) = true ∧
      firstFail (ctx1.sortChecks 1 1 (desc (sortFs 1 3))) = some stFormatUnsupported ∧
      (s.hub 0).setRunning = some { setQueued with tile := none } ∧ s.work? 128 0 = some w ∧ (∀ v ∈ s.hif.works, v.kern = none) := by
  decide +kernel

/-! ### Attention and sequences -/

/-- Sequence 9 of context 1: active, one layer, one KV head of 32, with its first page in frame 3 or unmapped; frames 4 and 5
are FREE. The DRAM holds a draft tree of two roots, draft tokens 5 and 6, and a target's choice of 6. -/
def seq9 : Seq :=
  { state := .active, ctx := 1, kfmt := kvInt8, vfmt := kvInt8, kvHeads := 1, headDim := 32, layers := 1, length := 2, table := 0x10000
    swapAddr := 0x100000, swapLen := 0x100000, pages := [(0, 3)] }
def frame3 : Frame := { state := 1, ctx := 1, size4k := 8, base := 0x20000, layer := 0, page := 0, refs := 1, kfmt := kvInt8, vfmt := kvInt8 }
def seqState (q : Seq) : State :=
  let s := { ctx1 with mem := { ctx1.mem with dram := [(0x4000, 5), (0x4004, 6), (0x4800, 6), (0x5000, 0xFF), (0x5001, 0xFF)] } }
  let s := ((s.setSeq 9 q).setFrame 3 frame3).setFrame 4 { ctx := 1, size4k := 8, base := 0x30000 }
  s.setFrame 5 { ctx := 1, size4k := 8, base := 0x40000 }

/-- ATTEND and VERIFY on one tile, and ACCEPT, over the two last positions; a query format of 0xFF fails check 2. -/
def attendFs (qfmt : Nat) : List (Nat × Nat) :=
  [(0, 4), (2, 1), (8, 1), (9, qfmt), (10, 0x08), (13, 1), (15, 1), (16, 1), (17, 1), (20, 9), (24, 2), (32, 2), (36, 0x3F800000), (40, 0x6000), (48, 0x7000)]
def verifyFs : List (Nat × Nat) :=
  [(0, 4), (2, 2), (8, 2), (9, 0x08), (10, 0x08), (11, 1), (12, 0xF), (13, 1), (15, 1), (16, 1), (17, 1), (20, 9), (24, 2), (32, 2), (36, 0x3F800000), (40, 0x6000),
    (48, 0x7000), (56, 0x5000)]
def acceptFs : List (Nat × Nat) := [(0, 4), (2, 2), (8, 3), (20, 9), (24, 2), (32, 2), (40, 0x4000), (48, 0x4800), (56, 0x5000)]
def attnChecks (s : State) (op : Nat) (f : Fetched) : Option Nat :=
  firstFail (s.attnEarly 1 op f ++ s.attnSeq 1 op f.desc ++ s.attnLate 1 op f.desc)

/-- An ATTEND that runs on tile 0, its page mapped or not. -/
def attnOn : Work := { mkWork 128 (item (attendFs 8)) 1 .running with stage := .running, tiles := [0], attn := some { items := [(0, 0)] } }
def attnState (q : Seq) : State := { seqState q with hif := { works := [attnOn] } }

/-- SEQ descriptors of each operation on sequence 9. -/
def seqFs (op : Nat) (more : List (Nat × Nat)) : List (Nat × Nat) := [(0, 3), (2, 2), (8, op)] ++ more
def seqFsOf : Nat → List (Nat × Nat)
  | 1 => seqFs 1 [(10, kvInt8), (11, kvInt8), (12, 1), (13, 1), (14, 1), (32, 0x50000)]
  | 2 => seqFs 2 [(16, 9), (20, 300)]
  | 3 => seqFs 3 [(16, 9), (32, 0x50000)]
  | 6 => seqFs 6 [(16, 9), (40, 0x100000), (48, 0x100000)]
  | 7 => seqFs 7 [(16, 9), (40, 0x100000), (48, 0x100000)]
  | 8 => seqFs 8 [(10, kvInt8), (11, kvInt8), (16, 9), (32, 0x60000)]
  | op => seqFs op [(16, 9)]
def seqOp (op : Nat) : State := onRing (seqState (if op = 7 then { seq9 with state := .swapped } else seq9)) 128 (seqFsOf op)

theorem wit_AttentionAdmits :
    let iso := fun s : State => s.setFld OLP_ROLE OLP_ROLE_ROLE roleIsolated
    let at_ := fun (fs : List (Nat × Nat)) => onRing (seqState seq9) 128 fs
    ringCtx 128 = some 1 ∧ atHead (at_ (attendFs 8)) 128 clAttn 1 (item (attendFs 8)) = true ∧ atHead (at_ verifyFs) 128 clAttn 2 (item verifyFs) = true ∧
      atHead (at_ acceptFs) 128 clAttn 3 (item acceptFs) = true ∧ (attnChecks (at_ (attendFs 255)) 1 (item (attendFs 255))).isSome = true ∧
      attnChecks (at_ (attendFs 8)) 1 (item (attendFs 8)) = none ∧ attnChecks (at_ verifyFs) 2 (item verifyFs) = none ∧
      attnChecks (at_ acceptFs) 3 (item acceptFs) = none ∧ (at_ acceptFs).roleGated 1 = false ∧
      attnChecks (iso (at_ (attendFs 8))) 1 (item (attendFs 8)) = none ∧ (iso (at_ (attendFs 8))).roleGated 1 = true ∧
      ((at_ acceptFs).seq 9).holds < 255 ∧ aSeq (desc acceptFs) = 9 ∧
      (∀ e ∈ (at_ acceptFs).acceptFrames (desc acceptFs), e.any (fun g => g.refs ≤ 1) = true) ∧
      none ∈ (seqState { seq9 with pages := [] }).acceptFrames (desc acceptFs) ∧
      attnChecks (onRing (seqState { seq9 with pages := [] }) 128 acceptFs) 3 (item acceptFs) = none := by decide +kernel

theorem wit_AttentionEnds :
    let s := (attnState seq9).mapPage 9 0 0 3
    let u := attnState { seq9 with pages := [] }
    let aux := s.attnRead attnOn 56 (aAuxLen attnOn.desc 1)
    let q := s.attnRead attnOn 40 (aQbytes attnOn.desc)
    let bad : State := { s with mem := { s.mem with bad := [0x6000 / 64] } }
    s.acts ∧ s.work? 128 0 = some attnOn ∧ attnOn.attn.isSome = true ∧ attnOn.placed ∧ s.hears 128 ∧ s.mem.bad = [] ∧
      (s.attnReadFails attnOn).isNone = true ∧ (bad.attnReadFails attnOn).isSome = true ∧ attnOn.late s.now (dF attnOn.desc 22 2) = true ∧
      (s.finishTiles attnOn q aux (enumFrom' 0 attnOn.tiles)).2.isSome = true ∧ (s.tile 0).inFlight = [] ∧
      (s.objectBusy (addrOf attnOn.desc 48) (aObytes attnOn.desc) = false ∧
        s.objectBusy (addrOf attnOn.desc 48 + aStatsAt attnOn.desc) (aStatsLen attnOn.desc) = false) ∧
      addrSpace attnOn.desc 48 = 0 ∧ aStats attnOn.desc = false ∧
      (u.attnReadFails attnOn).isNone = true ∧ (u.finishTiles attnOn q aux (enumFrom' 0 attnOn.tiles)).2.isNone = true := by
  simp only [State.acts, Work.placed, State.hears]; decide +kernel

/-- The state and descriptor of each SEQ operation; a swap-out with and without holds and randomness. -/
theorem wit_SeqOperations :
    ([1, 2, 3, 4, 5, 6, 7, 8].all fun op => atHead (seqOp op) 128 clSeq op (item (seqFsOf op)) &&
      decide (firstFail ((seqOp op).seqChecks 1 (item (seqFsOf op))) = none) &&
      decide (((seqOp op).allocAll 1 2 ((seqOp op).seqNeeds (desc (seqFsOf op)) [])).isSome = true) &&
      decide ((seqOp op).mem.bad = [])) = true ∧
    ((seqOp 2).allocAll 1 1 ((seqOp 2).seqNeeds (desc (seqFsOf 2)) [])).isSome = true ∧ qSeq (desc (seqFsOf 5)) = 9 ∧
    firstFail ((seqOp 4).seqChecks 0 (item (seqFsOf 4))) ≠ none ∧ ringCtx 128 = some 1 ∧
    firstFail ((onRing ctx1 128 (seqFsOf 4)).seqChecks 1 (item (seqFsOf 4))) ≠ none ∧ (seqOp 5).rngOk = true ∧
    ((seqOp 5).setBit SEC_STATUS SEC_STATUS_RNG_OK false).rngOk = false ∧ ((seqOp 5).seq 9).holds = 0 := by decide +kernel

theorem leNat_leBytes (n v : Nat) (h : v < 256 ^ n) : leNat (leBytes n v) = v := by
  induction n generalizing v with
  | zero => simp at h; subst h; rfl
  | succ n ih =>
    have := ih (v / 256) (by rw [Nat.pow_succ] at h; omega)
    simp [leNat, leBytes, this]; omega

/-- Sequence 9 swapped out with no page, and its image: header, an empty index, no page, tag. -/
def swapKey9 : BitVec 256 := (onRing (seqState seq9) 128 (seqFsOf 7)).imageKey 1 (List.replicate 32 0)
def imageHead : List Byte :=
  leBytes 4 0x5753514B ++ leBytes 2 1 ++ leBytes 2 9 ++ [1, 0, 1, 0, 1, 1, 0, 0] ++ leBytes 24 0 ++ leBytes 8 Config.serial.toNat ++
    List.replicate 208 0
def image9 : List Byte := imageHead ++ leBytes 16 (Config.gcmTag swapKey9 imageIv imageHead []).toNat
def swapped9 : State :=
  onRing (seqState { seq9 with state := .swapped, length := 0, indexDigest := Config.shake256 (Config.gcmDecrypt swapKey9 imageIv []) })
    128 (seqFsOf 7)

theorem swapped9_seq : swapped9.seq 9 =
    { seq9 with state := .swapped, length := 0, indexDigest := Config.shake256 (Config.gcmDecrypt swapKey9 imageIv []) } := rfl

theorem swapped9_key : swapped9.imageKey 1 (List.replicate 32 0) = swapKey9 := by
  have : (swapped9.ctx 1).nonce = ((onRing (seqState seq9) 128 (seqFsOf 7)).ctx 1).nonce := by decide +kernel
  simp only [swapKey9, State.imageKey, State.swapKey, State.slotNonce, this]

theorem image9_parts : (image9.drop 48).take 32 = List.replicate 32 0 ∧ (image9.take 256).drop 256 = [] ∧ image9.take 256 = imageHead ∧
    256 + indexBytes ((swapped9.seq 9).layers * leNat ((image9.drop 20).take 4)) = 256 :=
  ⟨by decide +kernel, List.eq_nil_of_length_eq_zero (by decide +kernel), List.take_left' (by decide +kernel), by decide +kernel⟩

theorem swapped9_needs (idx : List Byte) : swapped9.seqNeeds (desc (seqFsOf 7)) idx = [] := by
  have h : qOp (desc (seqFsOf 7)) = 7 := by decide +kernel
  have n : (swapped9.seq (qSeq (desc (seqFsOf 7)))).swapPages = 0 := by decide +kernel
  simp [State.seqNeeds, h, n]

theorem image9_digest : Config.shake256 (Config.gcmDecrypt (swapped9.imageKey (swapped9.seq 9).ctx ((image9.drop 48).take 32)) imageIv
    ((image9.take (256 + indexBytes ((swapped9.seq 9).layers * leNat ((image9.drop 20).take 4)))).drop 256)) =
      (swapped9.seq 9).indexDigest := by
  rw [image9_parts.2.2.2, image9_parts.2.1, image9_parts.1, swapped9_seq]
  show Config.shake256 (Config.gcmDecrypt (swapped9.imageKey 1 (List.replicate 32 0)) imageIv []) = _
  rw [swapped9_key]

theorem wit_SeqSwapsIn :
    let s := swapped9
    let d := desc (seqFsOf 7)
    let b := image9
    let n := 256 + indexBytes ((s.seq 9).layers * leNat ((b.drop 20).take 4))
    let key := s.imageKey (s.seq 9).ctx ((b.drop 48).take 32)
    let needs := s.seqNeeds d (Config.gcmDecrypt key imageIv ((b.take n).drop 256))
    let len := (needs.map PageReq.bytes).sum
    atHead s 128 clSeq 7 (item (seqFsOf 7)) = true ∧ firstFail (s.seqChecks 1 (item (seqFsOf 7))) = none ∧ qSeq d = 9 ∧
      s.imageFits 9 (qHostLen d) b ∧ ¬ s.imageFits 9 (qHostLen d) [] ∧ n ≤ b.length ∧ (s.allocAll 1 2 needs).isSome = true ∧
      leNat ((b.drop (n + len)).take 16) =
        (Config.gcmTag key imageIv (b.take 256) ((b.take n).drop 256 ++ (b.drop n).take len)).toNat := by
  have serial : leNat (leBytes 8 Config.serial.toNat) = Config.serial.toNat := leNat_leBytes 8 _ Config.serial.isLt
  have tag := leNat_leBytes 16 _ (Config.gcmTag swapKey9 imageIv imageHead []).isLt
  have rest : (image9.drop 256).take 16 = leBytes 16 (Config.gcmTag swapKey9 imageIv imageHead []).toNat := by
    rw [show image9.drop 256 = _ from List.drop_left' (by decide +kernel)]; rfl
  have a : leNat ((image9.drop 40).take 8) = Config.serial.toNat := by
    rw [show (List.drop 40 image9).take 8 = leBytes 8 Config.serial.toNat from rfl, serial]
  refine ⟨?_, ?_, ?_, ⟨?_, ?_, image9_digest⟩, fun h => absurd h.1 (by decide +kernel), ?_, ?_, ?_⟩
  case refine_5 => refine ⟨?_, ?_, ?_, ?_, a, ?_⟩ <;> decide +kernel
  any_goals decide +kernel
  rw [swapped9_needs, image9_parts.2.2.2, image9_parts.2.2.1, show imageHead.drop 256 = [] from List.eq_nil_of_length_eq_zero (by decide +kernel), image9_parts.1, swapped9_seq]
  show leNat ((image9.drop 256).take 16) =
    (Config.gcmTag (swapped9.imageKey 1 (List.replicate 32 0)) imageIv imageHead ([] ++ [])).toNat
  rw [swapped9_key, rest, tag]; rfl

/-- RELEASE of sequence 9 waiting for its turn, alone in flight; and the same operation elsewhere on its way. -/
def seqWork (op : Nat) (x : SeqWork) : Work := { mkWork 128 (item (seqFsOf op)) op .waiting with seqw := some x }
def seqWaits (q : Seq) (w : Work) : State := { seqState q with hif := { works := [w] } }

theorem wit_SeqWaitsAndTables :
    let x : SeqWork := { seqId := 9, regNo := 0 }
    let lost := seqWaits seq9 (seqWork 6 { x with phase := .flushing })
    let lost : State := { lost with mem := { lost.mem with bad := [0x20000 / 64] } }
    let w := seqWork 4 x
    let s := seqWaits seq9 w
    let flying := seqWork 6 { x with phase := .flushing }
    let victim := seqWork 2 { x with phase := .flushing, victim := some 8 }
    let b := { base with kv := { base.kv with checking := some (32767, 0) } }
    s.acts ∧ s.work? 128 0 = some w ∧ w.cls = clSeq ∧ s.hears 128 ∧ qOp w.desc = 4 ∧ s.startable w x = true ∧ s.unbound x = false ∧
      s.unbound { x with regNo := 1 } = true ∧ firstFail (s.seqLate w.ctx w.desc) = none ∧ s.seqWritesBusy w x [] = false ∧
      (s.seq 9).holds = 0 ∧ (seqWaits seq9 flying).work? 128 0 = some flying ∧ (seqWaits seq9 victim).work? 128 0 = some victim ∧
      (8 : Nat) ≠ x.seqId ∧ ((seqWaits seq9 victim).setSeq 8 { seq9 with state := .swappingOut }).mem.bad = [] ∧
      (lost.readFails 1 (lost.swapReads 9)).isSome = true ∧ (lost.setFld HIF_CTRL HIF_CTRL_UE_LIMIT 0).fld HIF_CTRL HIF_CTRL_UE_LIMIT = 0 ∧
      (seqWork 7 { x with phase := .waitFrames }).late s.now (dF (seqWork 7 x).desc 18 2) = true ∧ base.reachesCore ∧ base.kv.checking = none ∧ b.reachesCore ∧ b.kv.checking = some (32767, 0) ∧
      base.pftOk 32767 ((base.frame 32767).written 0x0100002000080000#64) = false ∧
      ctx1.pftOk 32767 ((ctx1.frame 32767).written 0x0100002000080000#64) = true := by
  simp only [State.acts, State.hears, State.reachesCore]; decide +kernel

/-- An entry of one signal of 64 samples for the model in slot 3, as its 320 bytes. -/
def chanEntry : List Byte := leBytes 320 ([(1, 1), (2, 64), (4, 3), (5, 1), (7, 1), (8, 1), (10, 1), (14, 1), (16, 2), (20, 0x3F800000), (48, 1000), (52, 1),
  (54, 1), (64, 0x3F800000)].map fun p : Nat × Nat => p.2 * 256 ^ p.1).sum
def model1 : ModelDecl :=
  { signalsLo := 1, signalsHi := 32, samplesLo := 64, samplesHi := 4096, stateLo := 1, stateHi := 16, clocks := [(131072, 100)], weightsKib := 4, codeKib := 1 }
def modelObj : ObjFacts := { signed := true, wrapper := .openCode, version := 1, digest := 0, entries := [], model := some model1 }

/-- The Sentinel runs for context 1 on cluster 0: channel 4095 is enabled in NORMAL, channel 4 configured and not enabled,
channels 5 and 6 enabled and in TRIP; an entry stands in DRAM. -/
def sentState : State :=
  let ch := fun (v : Nat) (on : Bool) => ({ entry := chanEntry, enabled := on, verdict := v } : Chan)
  let s := { ctx1 with
    stn := { chans := [(4, ch 4 false), (5, ch 3 true), (6, ch 3 true), (4095, ch 1 true)], models := [(3, { decl := model1, digest := 0, at_ := 0 })] }
    mem := { ctx1.mem with dram := memWrite [] 0x8000 chanEntry } }
  ((s.setBit STN_CTRL STN_CTRL_ENABLE true).setFld STN_CTRL STN_CTRL_CTX 1).setBit STN_STATUS STN_STATUS_RUNNING true

/-- SENT descriptors of each operation, on channel `n` or on slot 3 or 4. -/
def sentFs (op n : Nat) : List (Nat × Nat) :=
  [(0, 6), (2, 2), (8, op)] ++ (if op = 6 then [(9, 4), (16, 0x8000), (24, 4096)] else if op = 7 then [(9, n)]
    else [(12, n), (14, 1)] ++ if op = 1 ∨ op = 8 then [(16, 0x8000)] else [])
def sentOk (op n : Nat) : Bool :=
  let s := onRing sentState 128 (sentFs op n)
  let d := desc (sentFs op n)
  atHead s 128 clSent op (item (sentFs op n)) && s.stn.op.isNone && decide (s.mem.bad = []) &&
    decide (firstFail (s.sentChecks (some 1) d op (if op = 6 then modelObj else noObj)) = none) && decide (s.sentBad 1 d op = none)

/-- Every operation at a channel where it passes and at one where it does not; a silent SOLO module; a window on the tile. -/
theorem wit_SentOperations :
    let s := sentState
    let quiet : State := { s with vrd := { s.vrd with silent := true } }
    let busy : State := { s with stn := { s.stn with windows := [{ chan := 4095, s := 0, at_ := 0, started := true }] } }
    let none_ : State := { quiet with stn := { quiet.stn with chans := [(4, { s.chan 4 with enabled := false })] } }
    ([(1, 9), (2, 4), (3, 4095), (4, 4095), (5, 5), (6, 0), (7, 2), (8, 4095)].all fun p => sentOk p.1 p.2) = true ∧
    ([(1, 4095), (2, 5), (3, 4), (4, 4), (5, 4), (7, 3), (8, 4)].all fun p =>
      decide (firstFail (s.sentChecks (some 1) (desc (sentFs p.1 p.2)) p.1 noObj) = none) &&
        (s.sentBad 1 (desc (sentFs p.1 p.2)) p.1).isSome) = true ∧
    firstFail (s.sentChecks (some 0) (desc (sentFs 3 4)) 3 noObj) = some stAccessDenied ∧
    firstFail (s.sentChecks (some 1) (desc (sentFs 6 0)) 6 noObj) = some stAccessDenied ∧ ringCtx 128 = some 1 ∧
    s.vrd.silent = false ∧ (∀ w ∈ s.stn.windows, w.chan ∉ sentChans (desc (sentFs 3 4095))) ∧ quiet.vrd.silent = true ∧ quiet.role = roleSolo ∧
    none_.sentBad 1 (desc (sentFs 2 4)) 2 = none ∧ (∀ n ∈ sentChans (desc (sentFs 2 4)), n ∉ none_.enabledChans) ∧
    4095 ∈ sentChans (desc (sentFs 3 4095)) ∧ busy.chanOnTile 4095 = true ∧ busy.sentBad 1 (desc (sentFs 8 4095)) 8 = none := by
  decide +kernel

theorem wit_SentinelControl :
    let off := sentState.setBit STN_CTRL STN_CTRL_ENABLE false
    let locked := sentState.setBit GLB_SETUP_LOCK GLB_SETUP_LOCK_LOCK true
    let empty : State := { sentState with stn := {} }
    ctx1.reachesCore ∧ (0x80000001#32).getLsbD 31 = true ∧ ctx1.setupLocked = false ∧ ctx1.bit STN_CTRL STN_CTRL_ENABLE = false ∧
      off.aloneFor 0 1 = true ∧ off.hif.works = [] ∧ off.aloneFor 7 1 = false ∧ sentState.bit STN_CTRL STN_CTRL_ENABLE = true ∧
      sentState.enabledChans ≠ [] ∧ empty.enabledChans = [] ∧ empty.bit STN_CTRL STN_CTRL_ENABLE = true ∧ locked.setupLocked = true ∧
      locked.reachesCore ∧ sentState.reachesCore ∧ sentState.sentBusy = false ∧ sentState.role ≠ roleIsolated := by
  simp only [State.reachesCore, State.acts]; decide +kernel

/-- Doorbells of channel 4095 that are taken, overrun or dropped; its window before its data, on the tile, and discarded; data
of its sequence number and of another; a channel that has been silent. -/
theorem wit_SentinelWindows :
    let s := sentState
    let w : StnWin := { chan := 4095, s := 7, at_ := 0 }
    let with_ := fun ws => ({ s with stn := { s.stn with windows := ws } } : State)
    let bell := 0x0000000000070FFF#64
    s.acts ∧ bar2Window 0 0x11000 = some (1, 0x1000) ∧ bar2Window 0 0x11FF8 = some (1, 0x1FF8) ∧ bar2Window 2 0x1000 = some (1, 0x1000) ∧
      s.servesWindow 0 1 = true ∧ s.sentCtx = some 1 ∧ bell.toNat / 4096 % 16 = 0 ∧ bell.toNat < 2 ^ 40 ∧ bell.toNat % 4096 = 4095 ∧
      (s.chan 4095).enabled = true ∧ s.stnRunning = true ∧ s.pendingWins 4095 < 2 ∧ 2 ≤ (with_ [w, w]).pendingWins 4095 ∧
      ¬ ((0x1070FFF#64).toNat / 4096 % 16 = 0 ∧ (s.chan 0).enabled = true) ∧ (with_ [w]).stn.windows = [w] ∧ w.fetched = false ∧
      bf (leBytes 4 7) 0 4 = w.s ∧ bf (leBytes 4 8) 0 4 ≠ w.s ∧ w.run = false ∧ w.dead = false ∧ { w with dead := true }.dead = true ∧
      { w with started := true }.started = true ∧ s.stn.op = none ∧ (s.chan 4095).staleUs ≠ 0 ∧ (s.chan 4095).verdict ≤ vAlarm ∧
      (s.chan 4095).since + (s.chan 4095).staleUs ≤ s.now ∧ 0x1FF9 % 8 ≠ 0 ∧ s.ready = true ∧
      (s.setBit HIF_STATUS HIF_STATUS_READY false).ready = false ∧ s.bankFails (bankPieces (s.stateAddr 4095) 1024) = none ∧
      s.bankFails [s.modelAt 4095] = none ∧ (s.chan 4095).stateKib = 1 ∧
      ((s.setBank (bankOf (s.stateAddr 4095)) { bad := [s.stateAddr 4095 / 8] }).bankFails
        (bankPieces (s.stateAddr 4095) 1024)).isSome = true := by
  simp only [State.acts]; decide +kernel

/-! ### Codec -/

/-- Parameter blocks of a decode and an encode stream of 64 by 64 luma samples. -/
def vidFields (enc : Bool) : List (Nat × Nat) :=
  [(0, 1), (2, 1), (3, 120), (5, 8), (6, 2), (8, 64), (10, 64), (12, 64), (48, 0x200000), (56, 0x400000)] ++
    if enc then [(1, 1), (7, 1), (14, 1), (16, 64000), (24, 64000), (28, 500000), (32, 30), (36, 1), (41, 51)] else []
def vidBlock (enc : Bool) : List Byte := leBytes 128 ((vidFields enc).map fun p => p.2 * 256 ^ p.1).sum

/-- Streams 7 (decode) and 63 (encode) of context 1; a block stands in DRAM. -/
def vidState : State :=
  { ctx1 with vcd := { streams := [(7, streamOfBlock 1 (vidBlock false)), (63, streamOfBlock 1 (vidBlock true))] }
              mem := { ctx1.mem with dram := memWrite [] 0x9000 (vidBlock true) } }

def vidFs (op : Nat) : List (Nat × Nat) :=
  [(0, 5), (2, 2), (8, op)] ++ match op with
    | 1 => [(16, 0x9000), (24, 128)]
    | 2 => [(9, 7), (16, 0x10000), (24, 100)]
    | 3 => [(9, 63), (11, 1), (16, 0x20000), (32, 0x30000), (40, 64)]
    | 4 => [(9, 7)]
    | _ => [(9, 63)]
def vidChecks (s : State) (op : Nat) : Option Nat :=
  let d := desc (vidFs op)
  firstFail (s.codecChecks 1 op (item (vidFs op)) (s.dramRead 1 (vAddr d) (if op = 1 then 128 else 0)))
def vidOk (op : Nat) : Bool :=
  let s := onRing vidState 128 (vidFs op)
  atHead s 128 clCodec op (item (vidFs op)) && decide (vidChecks s op = none)

def pic : PicResult :=
  { params := { profile := 1, level := 120, highTier := false, depth := 8, width := 64, height := 64, ctb := 64, absentTool := false }
    paramDiscarded := false, irap := true, recovery := false, noOutput := false, noSlice := false, undecoded := [], usedRefs := 0
    stillRefs := 1, shown := true, outMask := 1, poc := 0, crop := 0, luma := [], chroma := [], bits1 := 100, bits2 := 50, stream := []
    qpAvg := 0, cycles := 0, uncorrectable := none }

/-- Picture work of stream 7 or 63, waiting or running; a stream with both slots in use. -/
def picWork (op : Nat) (ph : WPhase) : Work := { mkWork 128 (item (vidFs op)) op ph with pic := some { stream := if op = 2 then 7 else 63 } }
def picState (w : Work) : State := { vidState with hif := { works := [w] } }

/-- Each operation with and without a role gate; pictures of both kinds that start and run; one skipped and one that is too long. -/
theorem wit_CodecWork :
    let iso := fun s : State => s.setFld OLP_ROLE OLP_ROLE_ROLE roleIsolated
    let x := streamOfBlock 1 (vidBlock false)
    let e := streamOfBlock 1 (vidBlock true)
    vidState.mem.bad = [] ∧ x.ctx = 1 ∧ e.ctx = 1 ∧ x.accepts pic.params = true ∧ x.accepts { pic.params with level := 121 } = false ∧
      x.accepts { pic.params with width := 65 } = false ∧ { x with refused := true }.refused = true ∧ { pic with irap := false }.irap = false ∧
      (picWork 2 .running).pictureLate vidState.now = true ∧ { pic with noOutput := true }.noOutput = true ∧
      { pic with uncorrectable := some 99 }.uncorrectable.isSome = true ∧ ({ stream := 63, tampered := true } : PicWork).tampered = true ∧
      (vidState.setFld HIF_CTRL HIF_CTRL_UE_LIMIT 0).fld HIF_CTRL HIF_CTRL_UE_LIMIT = 0 ∧
    ringCtx 128 = some 1 ∧ ([1, 2, 3, 4, 5].all vidOk) = true ∧ (vidChecks ctx1 2).isSome = true ∧ vidState.roleGated 1 = false ∧
      (iso vidState).roleGated 1 = true ∧ vidChecks (iso vidState) 3 = none ∧
      (∀ op ∈ [2, 3], ∀ ph ∈ [WPhase.waiting, .running], (picState (picWork op ph)).acts ∧ (picState (picWork op ph)).hears 128 ∧
        (picWork op ph).kern = none) ∧
      vidState.stream? 7 = some x ∧ vidState.stream? 63 = some e ∧ (picState (picWork 2 .waiting)).gateClosed = false ∧
      x.freeSlot.isSome = true ∧ { x with waits := 3 }.freeSlot = none ∧ pic.uncorrectable = none ∧
      pic.noOutput = false ∧ (e.cpb 1 100 50).skip = false ∧ ((e.cpb 1 100 50).bits + (e.cpb 1 100 50).filler + 7) / 8 ≤ vOutLen (desc (vidFs 3)) ∧
      (e.cpb 1 100000 100000).skip = true := by
  simp only [State.acts, State.hears]; decide +kernel

theorem wit_EncodeLengthLimit :
    let w := picWork 3 .running
    let s := picState w
    let x := streamOfBlock 1 (vidBlock true)
    let m := x.cpb (dF w.desc 11 1) 1000 50
    s.acts ∧ s.hif.works = [w] ∧ w.pic = some { stream := 63 } ∧ w.kern = none ∧ s.stream? 63 = some x ∧ s.hears w.ring ∧ w.op = 3 ∧
      w.phase = .running ∧ { pic with bits1 := 1000 }.uncorrectable = none ∧ s.mem.bad = [] ∧ m.skip = false ∧
      vOutLen w.desc < (m.bits + m.filler + 7) / 8 := by
  simp only [State.acts, State.hears]; decide +kernel

/-! ### The host link, its rings and its transfers -/

/-- The link down, and PERST_N low. -/
def linkless (low : Bool) : State :=
  { base.setBit HIF_STATUS HIF_STATUS_LINK_UP false with hif := { perstLow := low } }

/-- A module that serves nothing, with and without VFs; ranges at their ends. -/
theorem wit_LinkAndResets :
    base.quiet ∧ base.idle ∧ base.acts ∧ base.isOn .hcx = true ∧ base.linkUp = true ∧ (linkless false).acts ∧ (linkless false).isOn .hcx = true ∧
      (linkless false).linkUp = false ∧ (linkless false).hif.perstLow = false ∧ (linkless true).hif.works = [] ∧ (linkless true).acts ∧
      (1 : Nat) ∈ [1, 2, 4, 8, 16] ∧ (base.setFld HIF_STATUS HIF_STATUS_NUM_VF 32).numVf = 32 :=
  have h : base.sec.parts = [] ∧ base.kv.seqs = [] := by decide +kernel
  have idle : base.idle := by simp only [State.idle]; decide +kernel
  have rest : base.acts ∧ base.isOn .hcx = true ∧ base.linkUp = true ∧ (linkless false).acts ∧ (linkless false).isOn .hcx = true ∧
      (linkless false).linkUp = false ∧ (linkless false).hif.perstLow = false ∧ (linkless true).hif.works = [] ∧ (linkless true).acts ∧
      (1 : Nat) ∈ [1, 2, 4, 8, 16] ∧ (base.setFld HIF_STATUS HIF_STATUS_NUM_VF 32).numVf = 32 := by
    simp only [State.acts]; decide +kernel
  have quiet : base.quiet := by
    refine ⟨?_, ?_, fun p => by simp [State.part, h.1, tabGetD, tabGet?], fun c => by simp [State.ctxSeqs, h.2], ?_, ?_, ?_, ?_⟩ <;>
      decide +kernel
  ⟨quiet, idle, rest⟩

/-- Ring 255 and the management ring, empty, with TAIL ahead of HEAD by `n`. -/
def bellState (r n : Nat) (g : Ring) : State := base.setRing r { g with exists_ := true, enabled := true, tail := BitVec.ofNat 32 n, head := 0 }

theorem wit_DoorbellsAndFetch :
    let s := bellState 255 1 {}
    let m := bellState mgmtRing 0 {}
    let fetched := s.fetchedOf 255 0 ((leBytes 64 (desc [(0, 8), (2, 1)]).toNat).drop (64 * 0))
    let held := fun (due : Bool) => bellState 255 0 { holding := true, due := due, vector := 5 }
    let wakes := fun (on : Bool) (s : State) => { (if on then s.setCfg 0 0xB0 0x80000000 else s) with hif.unmasked := [(0, 5)] }
    s.acts ∧ m.acts ∧ bar2Window 0 (0x10000 + 8 * 127) = some (1, 0 + 8 * 127) ∧ bar2Window 0 (0x10400 + 8 * 127) = some (1, 0x400 + 8 * 127) ∧
      s.servesWindow 0 1 = true ∧ s.takesDoorbell 255 = true ∧ base.takesDoorbell 255 = false ∧ m.takesDoorbell mgmtRing = true ∧
      inRange 16 0 (s.ring 255).size = true ∧ inRange 17 0 (s.ring 255).size = false ∧
      ((16#64).toNat < 2 ^ 32 ∧ ((s.ring 255).records - (0#64).truncate 32).toNat ≤ (s.ring 255).size) ∧
      ¬ ((1#64).toNat < 2 ^ 32 ∧ ((s.ring 255).records - (1#64).truncate 32).toNat ≤ (s.ring 255).size) ∧
      s.fetchable 255 (min 1 16) = 1 ∧ s.fetchTurn 255 = true ∧ s.idle ∧ (s.ring 255).queue = [] ∧ fetched.header = none ∧ fetched.aborted = false ∧
      (s.ring 255).mute = false ∧ ((held true).ring 255).holding = true ∧ ((held true).ring 255).due = true ∧
      ((held false).ring 255).due = false ∧ (wakes true (held true)).msixOpen 0 5 = true ∧ (wakes true (held true)).linkUp = true ∧
      (wakes false (held true)).msixOpen 0 5 = false ∧ (held true).servingFn 255 = 0 ∧ (32 : Nat) ≠ 64 := by
  simp only [State.acts, State.idle]; decide +kernel

/-- FENCE and ABORT descriptors on ring 128, an ABORT of sequence number 0 of ring 129. -/
def fenceFs (scope flags : Nat) : List (Nat × Nat) := [(0, 8), (2, 1), (8, scope), (9, flags)]
def abortFs : List (Nat × Nat) := [(0, 10), (2, 1), (8, 1), (12, 0), (16, 5)]
def abortState (g : Ring) (ws : List Work) : State :=
  let s := (onRing base 128 abortFs).setRing 129 { g with exists_ := true, enabled := true }
  { s with hif := { s.hif with works := ws } }

theorem wit_FenceAndAbort :
    let s := onRing base 128 (fenceFs 0 3)
    let failed := (onRing base 128 (fenceFs 0 1)).setRing 128 { (onRing base 128 (fenceFs 0 1)).ring 128 with fails := [7, 2 ^ 32 - 1] }
    let d := desc abortFs
    let target : Fetched := item [(0, 2), (2, 1), (4, 5)]
    let queued := abortState { tail := 1, head := 1, queue := [target] } []
    let unfetched := abortState { tail := 1, head := 0 } []
    let done := abortState { tail := 1, head := 1, words := [{ seq := 0, tag := 5, cls := 2, code := 3, status := 0 }] } []
    let w := { mkWork 129 target 1 .waiting with seq := 0 }
    let dma := abortState { tail := 1, head := 1 } [w]
    let past := fun s : State => ((s.ring 129).tail - 1 - BitVec.ofNat 32 0).toNat < ((s.ring 129).tail - (s.ring 129).head).toNat
    atHead s 128 clFence 0 (item (fenceFs 0 3)) = true ∧ fenceOk (desc (fenceFs 0 3)) = true ∧ s.fenceFailed 128 0 (desc (fenceFs 0 3)) = none ∧
      fenceOk (desc (fenceFs 0 4)) = false ∧ atHead (onRing base 128 (fenceFs 0 4)) 128 clFence 0 (item (fenceFs 0 4)) = true ∧
      atHead failed 128 clFence 0 (item (fenceFs 0 1)) = true ∧ fenceOk (desc (fenceFs 0 1)) = true ∧
      failed.fenceFailed 128 0 (desc (fenceFs 0 1)) = some (2 ^ 32 - 1, 128) ∧
      queued.abortIn 128 = some (item abortFs) ∧ abortRing 128 d = 129 ∧ abortSeqNo d = 0 ∧ abortTag d = 5 ∧ abortOk 128 d = true ∧
      (queued.ring 129).exists_ = true ∧ belowTail (queued.ring 129) 0 = true ∧
      (queued.ring 129).queue.find? (fun y => y.seq == 0) = some target ∧ dF target.desc 0 1 ≠ clAbort ∧ dF target.desc 4 4 = 5 ∧
      unfetched.abortIn 128 = some (item abortFs) ∧ (unfetched.ring 129).queue = [] ∧ past unfetched ∧ belowTail (unfetched.ring 129) 0 = true ∧
      ¬ past done ∧ (done.ring 129).words.find? (fun y => y.seq == 0) = some { seq := 0, tag := 5, cls := 2, code := 3, status := 0 } ∧
      (done.ring 129).inWindow 0 = true ∧ (dma.ring 129).inWindow 0 = true ∧ bf (leBytes 64 2) 0 1 = clDma ∧ bf (leBytes 64 clAbort) 0 1 = clAbort ∧
      ¬ past dma ∧ (dma.ring 129).words.find? (fun y => y.seq == 0) = none ∧ belowTail ({ tail := 0 } : Ring) 0 = false ∧
      w.is 129 0 = true ∧ w.cls = clDma ∧ w.phase = .waiting ∧ w.tag.toNat = 5 ∧ w.aborters = [] ∧ dma.hears 129 ∧ dma.hif.works = [w] := by
  simp only [State.hears]; decide +kernel

theorem wit_RingSetup :
    let mk := [(0, 11), (2, 1), (8, 1), (9, 127), (10, 16), (16, 0x1000), (24, 0x2000)]
    let del := [(0, 11), (2, 1), (8, 2), (9, 127)]
    let made := (onRing base 128 del).setRing 255 { exists_ := true }
    let bad := [(0, 11), (2, 1), (8, 1), (9, 128), (10, 16)]
    let v := 0x0000000000001050#64
    let two := (onRing base 128 mk).setRing 128 { exists_ := true, enabled := true }
    atHead (onRing base 128 mk) 128 clAdmin 1 (item mk) = true ∧ onRing0 128 = true ∧ (onRing base 128 mk).ringCreateOk 1 (desc mk) = true ∧
      atHead (onRing base 129 mk) 129 clAdmin 1 (item mk) = true ∧ onRing0 129 = false ∧ (onRing base 128 bad).ringCreateOk 1 (desc bad) = false ∧
      atHead (onRing base 128 bad) 128 clAdmin 1 (item bad) = true ∧
      atHead made 128 clAdmin 2 (item del) = true ∧ (made.ring 255).exists_ = true ∧ inR 1 127 (dF (desc del) 9 1) = true ∧
      dZero (desc del) 10 54 = true ∧ (base.ring 255).exists_ = false ∧ base.reachesCore ∧ two.reachesCore ∧ base.reachesCtx 0 31 = true ∧
      (base.ring 128).enabled = false ∧ (two.ring 128).enabled = true ∧ (base.ring mgmtRing).enabled = false ∧
      base.ringScrubbing 128 = false ∧ base.ringsOff 1 = true ∧ two.ringsOff 1 = false ∧
      getBits v HIF_SQ_ENABLE = 1 ∧ getBits v HIF_SQ_LOG2_ENTRIES = 16 ∧ getBits (v + 1) HIF_SQ_LOG2_ENTRIES = 17 ∧
      getBits 0x44#64 HIF_SQ_BASE = two.fld (ringRegs 128).1 HIF_SQ_BASE ∧ getBits 0x44#64 HIF_SQ_LOG2_ENTRIES = two.fld (ringRegs 128).1 HIF_SQ_LOG2_ENTRIES ∧
      getBits 0x04#64 HIF_SQ_ENABLE ≠ 1 := by
  simp only [State.reachesCore, State.acts]; decide +kernel

/-- DMA bodies: DRAM to DRAM, host to DRAM, DRAM to host, DRAM to bank 0, a fill, and one of length 0. -/
def dmaFs (op src dst dstAddr len : Nat) : List (Nat × Nat) :=
  [(0, 2), (2, 1), (8, op), (9, src), (10, dst), (16, if op = 2 then 0 else 0x4000), (24, dstAddr), (32, len), (40, if op = 2 then 7 else 0)]
def dmaWork (op src dst dstAddr : Nat) : Work := mkWork 128 (item (dmaFs op src dst dstAddr 64)) op .running
def dmaState (w : Work) : State := { ctx1.setFld HIF_CTRL HIF_CTRL_UE_LIMIT 0 with hif := { works := [w] } }

theorem wit_Transfers :
    let ok := fun (op src dst at_ : Nat) =>
      let f := item (dmaFs op src dst at_ 64)
      let s := onRing (kernelBank 1) 128 (dmaFs op src dst at_ 64)
      let s := { s with hif := { s.hif with works := [] } }
      let w := dmaWork op src dst at_
      atHead s 128 clDma op f && decide (firstFail (s.dmaChecks 1 op f.desc) = none) && decide ((dmaState w).work? 128 0 = some w) &&
        decide (w.cls = clDma) && decide ((dmaState w).dmaWindows w = [])
    ringCtx 128 = some 1 ∧ ok 1 0 0 0x8000 = true ∧ ok 1 2 0 0x8000 = true ∧ ok 1 0 2 0x8000 = true ∧ ok 1 0 1 0 = true ∧
      ok 2 0 0 0xFFFFC0 = true ∧ dmaPieces 0 [] 0 64 = [(0, 64)] ∧ firstFail (ctx1.dmaChecks 1 1 (desc (dmaFs 1 0 0 0x8000 0))) ≠ none ∧
      (dmaState (dmaWork 1 2 0 0)).acts ∧ (dmaState (dmaWork 1 2 0 0)).hears 128 ∧
      (dmaState (dmaWork 1 2 0 0)).fld HIF_CTRL HIF_CTRL_UE_LIMIT = 0 ∧ mSrcSpace (dmaWork 1 0 0 0).desc = 0 ∧
      (dmaState (dmaWork 1 0 0 0)).mem.bad = [] ∧ (dmaWork 1 0 1 0).dmaSrcPieces = [] ∧ ctx1.bankPartFails (dmaWork 1 0 1 0).dmaDstPieces = none ∧
      (kernelBank 1).bankOwnerSeen 0 = some 1 ∧ (kernelBank 1).bankReadyFor 1 0 = true ∧ (kernelBank 2).bankOwnerSeen 0 ≠ some 1 ∧
      (dmaWork 1 0 0 0).late ctx1.now (dF (dmaWork 1 0 0 0).desc 12 4) = true ∧
      (dmaState (dmaWork 1 0 0 0)).objectBusy 0x8000 64 = false ∧ base.isOn (.mem 11) = true ∧
      (base.setBit (MEM_PATROL 11) MEM_PATROL_ENABLE true).bit (MEM_PATROL 11) MEM_PATROL_ENABLE = true ∧
      ¬ channelLines ≤ tabGetD base.mem.sweep 11 0 + 1 ∧ channelLines ≤ tabGetD [(11, channelLines - 1)] 11 0 + 1 := by
  simp only [State.acts, State.hears]; decide +kernel

/-! ### ADMIN -/

/-- An ADMIN descriptor of an operation. -/
def adminFs (op : Nat) (more : List (Nat × Nat)) : List (Nat × Nat) := [(0, 11), (2, 1), (8, op)] ++ more
def admin (s : State) (r op : Nat) (more : List (Nat × Nat)) : State := onRing s r (adminFs op more)
def adminOk (s : State) (r op : Nat) (more : List (Nat × Nat)) : Bool := atHead (admin s r op more) r clAdmin op (item (adminFs op more))

theorem wit_AdminOnItsRing :
    ([0x10, 0x11, 0x12, 0x13, 0x19, 0x20, 0x21, 0x30, 0x31, 0x32, 0x33, 0x34, 0x35, 0x40, 0x41, 0x42, 0x43, 0x44, 0x45, 0x46, 0x47].all fun op =>
      adminOk base 128 op []) = true ∧ onMgmt 128 = false ∧ ([1, 2, 0x16, 0x17, 0x18].all fun op => adminOk base mgmtRing op []) = true ∧
      onRing0 mgmtRing = false ∧ ([0x14, 0x15].all fun op => adminOk base 1 op []) = true ∧ onMgmt 1 = false ∧ onRing0 1 = false := by
  decide +kernel

/-! ### Contexts and partitions -/

theorem wit_PartitionsAndGrants :
    let at_ := fun (s : State) (op : Nat) (m : List (Nat × Nat)) => (admin s mgmtRing op m).acts ∧ adminOk s mgmtRing op m = true
    let d := fun (op : Nat) (m : List (Nat × Nat)) => desc (adminFs op m)
    let two := 0x200000
    at_ base 0x10 [(9, 7), (10, 0x80)] ∧ dZero (d 0x10 [(9, 7), (10, 0x80)]) 11 53 = true ∧ base.defineOk 7 0x80 = true ∧
      ctx1.defineOk 7 0x81 = false ∧ ¬ dF (d 0x10 [(9, 8)]) 9 1 < 8 ∧
      at_ ctx1 0x11 [(9, 0), (10, 255), (12, 2)] ∧ dZero (d 0x11 [(9, 0), (10, 255), (12, 2)]) 16 48 = true ∧ ctx1.scheduleOk 0 2 = true ∧
      ctx1.scheduleOk 7 4 = false ∧ inR 1 255 0 = false ∧
      at_ base 0x12 [(9, 31), (10, 15), (16, two), (24, two)] ∧ grantFields (d 0x12 [(9, 31), (10, 15), (16, two), (24, two)]) = true ∧
      base.grantOk 31 15 two two = true ∧ ctx1.grantOk 31 15 0 two = false ∧ grantFields (d 0x12 [(9, 32)]) = false ∧
      at_ base 0x19 [(9, 31), (10, 1)] ∧ (base.ctx 31).keys = [] ∧ (base.ctx 31).prots = [] ∧
      ((base.setCtx 31 { base.ctx 31 with keys := [(0, { keyId := 1, key := 0 })] }).ctx 31).keys ≠ [] ∧
      at_ base 0x13 [(9, 31)] ∧ dZero (d 0x13 [(9, 31)]) 10 54 = true ∧ ¬ dF (d 0x13 [(9, 32)]) 9 1 < 32 ∧
      base.sec.parts = [] ∧ base.kv.seqs = [] := by
  simp only [State.acts]; decide +kernel

/-- Owner keys, an import of 64 bytes, a report and a certificate. What the cipher of Config opens a stored key or a chunk to is
free, so those cases of the statement have no witness of their own here. -/
theorem wit_KeysAndReports :
    let keyed := ctx1.setCtx 1 { ctx1.ctx 1 with keys := [(3, { keyId := 5, key := 0 })] }
    let imp := [(9, 3), (10, 15), (16, 0x4000), (24, 0x200000), (32, 64)]
    let d := desc (adminFs 0x18 imp)
    adminOk ctx1 128 0x16 [(9, 3), (16, 0x4000)] = true ∧ ctx1.dramOk 1 0x4000 1648 = true ∧ ctx1.dramOk 1 0x1000000 1648 = false ∧
      ctx1.rngOk = true ∧ (ctx1.setBit SEC_STATUS SEC_STATUS_RNG_OK false).rngOk = false ∧ adminOk keyed 128 0x17 [(9, 3)] = true ∧
      keyed.keyOf 1 3 = some { keyId := 5, key := 0 } ∧ ctx1.keyOf 1 3 = none ∧ adminOk keyed 128 0x18 imp = true ∧ importFields d = true ∧
      wChunks d = 1 ∧ keyed.dramOk 1 (wSrc d) (wSrcLen d) = true ∧ keyed.dramOkW 1 (wDst d) (wRegion d) = true ∧
      tabGet? (keyed.ctx 1).prots 15 = none ∧ adminOk base mgmtRing 0x14 [(48, 64), (56, 60000)] = true ∧
      base.bodyLen + 49856 ≤ 60000 ∧ adminOk base 128 0x14 [(48, 64), (56, 0)] = true ∧ adminOk base mgmtRing 0x15 [(48, 1), (56, 31616)] = true ∧
      dZero (desc (adminFs 0x15 [(48, 1), (56, 31616)])) 9 39 = true ∧ 31616 ≤ dF (desc (adminFs 0x15 [(48, 1), (56, 31616)])) 56 4 ∧
      onRing0 128 = true ∧ onMgmt mgmtRing = true := by decide +kernel

/-- Partition 0 at the end of context 1's slice while context 2 has a claim that waits; the same with no current context. -/
def shared (cur : Option Nat) : State :=
  let s := base.setPart 0 { clusters := 1, ctxMask := 6, slice := 1, current := cur, draining := true }
  { s with hif := { works := [{ kernelWaits with ring := 256 }] } }

theorem wit_TenantSwitches :
    (shared (some 1)).acts ∧ ((shared (some 1)).part 0).current = some 1 ∧ (shared (some 1)).nextCtx 0 1 = some 2 ∧
      (shared (some 1)).mustSwitch 0 1 = true ∧ ((shared (some 1)).part 0).sliceUsed (shared (some 1)).now = true ∧ base.bankClearing 0 = false ∧ (shared (some 1)).sentPart 0 = false ∧ (shared none).acts ∧
      ((shared none).part 0).current = none ∧ ((shared none).part 0).clusters ≠ 0 ∧
      ((shared none).part 0).contexts.find? (shared none).hasWaiting = some 2 ∧ base.bit SEC_STATUS SEC_STATUS_READY = true := by
  simp only [State.acts]; decide +kernel

/-! ### Power -/

/-- The ranges of the limiter's inputs at their ends; a hold and an AIR_STOP in force. -/
theorem wit_PowerLimits :
    let hold := base.setBit PWR_STATUS PWR_STATUS_SUPPLY_HOLD true
    base.live ∧ hold.live ∧ hold.bit PWR_STATUS PWR_STATUS_SUPPLY_HOLD = true ∧ base.aon.core = true ∧ base.sentCluster ≠ some 8 ∧
      base.now < { base.pwr with lowAt := base.now }.lowAt + 1000 ∧ hold.pwr.lowAt + 1000 ≤ hold.now ∧ base.tjDue 8 95 = true ∧
      base.tjDue 8 93 = true ∧ base.tjDue 8 94 = false ∧ 
      base.bit PWR_STATUS PWR_STATUS_AIR_STOP = false ∧ base.bit PWR_SHUTDOWN PWR_SHUTDOWN_SHUTTING = false ∧
      (base.setOn (.hub 7) true).isOn (.hub 7) = true := by
  simp only [State.live]; decide +kernel

/-- Fin temperatures at rest and less than 50 W of heat: the period keeps the last af, if any. -/
def cool : AirFacts := { inlet := [25000], outlet := [25000], fin := [26000, 26000], finBefore := [26000], power1s := 49999 }
def blown (fast slow : Nat) : State :=
  { base with pwr := { base.pwr with af := some fast, afLast := [fast], afSlow := slow * 1000000, afOkAt := some 0 } }

theorem cool_keeps : updatesRest cool = false := by
  have h : meanInt (validTemps cool.fin) - meanInt (validTemps cool.finBefore) = 0 := by decide +kernel
  simp only [updatesRest, heatOf, h, Int.mul_zero]; decide +kernel

theorem wit_PowerLimits_airflow : airFault cool = false ∧ airFault { cool with inlet := [] } = true ∧ (base.takeAir cool).pwr.af = none ∧
    ((blown 800 800).takeAir cool).pwr.af = some 800 ∧ ((blown 800 800).takeAir cool).pwr.afFast = 800 ∧
    ((blown 800 800).takeAir cool).pwr.afSlowMilli cool = 800 ∧ (blown 800 800).pwr.airKnown = false ∧
    ((blown 299 0).takeAir cool).pwr.af = some 299 ∧ ((blown 299 0).takeAir cool).pwr.afFast < 300 ∧
    (blown 800 800).pwr.afOkAt = some 0 ∧ 0 + 10000000 ≤ base.now := by
  have keeps : ∀ s : State, s.takeAir cool = match s.pwr.af with | some af => { s with pwr := s.pwr.takeAf af } | none => s := by
    intro s; simp only [State.takeAir, cool_keeps, show airFault cool = false by decide +kernel]; rfl
  simp only [keeps]; decide +kernel

/-- HINT bodies: a level, a CANCEL, and a level of 4. -/
def hintFs (level flags : Nat) : List (Nat × Nat) := [(0, 9), (2, 1), (8, level), (9, flags), (12, if flags = 0 then 1000000 else 0)]

theorem wit_HintsModesEnergy :
    let en := ctx1.setBit PWR_POLICY PWR_POLICY_HINT_EN true
    let h : Hint := { ring := 128, seq := 0, ctx := 1, part := 0, level := 3, result := 0, at_ := 0, readyAt := 0, endAt := 0 }
    let hinted : State := { en with pwr := { en.pwr with hints := [h] } }
    let bound : State := { en with pwr := { en.pwr with rungs := [(1, 3)] } }
    let away := en.setPart 0 { en.part 0 with current := none }
    let change : State := { base with pwr := { base.pwr with toChange := [7] } }
    let claimed := (kernelState kernelOn)
    atHead (onRing en 128 (hintFs 3 0)) 128 clHint 3 (item (hintFs 3 0)) = true ∧ hintFieldsOk (desc (hintFs 3 0)) = true ∧
      atHead (onRing en 128 (hintFs 0 1)) 128 clHint 0 (item (hintFs 0 1)) = true ∧ hintFieldsOk (desc (hintFs 0 1)) = true ∧
      atHead (onRing en 128 (hintFs 4 0)) 128 clHint 4 (item (hintFs 4 0)) = true ∧ hintFieldsOk (desc (hintFs 4 0)) = false ∧
      en.bit PWR_POLICY PWR_POLICY_HINT_EN = true ∧ (en.setBit PWR_POLICY PWR_POLICY_HINT_EN false).bit PWR_POLICY PWR_POLICY_HINT_EN = false ∧
      ringCtxD 128 = 1 ∧ en.partOf 1 = some 0 ∧ base.partOf 1 = none ∧ (away.part 0).current ≠ some 1 ∧ away.partOf 1 = some 0 ∧
      (en.part 0).current = some 1 ∧ en.hintBound 0 = false ∧ bound.hintBound 0 = true ∧ en.levelFits 0 3 ≠ 0 ∧
      (en.setFld (PWR_CLU 0) PWR_CLU_VOLTAGE_MV 850).levelFits 0 3 = 0 ∧
      hinted.pwr.hints.find? (fun x => x.ring == 128 && x.seq == 0) = some h ∧ h.endAt ≤ hinted.now ∧ change.pwr.toChange = [7] ∧
      change.cluClaimed 7 = false ∧ adminOk base mgmtRing 0x20 [(9, 1)] = true ∧ dZero (desc (adminFs 0x20 [(9, 1)])) 10 54 = true ∧
      (∀ x, x < 8 → base.cluClaimed x = false) ∧ ((List.range 8).map (claimed.partShare [5])).sum + ((List.range 32).map fun x => [5].getD x 0).sum ≤
        energyUJ (List.replicate 1000 (4800, 1000)) 1000 ∧
      adminOk base mgmtRing 0x21 [(48, 64), (56, 344)] = true ∧ dZero (desc (adminFs 0x21 [(48, 64), (56, 344)])) 9 39 = true := by
  decide +kernel

/-! ### Olper links, pairs and the Verdict Port -/

theorem add_one_ne (w : Nat) (hw : 0 < w) (x : BitVec w) : x + 1#w ≠ x := by
  intro h
  have h1 := congrArg BitVec.toNat h
  have h2 : 1 < 2 ^ w := Nat.one_lt_two_pow (by omega)
  rw [BitVec.toNat_add, BitVec.toNat_ofNat, Nat.mod_eq_of_lt h2] at h1
  have h3 := x.isLt
  by_cases c : x.toNat + 1 < 2 ^ w
  · rw [Nat.mod_eq_of_lt c] at h1; omega
  · rw [show x.toNat + 1 = 2 ^ w by omega, Nat.mod_self] at h1; omega

/-- Port 2 ON in a state, with what it holds. -/
def portIn (state : Nat) (x : Port) : State :=
  (((base.setOn (.port 2) true).setPortState 2 state).setPort 2 x).setFld (OLP_PORT_STATUS 2) OLP_PORT_STATUS_LANES 8

def helloOf (k : BitVec 16) (v : BitVec 8) : Hello := { versions := v, serial := 9, keyClass := k, nonce := 0 }

/-- Every state of a port on its way up, fewer than four lanes, and a LINK_RETRAIN. -/
theorem wit_OlperTraining :
    let good := helloOf Config.keyClass 3
    let retrain := admin (portIn portDown { locked := true }) mgmtRing 0x47 [(9, 2)]
    (portIn portAuth {}).acts ∧ (portIn portAuth {}).hif.works = [] ∧ base.isOn .hcx = true ∧ base.portState 2 = portOff ∧
      laneCount 7 < 4 ∧ 4 ≤ laneCount 15 ∧ (portIn portDown {}).isOn (.port 2) = true ∧ (portIn portTraining {}).portState 2 = portTraining ∧
      ((portIn portDown { locked := true }).port 2).locked = true ∧ ((portIn portDown { locked := true }).port 2).stuck = false ∧
      ((portIn portDown { stuck := true }).port 2).stuck = true ∧ (portIn portAuth {}).portState 2 = portAuth ∧
      ((portIn portAuth {}).port 2).peer = none ∧ linkVersion (helloOf Config.keyClass 4).versions = 0 ∧ linkVersion good.versions ≠ 0 ∧
      atHead retrain mgmtRing clAdmin 0x47 (item (adminFs 0x47 [(9, 2)])) = true ∧ dZero (desc (adminFs 0x47 [(9, 2)])) 10 54 = true ∧
      retrain.isOn (.port 2) = true := by
  simp only [State.acts]; decide +kernel

/-- HELLOs of this module's key class and of another, and a wrong proof. -/
theorem wit_OlperTraining_keys :
    let good := helloOf Config.keyClass 3
    let v := proofOf good.serial good.nonce (Config.draw 0)
    (helloOf (Config.keyClass + 1) 3).keyClass ≠ Config.keyClass ∧ good.keyClass = Config.keyClass ∧
      ((portIn portAuth { peer := some good }).port 2).peer = some good ∧
      ((portIn portAuth { peer := some good }).port 2).wait1 = [] ∧ v + 1 ≠ v :=
  ⟨add_one_ne 16 (by decide) _, rfl, rfl, rfl, add_one_ne 256 (by decide) _⟩

def hdr (ack : Nat) (tag : Bool) : OlpHdr := { ctr := 0, ack := ack, cred0 := 1, cred1 := 64, crcOk := true, tagOk := tag }
def linkFrame (tries : Nat) : LinkFrame := { ftype := 0x20, vc := 1, addr := 0, payload := [], tries := tries }

/-- A member of a cascade of two at position 0 with port 2 UP and a receive window 15 of context 1 on it; and a pair that
compares digests. -/
def ringMember : State :=
  let s := (portIn portUp {}).setFld OLP_CASCADE OLP_CASCADE_SIZE 2
  { s with olp := { s.olp with windows := [(47, { isSend := false, ctx := 1, base := 0x100000, len := 4096 })] } }
def digests (stn : Stn) : State :=
  let s := (base.setBit OLP_PAIR OLP_PAIR_PAIRED true).setBit OLP_PAIR OLP_PAIR_DIGEST_EN true
  { (s.setPortState 0 portUp) with stn := stn }

theorem wit_OlperFrames :
    let one := fun n => portIn portUp { unacked := [linkFrame n] }
    let lane := (one 7).setMaskBit (OLP_PORT_STATUS 2) OLP_PORT_STATUS_LANE_MASK 7 true
    (one 0).acts ∧ (one 0).hif.works = [] ∧ (one 0).takes 2 (hdr 0 true) ∧ ((one 0).port 2).wait0 = [] ∧ ((one 0).port 2).wait1 = [] ∧
      ((one 0).port 2).unacked.filter (fun f => !(ackCovers (hdr 0 true).ack f.ctr)) = [] ∧ (hdr 0 false).tagOk = false ∧
      (one 0).portState 2 = portUp ∧ ((one 0).port 2).unacked ≠ [] ∧ (∀ f ∈ ((one 7).port 2).unacked, f.tries < 8) ∧
      ¬ (∀ f ∈ ((one 8).port 2).unacked, f.tries < 8) ∧ lane.maskBit (OLP_PORT_STATUS 2) OLP_PORT_STATUS_LANE_MASK 7 = true ∧
      4 < lane.fld (OLP_PORT_STATUS 2) OLP_PORT_STATUS_LANES ∧ lane.fld (OLP_PORT_STATUS 2) OLP_PORT_STATUS_VERSION ≠ 1 ∧
      (lane.setFld (OLP_PORT_STATUS 2) OLP_PORT_STATUS_LANES 4).fld (OLP_PORT_STATUS 2) OLP_PORT_STATUS_LANES ≤ 4 := by
  simp only [State.acts, State.takes]; decide +kernel

theorem wit_OlperFrames_ring :
    let s := ringMember
    let both := ((s.setOn (.port 1) true).setPortState 1 portUp).setFld OLP_CASCADE OLP_CASCADE_SIZE 4
    let gen := (4096 * ((s.xlaunchNow + 1) % 2 ^ 20))
    s.takes 2 (hdr 0 true) ∧ 64 ≤ s.maxData 2 ∧ (List.replicate 64 (7 : Byte)).length % 64 = 0 ∧
      tabGet? s.olp.windows (16 * 2 + 15) = some { isSend := false, ctx := 1, base := 0x100000, len := 4096 } ∧
      s.hitsProt 1 (0x100000 + 4032) 64 = false ∧ tabGet? s.olp.windows (16 * 2 + 14) = none ∧ 2 ≤ s.fld OLP_CASCADE OLP_CASCADE_SIZE ∧
      1 ≠ s.fld OLP_CASCADE OLP_CASCADE_POSITION ∧ s.genAhead gen = 1 ∧ s.genAhead (4096 * s.xlaunchNow) = 0 ∧
      both.takes 2 (hdr 0 true) ∧ both.ringPeer 1 ≠ 2 ∧ both.portState 1 = portUp ∧ (both.port 1).wait0 = [] ∧ (both.port 1).wait1 = [] ∧
      0 < (both.port 1).cred0 ∧ both.fld (OLP_PORT_STATUS 1) OLP_PORT_STATUS_VERSION ≠ 1 ∧ 0 < both.fld OLP_CASCADE OLP_CASCADE_SIZE := by
  simp only [State.takes]; decide +kernel

theorem wit_OlperFrames_digest :
    let key := digKey 4095 0x3FFFF
    let mine := digests { closed := [(key, (false, 1))] }
    let theirs := digests { theirs := [(key, (false, 2, 0))] }
    mine.takes 0 (hdr 0 true) ∧ mine.digesting = true ∧ tabGet? mine.stn.settled 4095 ≠ some 0x3FFFF ∧
      tabGet? mine.stn.closed key = some (false, 1) ∧ (1 : W64) ≠ 2 ∧ tabGet? (digests {}).stn.closed key = none ∧
      tabGet? theirs.stn.theirs key = some (false, 2, 0) ∧ 0 + 1000000 ≤ theirs.now ∧ tabGet? theirs.stn.closed key = none := by
  simp only [State.takes]; decide +kernel

/-- Cascades, windows and pairs by the management ring, with a link of either version. -/
theorem wit_PairOperations :
    let ok := fun (s : State) (op : Nat) (m : List (Nat × Nat)) => adminOk s mgmtRing op m
    let d := fun (op : Nat) (m : List (Nat × Nat)) => desc (adminFs op m)
    let old := fun p => (base.setPortState p portUp).setFld (OLP_PORT_STATUS p) OLP_PORT_STATUS_VERSION 1
    let win := [(9, 2), (10, 15), (11, 1), (12, 1), (16, 0xFFFFC0), (24, 64)]
    let withRole := fun r => base.setFld OLP_ROLE OLP_ROLE_ROLE r
    let heart : Heart := { claim := 0, role := roleStandby, flags := 0, number := 0, config := 0, windows := 0, device := 0 }
    let active : State := { (withRole roleActive).setBit OLP_ROLE OLP_ROLE_PARTNER_UP true with pair := { partner := some heart } }
    let pair := [(9, 1), (10, 255), (11, 168), (12, 15), (16, 9)]
    ok base 0x44 [(9, 4), (10, 3)] = true ∧ cascadeFieldsOk (d 0x44 [(9, 4), (10, 3)]) = true ∧ cascadeFieldsOk (d 0x44 [(9, 1)]) = true ∧
      (old 2).portState 2 = portUp ∧ (old 2).fld (OLP_PORT_STATUS 2) OLP_PORT_STATUS_VERSION = 1 ∧ base.portState 1 ≠ portUp ∧
      base.portState 2 ≠ portUp ∧ (base.setBit OLP_CASCADE OLP_CASCADE_FORMED true).bit OLP_CASCADE OLP_CASCADE_FORMED = true ∧
      ok ctx1 0x45 win = true ∧ dZero (d 0x45 win) 13 3 = true ∧ dZero (d 0x45 win) 32 32 = true ∧ inDram 0xFFFFC0 64 = true ∧
      ctx1.inGrant 1 0xFFFFC0 64 = true ∧ tabGet? ctx1.olp.windows 47 = none ∧ (tabGet? ringMember.olp.windows 47).isSome = true ∧
      ok ringMember 0x46 [(9, 2), (10, 15)] = true ∧ dZero (d 0x46 [(9, 2), (10, 15)]) 11 53 = true ∧ ringMember.windowBusy 47 = false ∧
      ok base 0x40 pair = true ∧ pairFieldsOk (d 0x40 pair) = true ∧ pairFieldsOk (d 0x40 []) = true ∧ base.role ≠ roleSwapping ∧
      (old 0).portState 0 = portUp ∧ base.portState 0 ≠ portUp ∧ ok active 0x41 [] = true ∧ dZero (d 0x41 []) 9 55 = true ∧
      active.pair.swap = none ∧ active.role = roleActive ∧ active.partnerIn roleStandby = true ∧ ok base 0x42 [] = true ∧
      base.pair.leaving = none ∧ base.stn.op = none ∧ ok (withRole roleIsolated) 0x43 [] = true ∧ (withRole roleIsolated).role = roleIsolated ∧
      base.role ≠ roleIsolated := by decide +kernel

/-- A descriptor of each class that an ISOLATED module answers at the head of its ring. -/
theorem wit_PairOperations_isolated :
    ([(clDma, 1), (clDma, 2), (clSeq, 4), (clSeq, 5), (clSent, 3), (clSent, 5), (clHint, 0)].all fun p =>
      let fs := [(0, p.1), (2, 1), (8, p.2)]
      let s := onRing (base.setFld OLP_ROLE OLP_ROLE_ROLE roleIsolated) 128 fs
      decide (s.role = roleIsolated) && s.linkUp && !(s.ring 128).mute && decide (s.headOf 128 p.1 = some (item fs)) &&
        decide (dF (desc fs) 8 1 = p.2)) = true := by decide +kernel

/-- A module of a pair in a role, with port 0 UP, the Sentinel running, and a partner of the same configuration at claim 0. -/
def pairHeart (role : Nat) (flags : BitVec 8) : Heart :=
  { claim := 0x102, role := role, flags := flags, number := 0, config := base.configDigest, windows := 0
    device := BitVec.ofNat 16 (base.fld GLB_ID GLB_ID_DEVICE) }
def paired (role : Nat) (x : PairSt) : State :=
  let s := ((base.setReg (OLP_PORT_PEER 0) 9).setPortState 0 portUp).setBit STN_STATUS STN_STATUS_RUNNING true
  let s := (s.setBit OLP_PAIR OLP_PAIR_PAIRED true).setFld OLP_ROLE OLP_ROLE_ROLE role
  let s := (((s.setFld OLP_PAIR OLP_PAIR_SWAP_PERIOD_H 1).setFld OLP_PAIR OLP_PAIR_PREFERENCE 5).setBit OLP_PAIR OLP_PAIR_REVERT_EN true).setBit OLP_ROLE OLP_ROLE_PARTNER_UP true
  { s.setFld OLP_CASCADE OLP_CASCADE_SIZE 2 with pair := x }
def partnered : PairSt := { serial := 9, partner := some (pairHeart roleActive 0), lastHb := some 0, bothSince := some 0 }

/-- Its ring port 2 is UP as well. -/
def portsUp (s : State) : State := (s.setOn (.port 2) true).setPortState 2 portUp

theorem paired_digest (r : Nat) (x : PairSt) (h : (paired r x).stn = base.stn) : (paired r x).configDigest = base.configDigest := by
  simp only [State.configDigest, State.chan, h]; rfl

/-- HEALTH_OK on a STANDBY module, and a partner that is not refused. -/
theorem paired_healthy : (paired roleStandby partnered).healthOk = true ∧ (paired roleStandby partnered).refuses (pairHeart roleActive 2) = false ∧
    (portsUp (paired roleStandby partnered)).healthOk = true := by
  have h := paired_digest roleStandby partnered (by decide +kernel)
  have p : (paired roleStandby partnered).pair.partner = some (pairHeart roleActive 0) := rfl
  have u : (portsUp (paired roleStandby partnered)).configDigest = base.configDigest := by
    have e : (portsUp (paired roleStandby partnered)).stn = base.stn := by decide +kernel
    simp only [State.configDigest, State.chan, e]; rfl
  have q : (portsUp (paired roleStandby partnered)).pair.partner = some (pairHeart roleActive 0) := rfl
  refine ⟨?_, ?_, ?_⟩
  · simp only [State.healthOk, p, pairHeart, h, beq_self_eq_true]; decide +kernel
  · simp only [State.refuses, pairHeart, h, bne_self_eq_false]; decide +kernel
  · simp only [State.healthOk, q, pairHeart, u, beq_self_eq_true]; decide +kernel

/-- Heartbeats of a STANDBY and an ACTIVE module; timers past their ends. -/
theorem wit_PairTakeover :
    let s := paired roleStandby partnered
    let a := paired roleActive partnered
    let x : Swap := { cause := causeRoleSwap, work := none, at_ := some 0 }
    let g := paired roleSwapping { partnered with swap := some x }
    let due := (paired roleActive {}).setBit OLP_ROLE OLP_ROLE_SWAP_DUE true
    let lone := (paired roleStandby {}).setPortState 0 portOff
    let hd : OlpHdr := { ctr := 0, ack := 0, cred0 := 0, cred1 := 0, crcOk := true, tagOk := true }
    s.acts ∧ s.paired = true ∧ s.pair.swap = none ∧ s.portState 0 = portUp ∧ s.role = roleStandby ∧ (s.port 0).wait0 = [] ∧
      0 < (s.port 0).cred0 ∧ s.takes 0 hd ∧ s.pair.leaving = none ∧ (pairHeart roleActive 0).flags.getLsbD 1 = false ∧
      (pairHeart roleActive 2).flags.getLsbD 1 = true ∧ max s.pair.seen (0x102 / 256) < epochTop ∧ a.role = roleActive ∧ a.takes 0 hd ∧
      s.pair.lastHb = some 0 ∧ max 0 s.pair.changedAt + 65 ≤ s.now ∧ s.mayTake ∧ a.role ≠ roleStandby ∧ lone.mayTake ∧
      lone.pair.heard = false ∧ lone.portState 0 ≠ portUp ∧ max lone.pair.pairedAt lone.pair.alone + 1000000 ≤ lone.now ∧ lone.paired = true ∧
      2 ≤ s.fld OLP_CASCADE OLP_CASCADE_SIZE ∧ s.mayTake ∧
      (portsUp s).takes 2 hd ∧ (portsUp s).mayTake ∧ g.pair.swap = some x ∧ g.role = roleSwapping ∧ 0 + 100 ≤ g.now ∧
      s.bit OLP_PAIR OLP_PAIR_REVERT_EN = true ∧ 0x102 % 256 < s.fld OLP_PAIR OLP_PAIR_PREFERENCE ∧ s.pair.bothSince = some 0 ∧
      0 + 10000000 ≤ s.now ∧ a.bit OLP_ROLE OLP_ROLE_SWAP_DUE = false ∧ a.pair.changedAt + a.swapPeriod ≤ a.now ∧
      a.pair.deferUntil ≤ a.now ∧ due.bit OLP_ROLE OLP_ROLE_SWAP_DUE = true ∧ due.pair.dueAt + 100000 ≤ due.now := by
  simp only [State.acts, State.takes, State.mayTake]; decide +kernel

/-- The partner of paired_healthy is ACTIVE, and up. -/
theorem wit_PairTakeover_partner : (paired roleStandby partnered).partnerIn roleActive = true := by
  have p : (paired roleStandby partnered).pair.partner = some (pairHeart roleActive 0) := rfl
  simp only [State.partnerIn, p, pairHeart]; decide +kernel

/-- Frames of a transmitting module by what waits; a good CLAIM and VERDICT frame above, at and below the held claim. -/
theorem wit_VerdictFrames :
    let on := fun (v : Vrd) (rs : List VRec) => ({ base with vrd := { v with open_ := true }, stn := { sentState.stn with records := rs } } : State)
    let r : VRec := { chan := 4095, seq := 0, verdict := 2, prev := 1, score := 0, est := 0, flags := 0 }
    let claim := verdictFrame ftClaim 0 7 (leBytes 15 0) 0
    let verdict := verdictFrame 1 0 7 (verdictBody 4095 2 0 1 0 0 0) 0
    let m : Merge := { held := 7, followed := some 1 }
    base.txOn = false ∧ (on {} []).txOn = true ∧ (on {} []).vrd.lastAt ≠ some base.now ∧ (on { claimDue := true } []).vrd.claimDue = true ∧
      (on { resync := [4095] } []).resyncDue = [4095] ∧ (on {} [r]).resyncDue = [] ∧ (on {} [r]).stn.records = [r] ∧
      frameOk [] = false ∧ frameOk claim = true ∧ frameOk verdict = true ∧
      m.accepts 1 claim = true ∧ m.accepts 0 claim = false ∧ ({} : Merge).accepts 0 verdict = true ∧ ({} : Merge).held < frameClaim verdict ∧
      fByte verdict 0 ≠ ftClaim ∧ fByte claim 0 = ftClaim ∧ base.merge.lastAt + 50000 ≤ base.now := by
  decide +kernel

/-- No frame has been sent yet, so the interval to the last one has passed. -/
theorem wit_VerdictFrames_lastAt (a : Nat) (h : ({} : Vrd).lastAt = some a) : a + 10 ≤ base.now := nomatch h

/-! ### The management port, armed changes and the Relay chain -/

/-- The always-on domain at a level, with an address or none, and an event that waits. -/
def served (l : Level) (addr : Option Nat) : State := { base with aon := { aon with level := l, i3cAddr := addr, events := [(evLink, 1)] } }

theorem wit_ManagementPort :
    (served .bootRom none).live ∧ (served .bootRom none).aon.level = .bootRom ∧ (served .loader none).live ∧
      (served .loader none).aon.level = .loader ∧ loaderSensor 21 = false ∧ loaderSensor 20 = true ∧ (base.sensorBytes 20).isSome = true ∧
      base.live ∧ base.aon.level = .pedestal ∧ (served .bootRom none).aon.i3cAddr = none ∧
      (served .pedestal (some 127)).aon.events = [(evLink, 1)] ∧ (served .pedestal (some 127)).aon.i3cAddr = some 127 ∧
      (base.sensorBytes 21).isSome = true ∧ base.sensorBytes 10 = none := by
  simp only [State.live]; decide +kernel

/-- Armed changes: a mode, one SETTINGS record, an image. -/
def armReq (kind : Nat) : ArmReq :=
  { kind := kind, changeId := 5, mode := 1, imageId := 7, records := if kind = 2 then [6, 0, 2, 0, 44, 1] else [] }
def armHeld (kind at_ : Nat) : ArmHeld := { changeId := 5, kind := kind, mode := 1, imageId := 7, records := (armReq kind).records, acceptedAt := at_ }

/-- RESERVE_OK high or low, with a change armed, an image staged. -/
def armState (a : Option ArmHeld) (reserve : Bool) : State :=
  let s : State := { base with aon := { aon with arm := a, reserveOk := reserve, movingUntil := some 0 } }
  (s.setFld MGT_UPDATE MGT_UPDATE_STATE usStaged).setFld MGT_UPDATE MGT_UPDATE_IMAGE_ID 7

theorem wit_ArmedChanges :
    let idle := armState none true
    let used : State := { idle with aon := { idle.aon with settings := { idle.aon.settings with lastChangeId := 5 } } }
    let held := fun k => armState (some (armHeld k 0)) true
    let struck : State := { idle with aon := { idle.aon with strobeAt := some 3999999999 } }
    idle.live ∧ idle.aon.cast.frozen = false ∧ idle.aon.movingUntil = some 0 ∧ 0 ≤ idle.now ∧ 5000 < 5001 ∧ ¬ (15000 < Int.natAbs (-15000)) ∧
      (armHeld 1 0).acceptedAt + 1000000 * (held 1).aon.settings.armTtl ≤ (held 1).now ∧ idle.aon.level = .pedestal ∧
      armFieldsOk { armReq 1 with mode := 2 } = false ∧ ([1, 2, 3].all fun k => armFieldsOk (armReq k)) = true ∧
      ([1, 2, 3].all fun k => idle.armRefusal (armReq k) == rsNone) = true ∧ used.armRefusal (armReq 1) = rsIdUsed ∧
      (held 1).armRefusal (armReq 3) = rsArmBusy ∧ (armState none false).armRefusal (armReq 3) ∉ [rsNone, rsIdUsed, rsArmBusy] ∧
      (held 1).aon.arm = some (armHeld 1 0) ∧ (armHeld 1 0).changeId = (5#32).toNat ∧ struck.recent struck.aon.strobeAt 100000 = true ∧
      idle.recent idle.aon.strobeAt 100000 = false ∧ (armState (some (armHeld 1 4000000000)) true).now < 4000000000 + 1000 ∧
      (armHeld 1 0).acceptedAt + 1000 ≤ (held 1).now ∧ (armHeld 1 0).mode < 2 ∧ parseRecs 256 (armHeld 2 0).records = some [(6, [44, 1])] ∧
      (held 3).refuseReason = rsNone ∧ (armState (some (armHeld 3 0)) false).refuseReason ≠ rsNone ∧ (held 3).strobeYields = false ∧
      (held 3).servesPair = false ∧ (held 3).imageOk ((held 3).imageFacts goodImage) = true ∧ ((held 3).imageFacts goodImage).imageId.toNat = (armHeld 3 0).imageId ∧
      (held 3).aon.permit = false ∧ goodAon.loaderOk = true ∧ { goodAon with loaderOk := false }.loaderOk = false := by
  simp only [State.live]; decide +kernel

theorem wit_ManagementRing :
    let ok := fun (op : Nat) (m : List (Nat × Nat)) => adminOk (armState none true) mgmtRing op m
    let d := fun (op : Nat) (m : List (Nat × Nat)) => desc (adminFs op m)
    let held := armState (some (armHeld 1 0)) true
    let image := [(9, 3), (12, 5), (20, 7)]
    let recs := [(9, 2), (12, 5), (48, 0x1000), (56, 6)]
    let b : List Byte := [6, 0, 2, 0, 44, 1]
    ok 0x31 image = true ∧ armDescOk (d 0x31 image) = true ∧ armDescOk (d 0x31 [(9, 4)]) = false ∧ ok 0x31 [(9, 4)] = true ∧
      dF (d 0x31 image) 9 1 ≠ 2 ∧ (armState none true).armRefusal (armReqOf (d 0x31 image) []) = rsNone ∧
      (armState none false).armRefusal (armReqOf (d 0x31 image) []) ≠ rsNone ∧ ok 0x31 recs = true ∧ armDescOk (d 0x31 recs) = true ∧
      dF (d 0x31 recs) 9 1 = 2 ∧ dF (d 0x31 recs) 56 4 ≤ b.length ∧ armFieldsOk (armReqOf (d 0x31 recs) (b.take 6)) = true ∧
      armFieldsOk (armReqOf (d 0x31 recs) (List.replicate 6 7)) = false ∧ ok 0x32 [(12, 5)] = true ∧ dZero (d 0x32 [(12, 5)]) 9 3 = true ∧
      dZero (d 0x32 [(12, 5)]) 16 48 = true ∧ held.aon.arm = some (armHeld 1 0) ∧ dF (d 0x32 [(12, 5)]) 12 4 = (armHeld 1 0).changeId ∧
      dF (d 0x32 [(12, 6)]) 12 4 ≠ (armHeld 1 0).changeId ∧ ok 0x33 [(9, 1)] = true ∧ dZero (d 0x33 [(9, 1)]) 10 54 = true ∧ ok 0x33 [(9, 2)] = true ∧
      ok 0x34 [] = true ∧ dZero (d 0x34 []) 9 3 = true ∧ dZero (d 0x34 []) 16 48 = true ∧ dF (d 0x34 []) 12 4 ≤ base.fld MGT_IMAGE MGT_IMAGE_SVN ∧
      base.fld MGT_IMAGE MGT_IMAGE_SVN < dF (d 0x34 [(12, 1)]) 12 4 ∧ ok 0x34 [(12, 1)] = true ∧ ok 0x35 [(48, 64), (56, 16)] = true ∧
      dZero (d 0x35 [(48, 64), (56, 16)]) 16 32 = true ∧ dZero (d 0x35 [(48, 64), (56, 16)]) 60 4 = true ∧
      (({ base with nv := { base.nv with log := [{ uptime := 0, boots := 0, code := 1, arg := 0 }] } }).nv.log.drop 0).take (16 / 16) ≠ [] := by
  decide +kernel

/-- A Relay header that passes its checks: for this module's slot, for slot 47, for all. -/
def relayHdr (dst hops : Nat) : RelayHdr := { down := true, src := 3, dst := dst, hops := hops, crcOk := true, tagOk := true }
def relayRow : ModuleRow := { serial := 9, phase := 0, update := 0, arm := 0, changeId := 0, role := 0, partner := 11, seenAt := 0 }

theorem wit_RelayFrames :
    let m : State := { (base.setBit MGT_STATE MGT_STATE_MANAGER true) with aon := { aon with modules := [(3, relayRow)] } }
    let low := served .loader none
    let port : W32 := BitVec.ofNat 32 (putBits 0 OLP_PORT_STATUS_STATE portUp).toNat
    base.live ∧ base.aon.level ≠ .off ∧ (relayHdr 0 1).crcOk = true ∧ { relayHdr 0 1 with tagOk := false }.tagOk = false ∧
      (relayHdr 0 1).dst = base.slot ∧ (relayHdr 0xFF 47).dst = 0xFF ∧ ¬ ((relayHdr 47 2).dst = base.slot ∨ (relayHdr 47 2).dst = 0xFF) ∧
      base.flow 7 = none ∧ base.aon.level = .pedestal ∧ low.live ∧ low.aon.level ≠ .pedestal ∧ 1 < (relayHdr 0 2).hops ∧
      base.aon.slotInvalid = false ∧ 50000 ≤ base.now ∧ base.recent base.aon.lastLinkUp 50000 = false ∧ m.live ∧ m.isManager = true ∧
      (paired roleStandby partnered).paired = true ∧ (paired roleStandby partnered).pair.serial = 9 ∧
      tabGet? m.aon.modules (relayHdr 0 1).src = some relayRow ∧ cablingBad (m.wantedPeers relayRow) [port] [12] = true := by
  simp only [State.live]; decide +kernel

/-- An image of `n` bytes on its way through the module, writing or not. -/
def flowOf (n : Nat) (acc : Bool) : ImageFlow :=
  { head := { imageId := 7, length := n, digest := 0 }, src := 3, dst := 0xFF, hops := 5, accepted := acc }
def imageState (f : Option ImageFlow) (update : Nat) (offer : Option OfferPart) : State :=
  let flows := match f with | some g => [(7, g)] | none => []
  let s : State := { base with aon := { aon with reserveOk := true, flows := flows, offer := offer } }
  s.setFld MGT_UPDATE MGT_UPDATE_STATE update

theorem wit_ImageTransfer :
    let z : List Byte := List.replicate 1024 0
    let p : OfferPart := { imageId := 7, parts := [(0, z), (1024, z), (2048, z)], at_ := 0 }
    let s := imageState none usIdle (some p)
    let all := tabSet p.parts 3072 z
    let g := flowOf 2048 true
    let w := imageState (some g) usWriting none
    let one := imageState (some (flowOf 1024 true)) usWriting none
    let un := fun l => imageState (some { g with unacked := l }) usWriting none
    let seen : State := { s with aon := { s.aon with modules := [(47, { relayRow with update := usRecovery, seenAt := s.now })] } }
    s.live ∧ s.aon.level ≠ .bootRom ∧ s.aon.level ≠ .off ∧ (relayHdr 0 1).down = true ∧ 3072 ∈ [0, 1024, 2048, 3072] ∧ z.length = 1024 ∧
      s.aon.offer = some p ∧ all.length = 4 ∧ (tabSet [] 0 z).length ≠ 4 ∧ s.flow 7 = none ∧
      s.acceptsOffer { offerHead (headerOf all) with imageId := 7 } true = true ∧
      (imageState none usWriting none).acceptsOffer { offerHead (headerOf all) with imageId := 7 } true = false ∧
      w.live ∧ w.flow 7 = some g ∧ g.injected = false ∧ g.own = false ∧ 1024 % frameSize = 0 ∧ z.length = min frameSize (g.head.length - 1024) ∧
      0 ∉ g.got ∧ 0 ∈ ({ g with got := [0] } : ImageFlow).got ∧
      ((chunkOffsets 2048 0).all fun x => (tabGet? (tabSet g.buffer 1024 z) x).isSome) = false ∧
      ((chunkOffsets 1024 0).all fun x => (tabGet? (tabSet g.buffer 0 z) x).isSome) = true ∧ one.flow 7 = some (flowOf 1024 true) ∧
      w.update = usWriting ∧ (flowOf 1024 true).got.length + 1 = chunkCount 1024 ∧ g.got.length + 1 ≠ chunkCount 65537 ∧
      (relayHdr 0 1).down ≠ g.up ∧ { relayHdr 0 1 with down := false }.down = g.up ∧ g.waiting = [] ∧
      (un [(0, 0, 0), (1, 0, 0)]).flow 7 = some { g with unacked := [(0, 0, 0), (1, 0, 0)] } ∧
      (un [(0, 0, 0)]).overdue 0 = some ({ g with unacked := [(0, 0, 0)] }, 0) ∧
      (un [(0, 4, 0)]).overdue 0 = some ({ g with unacked := [(0, 4, 0)] }, 4) ∧ p.at_ + 500000 ≤ s.now ∧ seen.shows 47 usRecovery = true ∧
      seen.nearestIdle 47 = true ∧ seen.aon.level = .pedestal ∧ 47 ≠ seen.slot ∧ seen.aon.slotInvalid = false ∧
      seen.flow (seen.fld MGT_IMAGE MGT_IMAGE_IMAGE_ID) = none := by
  simp only [State.live]; decide +kernel

/-- IMAGE_INJECT at the head of the management ring with a header that fits, and one whose header has come. -/
theorem wit_ImageTransfer_inject :
    let m := [(48, 0x1000), (56, 4096)]
    let s := admin (imageState none usIdle none) mgmtRing 0x30 m
    let d := desc (adminFs 0x30 m)
    let b := leBytes 4096 (0x5746514B + 7 * 256 ^ 8)
    let x := { offerHead (b.take 4096) with length := dF d 56 4 }
    let w := mkWork mgmtRing (item (adminFs 0x30 m)) 0x30 .running
    let g := { flowOf 4096 true with injected := true, waiting := [0] }
    let i := imageState (some g) usWriting none
    let i := { i with hif := { i.hif with works := [w] } }
    adminOk (imageState none usIdle none) mgmtRing 0x30 m = true ∧ injectFieldsOk d = true ∧
      injectFieldsOk (desc (adminFs 0x30 [(56, 4095)])) = false ∧ 4096 ≤ b.length ∧ bf (b.take 4096) 0 4 = 0x5746514B ∧ x.imageId ≠ 0 ∧
      s.injected = none ∧ s.flow x.imageId.toNat = none ∧ s.acceptsOffer x false = true ∧ i.acts ∧ i.hears mgmtRing ∧ i.hif.works = [w] ∧
      i.injectWork mgmtRing = some w ∧ i.injected = some g ∧ g.waiting.length < 2 := by
  simp only [State.acts, State.hears]; decide +kernel

/-! ## Ill-formed commands, and small steps -/

/-- One ill-formed command for each check of WellFormed.lean. -/
def illFormed : List Instr :=
  let h : OlpHdr := { ctr := 0, ack := 0, cred0 := 0, cred1 := 0, crcOk := true, tagOk := true }
  [.registerWrite 34 0 32 .read, .registerWrite 0 0x4501000 32 .read, .registerWrite 0 0 24 .read, .glbSetupLockSet 34 0, .domainOff (.tile 64),
    .domainOn (.hub 8), .domainOff (.mem 12), .domainOn (.codec 8), .domainOff (.port 3), .attend 4097, .claimGrant 8, .staggerWave 8,
    .icacheFill 64 0, .bankClear 512, .bankOwnerWrite 0 (some 32), .pftW0Write 0 32768 0, .holdEnd 4096 (.data []), .stnCtrlEnable 0,
    .stnCtrlDisable 0x80000000, .sentinelDoorbell 33 0 64 0, .sentinelDoorbell 0 0 12 0, .staleTimeout 4096] ++
  [.pcieLinkUp 3 1, .pcieLinkUp 16 6, .vfFlr 33, .vfFlr 0, .servingFunctionChange 33 true, .descriptorFetch 0 0 (.data []),
    .ctxRingEnable 0 32 0, .patrolRead 12 .clean, .sliceExpiry 8, .tjHighStep 9 0, .tjTrip 85, .modeChangeCluster 8, .idle 3 h,
    .laneDrop 0 8, .data 0 h 0 0 [], .data 1 h 16 0 [], .digest 1 h 0 0 false 0, .digest 0 h 4096 0 false 0, .digest 0 h 0 (2 ^ 18) false 0,
    .cascadeDegraded 0, .mergeFrame 2 [], .mergeLinePin 0 8 true, .entdaa 128, .pldmSensorRead 256, .setLock 2, .setCap 65536 false,
    .recoveryImageSend 48, .bypass 0x20, .monCntSelWrite 16 0, .monHistCfgWrite 8 0, .msixUnmask 0 2048]

theorem test_ill_formed_refused : (illFormed.all fun i => !i.wellFormed) = true := by decide

/-- Neighbours of theirs at the last value in range. -/
theorem test_well_formed : ([.registerWrite 33 0x4500FFF 32 .read, .domainOff (.tile 63), .attend 4096, .bankOwnerWrite 511 (some 31), .vfFlr 32, .tjTrip 84,
    .bypass 0xFF, .msixUnmask 32 2047] : List Instr).all Instr.wellFormed = true := by decide

/-- The table gives no row a bit, so no word spells a command, and the queue stays as it is. -/
theorem test_no_word_decodes : decodeTableWord 32 0x12345678 = none ∧ (base.withFetchWord 32 7).pending = base.pending := ⟨rfl, rfl⟩

/-- The check value of CRC-16 with polynomial 0x1021, initial 0xFFFF, no reflection and no final XOR (Table 6 of Olper Links,
Cascades and Hot-Standby Pairs) for the digits 1 to 9. -/
theorem test_crc16 : crc16 (strBytes "123456789") = 0x29B1 := by decide +kernel

/-- The state after a command that answers one. -/
def after (i : Instr) (s : State) : State := match exec i s with | .next t => t | _ => s

/-- A FILL of 16 bytes writes its pattern of 8 twice (R249, Table 7). -/
theorem test_dma_fill :
    let f := item [(0, 2), (2, 1), (8, 2), (24, 0x8000), (32, 16), (40, 0x0807060504030201)]
    let t := after (.dmaDone 128 0 (.data []) .clean 0) { ctx1 with hif := { works := [mkWork 128 f 2 .running] } }
    memRead t.mem.dram 0x8000 16 = [1, 2, 3, 4, 5, 6, 7, 8, 1, 2, 3, 4, 5, 6, 7, 8] ∧ t.hif.works = [] := by decide +kernel

/-- A tail doorbell of ring 255 with 16 entries: 16 is taken, 17 halts it (R240). -/
theorem test_tail_doorbell :
    ((after (.submissionTailDoorbell 0 (0x10000 + 8 * 127) 64 16) (bellState 255 0 {})).ring 255).tail = 16 ∧
      ((after (.submissionTailDoorbell 0 (0x10000 + 8 * 127) 64 17) (bellState 255 0 {})).ring 255).halted = true := by decide +kernel

/-- RELEASE ends the registration (R180), and PREEMPT leads to SWAPPING_OUT (R184). -/
theorem test_seq_states : ((after (.seqRelease 128) (seqOp 4)).seq 9).state = .unregistered ∧
    ((after (.seqPreempt 128) (seqOp 5)).seq 9).state = .swappingOut := by decide +kernel

/-- ACK of a TRIP channel: NORMAL after its warm-up only, so LEARNING here (R200). -/
theorem test_sent_ack : ((after (.sentAck 128) (onRing sentState 128 (sentFs 5 5))).chan 5).verdict = vLearning := by decide +kernel

/-- The merge follows the higher claim, and drops a lower one (R331). -/
theorem test_merge :
    let s := after (.mergeFrame 1 (verdictFrame ftClaim 0x80 7 (leBytes 15 0) 0)) base
    s.merge.held = 7 ∧ s.merge.followed = some 1 ∧ s.merge.lines = 0x80 ∧
      (after (.mergeFrame 0 (verdictFrame ftClaim 0 6 (leBytes 15 0) 0)) s).merge.staleClaims = 1 := by decide +kernel

/-- A write of the write-locked BANK_PWR_POLICY under the setup lock is refused and reported (R7). -/
theorem test_locked_free_off :
    let t := after (.freeOffClear 3) (lockedBase.setOn (.tile 3) true)
    t.bit GLB_ERR_STATUS GLB_ERR_STATUS_LOCKED_WRITE = true ∧ t.bit (BANK_PWR_POLICY 3) BANK_PWR_POLICY_FREE_OFF = true := by decide +kernel

/-- DOMAIN_ON of a channel that has not trained leaves its bit clear (R30). -/
theorem test_untrained_channel : (after (.domainOn (.mem 4)) ({ base with aon := { aon with trained := 0 } }.setOn (.mem 4) false)).isOn (.mem 4) = false := by
  decide +kernel

/-- A withdrawn input leaves no switched domain ON, and a loss of AON power no register written (R12, R22). -/
theorem test_input_lost : (after .inputBelowReset base).isOn .hcx = false ∧ (after .aonPowerLoss base).regs = [] := by decide +kernel
end Sys2Proof.Tests
end

section
/-! PROOFS. Conversion to the integer formats (R32, R33): a number rounds to the nearest integer, the even one at a tie, and
what the conversion encodes reads back as the integer that `toIntSat` gives. -/

namespace Sys2Proof.Machine

/-- `v` is the integer nearest to `n / scale`, the even one where `n / scale` lies half way between two (R33). -/
def RoundsToEven (v n scale : Int) : Prop :=
  2 * (v * scale - n).natAbs ≤ scale ∧ (2 * (v * scale - n).natAbs = scale → v % 2 = 0)

theorem roundsToEven_self (v : Int) : RoundsToEven v v 1 := by
  have hd : (v * 1 - v).natAbs = 0 := by omega
  exact ⟨by omega, by omega⟩

theorem RoundsToEven.neg {v n scale : Int} (h : RoundsToEven v n scale) : RoundsToEven (-v) (-n) scale := by
  have hd : (-v * scale - -n).natAbs = (v * scale - n).natAbs := by
    rw [Int.neg_mul]; omega
  obtain ⟨hle, htie⟩ := h
  exact ⟨hd ▸ hle, fun he => by have := htie (hd ▸ he); omega⟩

theorem rneShift_roundsToEven (mag k : Nat) (hk : k ≠ 0) : RoundsToEven (rneShift mag k) mag (2 ^ k) := by
  have hcast : ((2 ^ k : Nat) : Int) = 2 ^ k := Int.natCast_pow 2 k
  have hmag : (mag : Int) = (mag / 2 ^ k : Nat) * 2 ^ k + (mag % 2 ^ k : Nat) := by
    rw [← hcast, ← Int.natCast_mul, ← Int.natCast_add, Nat.div_add_mod']
  have hlt : mag % 2 ^ k < 2 ^ k := Nat.mod_lt _ (Nat.two_pow_pos k)
  simp only [RoundsToEven, rneShift, if_neg hk]
  split
  case isTrue hup =>
    -- rounded up: the distance is what the remainder lacks to a whole unit
    have hd : (((mag / 2 ^ k + 1 : Nat) : Int) * 2 ^ k - mag) = 2 ^ k - (mag % 2 ^ k : Nat) := by
      rw [Int.natCast_add, Int.natCast_one, Int.add_mul, Int.one_mul]; omega
    simp only [Bool.or_eq_true, decide_eq_true_eq, Bool.and_eq_true, beq_iff_eq] at hup
    omega
  case isFalse hdown =>
    have hd : (((mag / 2 ^ k : Nat) : Int) * 2 ^ k - mag) = -(mag % 2 ^ k : Nat) := by omega
    simp only [Bool.or_eq_true, decide_eq_true_eq, Bool.and_eq_true, beq_iff_eq] at hdown
    omega

theorem roundInt_roundsToEven (mag : Nat) (e : Int) :
    RoundsToEven (roundInt mag e) (scaleTo mag e (min e 0)) (2 ^ (-e).toNat) := by
  by_cases he : 0 ≤ e
  · have hz : (-e).toNat = 0 := by omega
    rw [Int.min_eq_right he, hz, Int.pow_zero, roundInt, if_pos he]
    exact roundsToEven_self (scaleTo mag e 0)
  · have hself : scaleTo mag e e = mag := by rw [scaleTo, Int.sub_self, Int.toNat_zero, Nat.pow_zero, Nat.mul_one]
    rw [Int.min_eq_left (by omega), hself, roundInt, if_neg he]
    exact rneShift_roundsToEven mag (-e).toNat (by omega)

/-- The integer that R33 rounds `± mag · 2 ^ e` to, before it saturates. -/
def roundSigned (neg : Bool) (mag : Nat) (e : Int) : Int :=
  if neg then - (roundInt mag e : Int) else roundInt mag e

theorem roundSigned_roundsToEven (neg : Bool) (mag : Nat) (e : Int) :
    RoundsToEven (roundSigned neg mag e) (signedAt neg mag e (min e 0)) (2 ^ (-e).toNat) := by
  cases neg
  · exact roundInt_roundsToEven mag e
  · exact (roundInt_roundsToEven mag e).neg

section
variable (lo hi : Int)

theorem toIntSat_fin_below {neg : Bool} {mag : Nat} {e : Int} (h : roundSigned neg mag e < lo) :
    toIntSat lo hi (.fin neg mag e) = (lo, flFpOverflow) := if_pos h

theorem toIntSat_fin_above {neg : Bool} {mag : Nat} {e : Int} (hr : lo ≤ hi) (h : hi < roundSigned neg mag e) :
    toIntSat lo hi (.fin neg mag e) = (hi, flFpOverflow) :=
  (if_neg (by omega : ¬ roundSigned neg mag e < lo)).trans (if_pos h)

theorem toIntSat_fin_inside {neg : Bool} {mag : Nat} {e : Int} (h1 : lo ≤ roundSigned neg mag e)
    (h2 : roundSigned neg mag e ≤ hi) : toIntSat lo hi (.fin neg mag e) = (roundSigned neg mag e, 0) :=
  (if_neg (by omega : ¬ roundSigned neg mag e < lo)).trans (if_neg (by omega : ¬ roundSigned neg mag e > hi))

theorem toIntSat_inRange (x : Num) (h1 : lo ≤ 0) (h2 : 0 ≤ hi) :
    lo ≤ (toIntSat lo hi x).1 ∧ (toIntSat lo hi x).1 ≤ hi := by
  cases x with
  | nan => exact ⟨h1, h2⟩
  | inf neg =>
    cases neg
    · exact ⟨Int.le_trans h1 h2, Int.le_refl hi⟩
    · exact ⟨Int.le_refl lo, Int.le_trans h1 h2⟩
  | fin neg mag e =>
    by_cases hlo : roundSigned neg mag e < lo
    · rw [toIntSat_fin_below lo hi hlo]; exact ⟨Int.le_refl lo, by omega⟩
    by_cases hhi : hi < roundSigned neg mag e
    · rw [toIntSat_fin_above lo hi (by omega) hhi]; exact ⟨by omega, Int.le_refl hi⟩
    rw [toIntSat_fin_inside lo hi (by omega) (by omega)]; exact ⟨by omega, by omega⟩

end

/-- Two's complement of `k + 1` bits reads back what it encodes (R32). -/
theorem signedOf_toNat_emod (k : Nat) {i : Int} (h1 : -2 ^ k ≤ i) (h2 : i < 2 ^ k) :
    signedOf (k + 1) (i % 2 ^ (k + 1)).toNat = i := by
  have hcast : ((2 ^ k : Nat) : Int) = 2 ^ k := Int.natCast_pow 2 k
  rw [← hcast] at h1 h2
  simp only [signedOf, Nat.add_sub_cancel, Nat.pow_succ, Int.pow_succ, ← hcast]
  generalize 2 ^ k = n at h1 h2
  by_cases hneg : i < 0
  · have hmod : i % (n * 2) = i + n * 2 := by
      rw [← Int.add_emod_right, Int.emod_eq_of_lt (by omega) (by omega)]
    rw [hmod, Nat.mod_eq_of_lt (by omega), if_pos (by omega)]; omega
  · rw [Int.emod_eq_of_lt (by omega) (by omega), Nat.mod_eq_of_lt (by omega), if_neg (by omega)]; omega

/-- Unsigned binary reads back what it encodes (R32). -/
theorem toNat_emod_of_lt {i m : Int} (h1 : 0 ≤ i) (h2 : i < m) : (i.toNat : Int) % m = i := by
  rw [Int.toNat_of_nonneg h1, Int.emod_eq_of_lt h1 h2]

/-- The integer formats of Table 1 with their ranges (R32). -/
def intRanges : List (Fmt × Int × Int) :=
  [(.int8, -128, 127), (.uint8, 0, 255), (.int4, -8, 7), (.uint4, 0, 15), (.int32, -2147483648, 2147483647)]

theorem intRanges_zero {f : Fmt} {lo hi : Int} (hf : (f, lo, hi) ∈ intRanges) : lo ≤ 0 ∧ 0 ≤ hi := by
  simp only [intRanges, List.mem_cons, Prod.mk.injEq, List.not_mem_nil, or_false] at hf
  omega

/-- An element of an integer format reads back as the integer that `toIntSat` gives, with its flags. -/
theorem value_toElem {f : Fmt} {lo hi : Int} (hf : (f, lo, hi) ∈ intRanges) (sat : Bool) (x : Num) :
    f.value (toElem f sat x).1 = .ofInt (toIntSat lo hi x).1 ∧ (toElem f sat x).2 = (toIntSat lo hi x).2 := by
  obtain ⟨hz1, hz2⟩ := intRanges_zero hf
  obtain ⟨h1, h2⟩ := toIntSat_inRange lo hi x hz1 hz2
  simp only [intRanges, List.mem_cons, Prod.mk.injEq, List.not_mem_nil, or_false] at hf
  obtain ⟨rfl, rfl, rfl⟩ | ⟨rfl, rfl, rfl⟩ | ⟨rfl, rfl, rfl⟩ | ⟨rfl, rfl, rfl⟩ | ⟨rfl, rfl, rfl⟩ := hf
  · exact ⟨congrArg Num.ofInt (signedOf_toNat_emod 7 h1 (by omega)), rfl⟩
  · exact ⟨congrArg Num.ofInt (toNat_emod_of_lt h1 (by omega)), rfl⟩
  · exact ⟨congrArg Num.ofInt (signedOf_toNat_emod 3 h1 (by omega)), rfl⟩
  · exact ⟨congrArg Num.ofInt (toNat_emod_of_lt h1 (by omega)), rfl⟩
  · exact ⟨congrArg Num.ofInt (signedOf_toNat_emod 31 h1 (by omega)), rfl⟩

/-- Settles O22: the element reads back as what `toIntSat` gives (`value_toElem`), and `toIntSat` saturates the integer that
`roundSigned_roundsToEven` finds nearest. -/
theorem integerConversion : Obligations.IntegerConversion := by
  unfold Obligations.IntegerConversion
  intro f lo hi sat x hf
  obtain ⟨hz1, hz2⟩ := intRanges_zero hf
  have hgives : ∀ v fl, toIntSat lo hi x = (v, fl) →
      f.value (toElem f sat x).1 = .ofInt v ∧ (toElem f sat x).2 = fl := by
    intro v fl h
    simpa only [h] using value_toElem hf sat x
  refine ⟨?nan, ?inf, ?fin⟩
  case nan => rintro rfl; exact hgives 0 flInvalid rfl
  case inf => rintro neg rfl; exact hgives _ _ rfl
  case fin =>
    rintro neg mag e rfl
    obtain ⟨hnear, htie⟩ := roundSigned_roundsToEven neg mag e
    exact ⟨roundSigned neg mag e, hnear, htie,
      fun h => hgives _ _ (toIntSat_fin_below lo hi h),
      fun h => hgives _ _ (toIntSat_fin_above lo hi (by omega) h),
      fun h1 h2 => hgives _ _ (toIntSat_fin_inside lo hi h1 h2)⟩

end Sys2Proof.Machine
end

section
/-! PROOFS. An encoded picture whose access unit does not fit its output buffer (R229): the cores go idle and the descriptor
completes. With nothing else in flight, its completion leaves no work behind, so that no CODEC operation follows it. -/

namespace Sys2Proof.Machine

/-! ## Completion of the only work in flight -/

variable (s : State)

theorem work?_of_no_works (r seq : Nat) (h : s.hif.works = []) : s.work? r seq = none := by simp [State.work?, h]

theorem dropWork_only (w : Work) (h : s.hif.works = [w]) : (s.dropWork w.ring w.seq).hif.works = [] := by
  simp [State.dropWork, h, Work.is]

theorem recordOf_no_works (r seq : Nat) (tag : W32) (cls status flags words : Nat) (intr : Bool) (h : s.hif.works = []) :
    (s.recordOf r seq tag cls status flags words intr).hif.works = [] := by
  have k := (works_putRecord s r tag seq words status cls flags intr).trans (works_noteDone _ r seq tag cls status)
  simp [State.recordOf, k.works, h]

theorem noteCtxFail_works (r seq status : Nat) : (s.noteCtxFail r seq status).hif.works = s.hif.works := by
  unfold State.noteCtxFail
  split
  · split <;> rfl
  · rfl

/-- The record of an ABORT follows only where the ABORT is still in flight (R255). -/
theorem abortRecords_no_works (w : Work) (h : s.hif.works = []) : s.abortRecords w = s := by
  unfold State.abortRecords
  induction w.aborters with
  | nil => rfl
  | cons a as ih => simpa [work?_of_no_works s _ _ h] using ih

theorem settleRing_no_works (r : Nat) (h : s.hif.works = []) : (s.settleRing r).hif.works = [] := by
  have hs : ∀ g, (s.setRing r g).hif.works = [] := fun _ => h
  simp only [State.settleRing]
  split
  · split
    · rw [work?_of_no_works _ _ _ (hs _)]; exact h
    · exact h
  · exact h

theorem settleOne_no_works {t : State} (h : s.hif.works = []) (ht : s.settleOne = some t) : t.hif.works = [] := by
  simp only [State.settleOne, h, List.find?_nil] at ht
  split at ht
  · cases ht; rw [(works_finishHead s _ _ _ _ _ (by simp [h])).works, h]
  · split at ht
    · cases ht; exact settleRing_no_works s _ h
    · cases ht

theorem settleN_no_works (n : Nat) (h : s.hif.works = []) : (s.settleN n).hif.works = [] := by
  induction n generalizing s with
  | zero => exact h
  | succ n ih =>
    simp only [State.settleN]
    split
    · rename_i t ht; exact ih t (settleOne_no_works s h ht)
    · exact h

theorem complete_only (w : Work) (status flags words : Nat) (h : s.hif.works = [w]) :
    (s.complete w status flags words).hif.works = [] := by
  have hr := recordOf_no_works _ w.ring w.seq w.tag w.cls status flags words w.intr (dropWork_only s w h)
  have hf := (noteCtxFail_works _ w.ring w.seq status).trans hr
  simp only [State.complete, abortRecords_no_works _ w hf]
  exact settleN_no_works _ _ hf

/-! ## Frames -/

/-- What completes a descriptor without a hint moves the rings and what the module sends. -/
theorem SameInside.moves {s t : State} (h : SameInside s t) {as : List Area} (rs : List (Nat × Nat)) (hh : .hif ∈ as)
    (ho : .out ∈ as) : s.moves t as rs := by
  refine ⟨h.pending, fun a ha => ?_, fun o _ hm _ => h.reg o hm⟩
  cases a with
  | hif => exact absurd hh ha
  | out => exact absurd ho ha
  | dram | bank | cache => simp [Area.same, h.mem]
  | nv => exact h.nv
  | aon => exact h.aon
  | sec => exact h.sec
  | arr => exact h.arr
  | kv => exact h.kv
  | vcd => exact h.vcd
  | stn => exact h.stn
  | vrd => exact h.vrd
  | merge => exact h.merge
  | pair => exact h.pair
  | olp => exact h.olp
  | pwr => exact h.pwr

/-! ## The cores go idle -/

@[simp] theorem coresIdle_hif : s.coresIdle.hif = s.hif := rfl
@[simp] theorem coresIdle_vcd : s.coresIdle.vcd = s.vcd := rfl
@[simp] theorem coresIdle_mem : s.coresIdle.mem = s.mem := rfl

theorem rings_coresIdle : SameRings s s.coresIdle :=
  (rings_setBit s _ _ _ (by decide)).trans (rings_setFld _ _ _ _ (by decide))

theorem moves_coresIdle : s.moves s.coresIdle picAreas picRegs := by
  have hv : ∃ g ∈ picRegs, g.1 ≤ VCD_STATUS ∧ VCD_STATUS ≤ g.2 := ⟨vcdRegs, by simp [picRegs], by decide⟩
  exact State.moves_trans (s.moves_setBit _ _ _ _ _ (.inr hv)) (State.moves_setFld _ _ _ _ _ _ (.inr hv))

/-! ## The end of the only picture -/

theorem codecSettle_no_works (h : s.hif.works = []) : s.codecSettle = s := by simp [State.codecSettle, h, State.codecNext]

theorem readFails_eq_none (c : Nat) (rs : List (Nat × Nat)) (hb : s.mem.bad = []) : s.readFails c rs = none := by
  have hl : ∀ addr len, s.badLine addr len = none := fun _ _ => by simp [State.badLine, hb]
  simp only [State.readFails, hl, Option.map_eq_none_iff, List.findSome?_eq_none_iff, implies_true]

/-- No line of DRAM has been found uncorrectable, and the picture's reads find none (R225, R259). -/
theorem pictureFails_eq_none (w : Work) (x : Stream) (res : PicResult) (hb : s.mem.bad = []) (hu : res.uncorrectable = none) :
    s.pictureFails w x res = none := by
  simp [State.pictureFails, readFails_eq_none s _ _ hb, hu]

theorem runningPic_only {w : Work} {p : PicWork} (hw : s.hif.works = [w]) (hp : w.pic = some p) (hr : w.phase = .running) :
    s.runningPic = some w := by
  simp [State.runningPic, hw, hp, hr]

/-- An ENCODE whose reads are good commits (R221). -/
theorem pictureDone_encode {w : Work} {p : PicWork} {x : Stream} {res : PicResult} (hrun : s.runningPic = some w)
    (hp : w.pic = some p) (hx : s.stream? p.stream = some x) (hf : s.pictureFails w x res = none) (hop : w.op = 3)
    (ht : p.tampered = false) : pictureDone res s = (s.doneEncode w p x res).codecSettle := by
  simp [pictureDone, hrun, hp, hx, hf, hop, ht]

/-- One whose access unit does not fit OUT_LEN idles the cores and completes, and does nothing else (R229). -/
theorem doneEncode_tooLong {w : Work} {p : PicWork} {x : Stream} {res : PicResult} {m : CpbStep}
    (hm : x.cpb (dF w.desc 11 1) res.bits1 res.bits2 = m) (hskip : m.skip = false)
    (hlong : vOutLen w.desc < (m.bits + m.filler + 7) / 8) :
    ∃ flags words, s.doneEncode w p x res = s.coresIdle.complete w stLengthLimit flags words := by
  simp only [State.doneEncode, hm, hskip, if_pos hlong]
  exact ⟨_, _, rfl⟩

/-- Settles O39: the state that follows is the completion of the work after `coresIdle` (`doneEncode_tooLong`), which keeps
streams and DRAM and leaves nothing in flight for the codec to run. -/
theorem encodeLengthLimit : Obligations.EncodeLengthLimit := by
  unfold Obligations.EncodeLengthLimit
  intro s w p x res hacts hworks hpic _ hx hhears hop hphase hbad hunc htamp m hskip hlong
  obtain ⟨flags, words, hdone⟩ := doneEncode_tooLong s (p := p) rfl hskip hlong
  have hnone : (s.coresIdle.complete w stLengthLimit flags words).hif.works = [] :=
    complete_only _ w _ _ _ (by simpa using hworks)
  have hk : pictureDone res s = s.coresIdle.complete w stLengthLimit flags words := by
    rw [pictureDone_encode s (runningPic_only s hworks hpic hphase) hpic hx (pictureFails_eq_none s w x res hbad hunc) hop htamp,
      hdone, codecSettle_no_works _ hnone]
  have hin := inside_complete s.coresIdle w stLengthLimit flags words
  refine ⟨_, core_eq hacts rfl hk (by simp [hin.ue]), ⟨?gone, words, flags, ?record⟩, ?vcd, ?dram, ?frame⟩
  case gone => exact work?_of_no_works _ _ _ (by simpa using hnone)
  case record =>
    exact recordSent_units s ((rings_coresIdle s).completes w _ flags words hhears.1 hhears.2) (units_updateLines _)
  case vcd => simp [hin.vcd]
  case dram => simp [hin.mem]
  case frame =>
    exact State.moves_trans (State.moves_trans (moves_coresIdle s) (hin.moves _ (by decide) (by decide)))
      (State.moves_updateLines _ _ _)

end Sys2Proof.Machine
end
